-- ==== Sys2Proof/Word.lean ====
section
/-! DEFINITION. The word types of the device (spec/00_scope.md R4) and the shape of sparse plain data. -/

namespace Sys2Proof

/-- Eight bits: the smallest addressable unit. -/
abbrev Byte := BitVec 8

/-- A 16-bit word. -/
abbrev W16 := BitVec 16

/-- A 32-bit word. -/
abbrev W32 := BitVec 32

/-- A 64-bit word: the granule of configuration space (R434) and of scalar registers (R77). -/
abbrev W64 := BitVec 64

/-- Sparse data by number: strictly rising keys, no entry equal to what an unlisted key reads as. -/
abbrev SMap (α : Type) := List (Nat × α)

end Sys2Proof
end

