-- ==== Sys2Proof/Syntax.lean ====
section
/-! DEFINITION. The commands of the block: one constructor per row of spec/opcode_table.json, with the
operands each needs. The table gives no operands; these are the model's (log entry 1). -/

namespace Sys2Proof

/-- A packet: the 32-byte header flit of Table 6.4 (Table 7.4 for ACCUM), bit 0 the lowest bit of byte 0,
and its payload bytes (R172). -/
structure Packet where
  hdr     : BitVec 256
  payload : List Byte
  deriving DecidableEq, Repr

/-- A codeword of RS(544,514) that a link flit overlaps (R267), as it was received. -/
structure Codeword where
  /-- The symbols, 0 to 543, that arrived wrong. -/
  errs : List Nat
  /-- Its last data symbol arrives with this flit: it is counted here. -/
  last : Bool
  deriving DecidableEq, Repr

/-- A link flit (Table 9.2), with the codewords that it overlaps (R267). -/
structure LinkFlit where
  beat    : W32
  ctrl    : W64
  payload : List Byte
  crc     : W32
  fec     : List Codeword
  deriving DecidableEq, Repr

/-- The header of an ICP command (Table 12.2) and where it came from: the key of the reply cache (R357). -/
structure IcpCmd where
  /-- SEQ of the header. -/
  seq : W64
  /-- Source address and UDP port as one number below 2^192; 2^192 + queue pair; 2^193 + MCTP endpoint. -/
  src : Nat
  /-- 0 and 1: Ethernet port. 2: ICP on the sideband (R369). 3: MCTP message type 0x05, for the SPDM requests (R411). -/
  via : Nat
  /-- DEVICE of the header. -/
  dev : W16
  /-- The tag that follows the parameters when AUTH = 1 (R352). -/
  tag : Option (List Byte)
  /-- Vendor enterprise number of the MCTP message that carries it, for `via` 2 (R369). -/
  vendor : W32
  /-- For the SPDM rows: the request that the message carries, where it is not the row's own (R411). -/
  spdm : Option (List Byte) := none
  deriving DecidableEq, Repr

/-- An Ethernet frame as the port's MAC sees it, parsed by the external standards of Table 12.1. -/
structure EthFrame where
  /-- Length with FCS, in bytes. -/
  len       : Nat
  fcsOk     : Bool
  /-- 0x0800 IPv4, 0x86DD IPv6, 0x0806 ARP; others are unknown. -/
  etherType : W16
  dstMac    : BitVec 48
  vlanTags  : Nat
  /-- The 802.1Q tag, where there is one. -/
  vlan      : W16
  /-- PAUSE or PFC frame. -/
  pause     : Bool
  fragment  : Bool
  /-- IP options or IPv6 extension headers are present. -/
  options   : Bool
  /-- Destination IP address, an IPv4 address as its 32 bits. -/
  dstIp     : BitVec 128
  udp       : Bool
  icmp      : Bool
  /-- Type of an ICMP or ICMPv6 message. -/
  icmpType  : Nat
  udpDst    : Nat
  /-- Opcode of the RoCEv2 base transport header. -/
  roceOp    : Nat
  /-- A nonzero UDP checksum that fails. -/
  csumBad   : Bool
  /-- Source address and UDP port as one number. -/
  src       : Nat
  payload   : List Byte
  /-- FEC codewords that the PCS corrected, and found not correctable, while the frame came in. -/
  fecCorr   : Nat
  fecUncorr : Nat
  deriving DecidableEq, Repr

/-- An acknowledgement (nak 0) or a NAK as it arrives, and whether it is marked Congestion Experienced (R344). -/
structure AckIn where
  nak : Nat
  ce  : Bool
  deriving DecidableEq, Repr

/-- A READ response as it arrives. -/
structure DataIn where
  ce   : Bool
  data : List Byte
  deriving DecidableEq, Repr

/-- A congestion notification for a queue pair as it arrives. -/
structure CnpIn where
  q  : Nat
  ce : Bool
  deriving DecidableEq, Repr

/-- Who issued a fence or an ordered signal: a tile or the vector engine of a root die. -/
inductive Issuer where
  | tile (t : Nat)
  | rve (r : Nat)
  deriving DecidableEq, Repr

/-- A reference edge as it reaches the beat root (R40): an edge of BEAT_IN, or a beat word accepted on
REF_LINK carrying this REF_TGL. -/
inductive EdgeSource where
  | beatIn
  | refWord (tgl : Bool)
  deriving DecidableEq, Repr

/-- What a training or retraining of a link found (R277, R282, R285, R288). -/
structure TrainResult where
  /-- The attempt succeeded. -/
  ok       : Bool
  /-- Physical lanes that failed training, bit l for lane l. -/
  failed   : BitVec 9
  /-- The far receiver's lane map: its position on physical lane 8, or 0xF (R266). -/
  farMap   : BitVec 4
  /-- Far end's report: PHYS, DIM, DIRN. -/
  farPhys  : BitVec 15
  farDim   : BitVec 3
  farDirn  : Bool
  /-- Hop time in ps (R288). -/
  hopPs    : W32
  deriving DecidableEq, Repr

/-- What the pins read at a power-on (R428, R429). -/
structure PowerUp where
  /-- SMB_ADDR in bits 7 to 1 and RST_MODE in bit 0, 16 crystal cycles before T0. -/
  straps   : Byte
  /-- RESET_N reads low at T0. -/
  resetLow : Bool
  deriving DecidableEq, Repr

/-- The inputs of the understory's comparators (Table 13.7). -/
structure UsInputs where
  /-- 48 V input in mV. -/
  vinMv   : Nat
  /-- Auxiliary rail in mV. -/
  auxMv   : Nat
  /-- Coolant leak resistance in kΩ. -/
  leakKohm : Nat
  /-- Presence pin open. -/
  absent  : Bool
  /-- The hold-up store holds less than a flash program sequence needs. -/
  marginLow : Bool
  /-- Hottest die in 1/16 °C. -/
  dieTemp : Int
  deriving DecidableEq, Repr

/-- One IEEE 1149.1 instruction on the test pins (R413). -/
inductive JtagOp where
  | bypass
  | idcode
  | other
  deriving DecidableEq, Repr

/-- Every command of the block, in the order of spec/opcode_table.json. -/
inductive Instr where
  -- configuration (01)
  | stagingWrite (addr : Nat) (v : W64)
  | registerWrite (addr : Nat) (v : W64)
  | commitReq (v : W64)
  | commitAbort (v : W64)
  | commitApply
  | tileImageCopyDone
  -- beats, escapement (02)
  | refEdge (src : EdgeSource)
  | refTimeout
  | runStopped
  | permuteRoundDone (r : Nat)
  | segmentStart
  | dueCheck (d : Nat)
  | freeze
  | release
  | forcedRelease
  | boundaryCheck (b : Nat)
  | clearingPointDecision (b : Nat)
  | clearingTilesCheck
  | clearing
  | clearingWaitLimit
  | segmentEnd
  | localReady
  | waitRelease (cref : W32)
  | waitcGrant (cref : W32)
  -- tile, slot A (03)
  | instructionFetch (t : Nat)
  | nop (t : Nat) (w : W64)
  | br (t : Nat) (w : W64)
  | bcc (t : Nat) (w : W64)
  | jr (t : Nat) (w : W64)
  | call (t : Nat) (w : W64)
  | loop (t : Nat) (w : W64)
  | bound (t : Nat) (w : W64)
  | alu (t : Nat) (w : W64)
  | addi (t : Nat) (w : W64)
  | andi (t : Nat) (w : W64)
  | ori (t : Nat) (w : W64)
  | xori (t : Nat) (w : W64)
  | shi (t : Nat) (w : W64)
  | mul (t : Nat) (w : W64)
  | div (t : Nat) (w : W64)
  | seti (t : Nat) (w : W64)
  | movk (t : Nat) (w : W64)
  | crr (t : Nat) (w : W64)
  | crw (t : Nat) (w : W64)
  | sig (t : Nat) (w : W64)
  | sigR (t : Nat) (w : W64)
  | wait (t : Nat) (w : W64)
  | cons (t : Nat) (w : W64)
  | waitc (t : Nat) (w : W64)
  | read (t : Nat) (w : W64)
  | sigi (t : Nat) (w : W64)
  | fenceW (t : Nat) (w : W64)
  | fetch (t : Nat) (w : W64)
  | fqstat (t : Nat) (w : W64)
  -- tile, slot B
  | slotBNop (t : Nat) (w : W64)
  | lds (t : Nat) (w : W64)
  | sts (t : Nat) (w : W64)
  | ldv (t : Nat) (w : W64)
  | stv (t : Nat) (w : W64)
  | fill (t : Nat) (w : W64)
  | copy (t : Nat) (w : W64)
  | accw (t : Nat) (w : W64)
  | varith (t : Nat) (w : W64)
  | vfma (t : Nat) (w : W64)
  | vcmp (t : Nat) (w : W64)
  | vlogic (t : Nat) (w : W64)
  | vsel (t : Nat) (w : W64)
  | vcvt (t : Nat) (w : W64)
  | vred (t : Nat) (w : W64)
  | vperm (t : Nat) (w : W64)
  | vbcast (t : Nat) (w : W64)
  | vmovs (t : Nat) (w : W64)
  | mld (t : Nat) (w : W64)
  | mma (t : Nat) (w : W64)
  | mdrain (t : Nat) (w : W64)
  | mfq (t : Nat) (w : W64)
  -- tile events (04, 05, 06, 08)
  | storeGroupWrite (t row : Nat)
  | memopComplete (t : Nat)
  | bankOff (t b : Nat)
  | bankWakeDone (t b : Nat)
  | fillerPassBegin (t : Nat)
  | fillerEntryComplete (t : Nat)
  | exchangeTransfer (t e i : Nat)
  | switchTransfer (d e i : Nat)
  -- packets (06); d: the die crossbar that decodes it (4: none yet), port: the crossbar port
  | writePacket (d port : Nat) (p : Packet)
  | writeAccPacket (d port : Nat) (p : Packet)
  | readReqPacket (d port : Nat) (p : Packet)
  | readRspPacket (d port : Nat) (p : Packet)
  | signalPacket (d port : Nat) (p : Packet)
  | accumPacket (d port : Nat) (p : Packet)
  | ackPacket (d port : Nat) (p : Packet)
  | reservePacket (d port : Nat) (p : Packet)
  | grantPacket (d port : Nat) (p : Packet)
  | creditReturn (buf inst : Nat) (vc : Bool)
  | landingBufferWrite (t : Nat)
  | fetchDescriptorStart (t : Nat)
  | fetchReadIssue (t : Nat)
  | fetchDescriptorComplete (t : Nat)
  | readTimeout (t tag : Nat)
  | fenceRelease (u : Issuer)
  | sigRDepart (u : Issuer)
  -- root dies (07)
  | refreshTick
  | refresh (r path : Nat)
  | regionCheckEntry (r i : Nat)
  | regionClose (r i : Nat)
  | regionReleaseComplete (r i : Nat)
  | regionForceClose (r i : Nat)
  -- root vector engine (08)
  | rveNop (r : Nat) (w : W64)
  | rveBr (r : Nat) (w : W64)
  | rveBcc (r : Nat) (w : W64)
  | rveEnd (r : Nat) (w : W64)
  | endWaitEntry (r : Nat)
  | skip (r : Nat) (w : W64)
  | xop (r : Nat) (w : W64)
  | xaddi (r : Nat) (w : W64)
  | xseti (r : Nat) (w : W64)
  | xseth (r : Nat) (w : W64)
  | xld (r : Nat) (w : W64)
  | xst (r : Nat) (w : W64)
  | xfop (r : Nat) (w : W64)
  | zop (r : Nat) (w : W64)
  | zfma (r : Nat) (w : W64)
  | zun (r : Nat) (w : W64)
  | zbc (r : Nat) (w : W64)
  | zcmp (r : Nat) (w : W64)
  | zsel (r : Nat) (w : W64)
  | zred (r : Nat) (w : W64)
  | zld (r : Nat) (w : W64)
  | zst (r : Nat) (w : W64)
  | zldr (r : Nat) (w : W64)
  | rsend (r : Nat) (w : W64)
  | rveSig (r : Nat) (w : W64)
  | rveWait (r : Nat) (w : W64)
  | rveWaitc (r : Nat) (w : W64)
  | rveCons (r : Nat) (w : W64)
  | readc (r : Nat) (w : W64)
  | openRegion (r : Nat) (w : W64)
  | rveFence (r : Nat) (w : W64)
  -- links (09)
  | linkDataFlit (n : Nat) (f : LinkFlit)
  | linkIdleFlit (n : Nat) (f : LinkFlit)
  | replayReq (n : Nat) (f : LinkFlit)
  | replayReqResend (n : Nat)
  | laneLossOfLock (n pos : Nat)
  | trainingComplete (n : Nat) (x : TrainResult)
  | retrainComplete (n : Nat) (x : TrainResult)
  -- counts: corrected symbols by physical lane that no flit command of the window carried
  | laneSerWindow (n : Nat) (counts : List Nat)
  -- long runs (10)
  | checkpointComplete (r : Nat)
  | markUnclean
  -- Crown and Ethernet (12)
  | crownPollRound
  | ethFrameReceive (p : Nat) (f : EthFrame)
  | arpRequest (p : Nat) (target sender : W32)
  | neighborSolicitation (p : Nat) (target sender : BitVec 128)
  | icmpEcho (p : Nat) (v6 : Bool) (src ident : Nat) (data : List Byte)
  | ptpMessage (p source domain : Nat) (secs : BitVec 48) (nanos : W32) (locked : Bool)
  | rdmaWrite (p q : Nat) (psn : BitVec 24) (first last ce : Bool) (rkey : W32) (va dmaLen : Nat) (data : List Byte)
  | rdmaRead (p q : Nat) (psn : BitVec 24) (ce : Bool) (rkey : W32) (va len : Nat)
  | roceSend (p q : Nat) (psn : BitVec 24) (ce : Bool) (msg : List Byte)
  | roceAckReceive (q : Nat) (psn : BitVec 24) (nak : AckIn)
  | rdmaReadResponse (q : Nat) (psn : BitVec 24) (data : DataIn)
  | cnpReceive (q : CnpIn)
  | rateRaiseTimer (q : Nat)
  | intakeLanding (p : Nat)
  -- ICP (12, 13, 14)
  | getInfo (c : IcpCmd)
  | getCapability (c : IcpCmd)
  | getState (c : IcpCmd)
  | getTime (c : IcpCmd)
  | load (c : IcpCmd) (area len : Nat) (flags : W64)
  | arm (c : IcpCmd) (bs : W64)
  | stop (c : IcpCmd) (bx : W64)
  | abort (c : IcpCmd)
  | unload (c : IcpCmd)
  | deviceReset (c : IcpCmd)
  | chimeSet (c : IcpCmd) (flags : W32) (dst : BitVec 128) (udp : W16) (outPort : Byte) (n : W32) (base : W64)
  | memRead (c : IcpCmd) (addr len : Nat)
  | memWrite (c : IcpCmd) (addr : Nat) (data : List Byte)
  | qpConnect (c : IcpCmd) (q port : Nat) (rqpn : W32) (raddr : BitVec 128) (sendPsn expPsn : W32)
  | qpReset (c : IcpCmd) (q : Nat)
  | logRead (c : IcpCmd) (which : Byte) (first : W32) (count : Byte)
  | health (c : IcpCmd)
  | counterView (c : IcpCmd) (cref : W32)
  | physRead (c : IcpCmd) (die row pos block : Byte) (off : W32)
  | fwStageBegin (c : IcpCmd) (len : W32)
  | fwStageData (c : IcpCmd) (off : W32) (data : List Byte)
  | fwVerify (c : IcpCmd)
  | fwSchedule (c : IcpCmd) (beat : W64)
  | fwAbandon (c : IcpCmd)
  | fwStatus (c : IcpCmd)
  | ownerEnrol (c : IcpCmd) (qO qE sigNew sigCur : List Byte)
  | ownerLock (c : IcpCmd)
  | ownerRelease (c : IcpCmd) (mode : Byte) (sig : List Byte)
  | netSet (c : IcpCmd) (p : Nat) (ipv4 : W32) (ipv6 : BitVec 128) (vlan : W16)
  | powerGet (c : IcpCmd)
  | budgetSet (c : IcpCmd) (budget : W32)
  | ceilingSet (c : IcpCmd) (tileCeil tempCeil : W16)
  | floorSet (c : IcpCmd) (floor : W16)
  | permute (c : IcpCmd) (table : W64) (entries : W32) (rounds : W16) (b0 : W64)
  | restore (c : IcpCmd) (source lost : Byte) (holder : W16) (step : W64)
  | returnToService (c : IcpCmd) (kind : Byte) (inst : W32)
  | blockReset (c : IcpCmd) (block : Byte) (inst : W16)
  | spdmGetVersion (c : IcpCmd)
  | spdmGetCapabilities (c : IcpCmd)
  | spdmNegotiateAlgorithms (c : IcpCmd) (asym hash : W32)
  | spdmGetDigests (c : IcpCmd)
  | spdmGetCertificate (c : IcpCmd) (slot : Byte) (off len : W16)
  | spdmChallenge (c : IcpCmd) (slot : Byte) (nonce : BitVec 256)
  | spdmGetMeasurements (c : IcpCmd) (index : Byte) (signed : Bool) (nonce : BitVec 256)
  | setEndpointId (eid : Byte)
  | getEndpointId
  | getMctpVersionSupport (msgType : Byte)
  | getMessageTypeSupport
  -- reset, power, firmware (13, 14)
  | powerOnReset (x : PowerUp)
  | resetPin (lowRc : Nat)
  | criticalStateReset (block inst : Nat)
  | commandReset
  | watchdogReset
  | domainRelease (row : Nat) (locked : Bool)
  | pllLockTimeout (row : Nat)
  | resetStretchEnd
  | firstStageVerify
  | bootSettings
  | bootMaps
  | bootNet
  | understoryCompare (x : UsInputs)
  | standbyEnter (v : W64)
  | standbyPowerOff
  | wakePin (lowCrystal : Nat)
  | tripClear (lowCrystal : Nat)
  | rtcAlarm
  | rtcSet (v : W64)
  | regulatorSample (powerBu : Nat) (coreTemps ringTemps : List Int)
  | droop (src : Nat)
  | droopHoldExpire (src : Nat)
  | fwActivation
  | linkFlitSend (n : Nat)
  | holdAccounting
  | farEndRetrain (n : Nat)
  | pcsLockChange (p : Nat) (locked : Bool)
  | auxPowerGood
  | resetNRelease (highRc : Nat)
  | periodicInterfaceTraining (r path : Nat) (ok : Bool)
  | ieee1149Access (op : JtagOp)
  deriving DecidableEq, Repr

end Sys2Proof
end

