-- ==== Sys2Proof/Decode.lean ====
section
/-! DEFINITION. The command that a word spells by the bits of spec/opcode_table.json. The table gives bits to
none of its 241 rows, so no word spells a command. -/

namespace Sys2Proof

/-- The command spelt by the low `nbits` bits of `w`: none, for the table gives no row any bits. -/
def decodeTableWord (_nbits _w : Nat) : Option Instr := none

end Sys2Proof
end

