-- ==== Sys2Proof/Machine/Sparse.lean ====
section
/-! DEFINITION. Sparse data by number: the read and the writes that keep its canonical form (keys strictly
rising, no entry equal to what an unlisted key reads as), and small helpers on bits and bytes. -/

namespace Sys2Proof

/-- What key `k` holds; `d` where nothing is listed. -/
def SMap.read {α : Type} (d : α) : SMap α → Nat → α
  | [], _ => d
  | (j, v) :: m, k => if j = k then v else SMap.read d m k

/-- List `v` at `k`, in order. -/
def SMap.put {α : Type} (k : Nat) (v : α) : SMap α → SMap α
  | [] => [(k, v)]
  | (j, w) :: m => if k < j then (k, v) :: (j, w) :: m else if k = j then (k, v) :: m else (j, w) :: SMap.put k v m

/-- List nothing at `k`. -/
def SMap.erase {α : Type} (k : Nat) : SMap α → SMap α
  | [] => []
  | (j, w) :: m => if j = k then SMap.erase k m else (j, w) :: SMap.erase k m

/-- Make `k` hold `v`, in canonical form. -/
def SMap.write {α : Type} [DecidableEq α] (d : α) (k : Nat) (v : α) (m : SMap α) : SMap α :=
  if v = d then m.erase k else m.put k v

/-- Keep only the keys that `p` accepts. -/
def SMap.keep {α : Type} (p : Nat → Bool) : SMap α → SMap α
  | [] => []
  | (j, w) :: m => if p j then (j, w) :: SMap.keep p m else SMap.keep p m

/-- Keys strictly rise, all at or above `lo`. -/
def SMap.sortedFrom {α : Type} (lo : Nat) : SMap α → Bool
  | [] => true
  | (j, _) :: m => decide (lo ≤ j) && SMap.sortedFrom (j + 1) m

/-- Canonical form: keys strictly rise and no entry holds the default. -/
def SMap.canon {α : Type} [DecidableEq α] (d : α) (m : SMap α) : Bool :=
  m.sortedFrom 0 && m.all (fun e => decide (e.2 ≠ d))

/-- Write consecutive entries from key `k`. -/
def SMap.writeList {α : Type} [DecidableEq α] (d : α) (k : Nat) : List α → SMap α → SMap α
  | [], m => m
  | v :: vs, m => SMap.writeList d (k + 1) vs (m.write d k v)

/-- An entry in front of a map, unless it holds the default. -/
def SMap.cons {α : Type} [DecidableEq α] (d : α) (k : Nat) (v : α) (m : SMap α) : SMap α :=
  if v = d then m else (k, v) :: m

/-- Change every listed entry. -/
def SMap.mapVals {α : Type} [DecidableEq α] (d : α) (f : Nat → α → α) : SMap α → SMap α
  | [] => []
  | (j, v) :: m => SMap.cons d j (f j v) (SMap.mapVals d f m)

/-- Change the entries of `n` keys from `k`; no key of the map is below `k`. -/
def SMap.mapRange {α : Type} [DecidableEq α] (d : α) (f : Nat → α → α) : Nat → Nat → SMap α → SMap α
  | _, 0, m => m
  | k, n + 1, [] => SMap.cons d k (f k d) (SMap.mapRange d f (k + 1) n [])
  | k, n + 1, (j, v) :: m =>
    if j = k then SMap.cons d k (f k v) (SMap.mapRange d f (k + 1) n m)
    else SMap.cons d k (f k d) (SMap.mapRange d f (k + 1) n ((j, v) :: m))

/-- `n` consecutive entries from key `k`. -/
def SMap.readList {α : Type} (d : α) (m : SMap α) (k : Nat) : Nat → List α
  | 0 => []
  | n + 1 => m.read d k :: SMap.readList d m (k + 1) n

namespace Machine

/-- Bits [hi:lo] of a number. -/
def bits (w hi lo : Nat) : Nat := (w >>> lo) % 2 ^ (hi - lo + 1)

/-- Bit `i` of a number. -/
def bit (w i : Nat) : Bool := (w >>> i) % 2 == 1

/-- Bits [hi:lo] of a 64-bit word. -/
def wbits (w : W64) (hi lo : Nat) : Nat := bits w.toNat hi lo

/-- 1 or 0. -/
def b2n (b : Bool) : Nat := if b then 1 else 0

/-- Two's complement value of the low `w` bits. -/
def signed (w n : Nat) : Int :=
  let m := n % 2 ^ w
  if 2 * m < 2 ^ w then (m : Int) else (m : Int) - (2 ^ w : Nat)

/-- Low `w` bits of an integer, two's complement. -/
def wrap (w : Nat) (z : Int) : Nat := (z % ((2 ^ w : Nat) : Int)).toNat

/-- Little-endian bytes of a number (R4). -/
def toBytes (v : Nat) : Nat → List Byte
  | 0 => []
  | n + 1 => BitVec.ofNat 8 v :: toBytes (v / 256) n

/-- Number of little-endian bytes (R4). -/
def ofBytes : List Byte → Nat
  | [] => 0
  | b :: bs => b.toNat + 256 * ofBytes bs

/-- `n` zero bytes. -/
def zeros (n : Nat) : List Byte := List.replicate n 0

/-- Cut a list into pieces of `n` (`fuel` pieces at most). -/
def chunks {α : Type} (n : Nat) : Nat → List α → List (List α)
  | 0, _ => []
  | _, [] => []
  | fuel + 1, l => l.take n :: chunks n fuel (l.drop n)

/-- The numbers from `a`, `n` of them. -/
def upFrom (a : Nat) : Nat → List Nat
  | 0 => []
  | n + 1 => a :: upFrom (a + 1) n

/-- Fold over the numbers below `n`, ascending. -/
def foldUp {α : Type} (f : Nat → α → α) (n : Nat) (x : α) : α := (upFrom 0 n).foldl (fun s i => f i s) x

/-- Saturating count in `w` bits. -/
def satAdd (w a b : Nat) : Nat := min (a + b) (2 ^ w - 1)

/-- Drop the first element that `p` accepts. -/
def dropFirst {α : Type} (p : α → Bool) : List α → List α
  | [] => []
  | x :: xs => if p x then xs else x :: dropFirst p xs

/-- floor(log2 n); 0 for 0. -/
def flog2 (n : Nat) : Nat := Nat.log2 n

end Machine
end Sys2Proof
end

