-- ==== Sys2Proof/Machine/Float.lean ====
section
/-! DEFINITION. Number formats and arithmetic (R94, R128 to R135, R143 to R148). A value is held exactly as
sign, integer and power of two; rounding happens once, on the destination's normal and subnormal grid. -/

namespace Sys2Proof.Machine

/-- An exact value: NaN, an infinity, or (−1)^neg × m × 2^e. -/
inductive Num where
  | nan
  | inf (neg : Bool)
  | fin (neg : Bool) (m : Nat) (e : Int)
  deriving DecidableEq, Repr

/-- A floating-point format (Table 5.2). -/
structure Fmt where
  ebits : Nat
  fbits : Nat
  bias  : Nat
  /-- E4M3 has no infinities and one NaN per sign. -/
  e4m3  : Bool
  deriving DecidableEq, Repr

def fp32 : Fmt := ⟨8, 23, 127, false⟩
def bf16 : Fmt := ⟨8, 7, 127, false⟩
def fp16 : Fmt := ⟨5, 10, 15, false⟩
def fpE4M3 : Fmt := ⟨4, 3, 7, true⟩
def fpE5M2 : Fmt := ⟨5, 2, 15, false⟩

/-- Width in bits. -/
def Fmt.width (f : Fmt) : Nat := 1 + f.ebits + f.fbits
/-- Exponent field all ones. -/
def Fmt.emax (f : Fmt) : Nat := 2 ^ f.ebits - 1
/-- Code of the largest finite value, sign 0 (Table 5.2). -/
def Fmt.maxFin (f : Fmt) : Nat := if f.e4m3 then 0x7E else f.emax * 2 ^ f.fbits - 1
/-- Code of +∞; E4M3 has none and gives its NaN (Table 5.3). -/
def Fmt.infCode (f : Fmt) : Nat := if f.e4m3 then 0x7F else f.emax * 2 ^ f.fbits
/-- Canonical NaN (Table 5.2, R129). -/
def Fmt.nanCode (f : Fmt) : Nat := if f.e4m3 then 0x7F else f.emax * 2 ^ f.fbits + 2 ^ (f.fbits - 1)
/-- The sign bit, when set. -/
def Fmt.sign (f : Fmt) (neg : Bool) : Nat := if neg then 2 ^ (f.ebits + f.fbits) else 0
/-- Exponent of the least significant bit of a subnormal. -/
def Fmt.subExp (f : Fmt) : Int := 1 - (f.bias : Int) - f.fbits

/-- The exact value of a code (R128). -/
def Fmt.decode (f : Fmt) (w : Nat) : Num :=
  let fr := w % 2 ^ f.fbits
  let ex := w / 2 ^ f.fbits % 2 ^ f.ebits
  let neg := w / 2 ^ (f.ebits + f.fbits) % 2 == 1
  if f.e4m3 && ex == 15 && fr == 7 then .nan
  else if !f.e4m3 && ex == f.emax then (if fr == 0 then .inf neg else .nan)
  else if ex == 0 then .fin neg fr f.subExp
  else .fin neg (2 ^ f.fbits + fr) (f.subExp + ((ex - 1 : Nat) : Int))

/-- How a value between two codes is rounded. `stoch r`: stochastically with draw r (R148). -/
inductive Round where
  | near
  | zero
  /-- To nearest, ties away from zero (R143). -/
  | nearAway
  | stoch (r : Nat)
  deriving DecidableEq, Repr

/-- Whether a magnitude lo + rem/unit rounds up. -/
def Round.up (r : Round) (lo rem unit : Nat) : Bool :=
  match r with
  | .near => 2 * rem > unit || (2 * rem == unit && lo % 2 == 1)
  | .zero => false
  | .nearAway => 2 * rem ≥ unit && rem > 0
  | .stoch d => rem * 65536 / unit > d

/-- m × 2^e in units of 2^q: whole units, remainder and what the remainder counts in. -/
def scaleTo (m : Nat) (e q : Int) : Nat × Nat × Nat :=
  if q ≤ e then (m * 2 ^ (e - q).toNat, 0, 1)
  else
    let u := 2 ^ (q - e).toNat
    (m / u, m % u, u)

/-- The unsigned code of m × 2^e, m > 0, before the overflow check: the code of the value on the format's
grid (the grid continued past its largest finite value). -/
def Fmt.gridCode (f : Fmt) (r : Round) (m : Nat) (e : Int) : Nat :=
  let top : Int := (flog2 m : Int) + e
  let eMin : Int := 1 - (f.bias : Int)
  let ex : Int := if top < eMin then eMin else top
  let q := ex - f.fbits
  let (n, rem, unit) := scaleTo m e q
  let n := if r.up n rem unit then n + 1 else n
  (ex - eMin).toNat * 2 ^ f.fbits + n

/-- Whether m × 2^e is a finite value of the format. -/
def Fmt.holds (f : Fmt) (m : Nat) (e : Int) : Bool :=
  m == 0 ||
    (let top : Int := (flog2 m : Int) + e
     let eMin : Int := 1 - (f.bias : Int)
     let ex : Int := if top < eMin then eMin else top
     (scaleTo m e (ex - f.fbits)).2.1 == 0 && f.gridCode .zero m e ≤ f.maxFin)

/-- The code of a value, rounded once (Table 5.3): overflow and infinities saturate when `sat`, and rounding
toward zero overflows to the largest finite value. -/
def Fmt.encode (f : Fmt) (r : Round) (sat : Bool) : Num → Nat
  | .nan => f.nanCode
  | .inf neg => if sat then f.sign neg + f.maxFin else if f.e4m3 then f.nanCode else f.sign neg + f.infCode
  | .fin neg m e =>
    if m = 0 then f.sign neg
    else
      let c := f.gridCode r m e
      if c ≤ f.maxFin then f.sign neg + c
      else if sat || r == .zero then f.sign neg + f.maxFin
      else if f.e4m3 then f.nanCode
      else f.sign neg + f.infCode

/-- Exact value as an integer multiple of 2^q, q not above its exponent. -/
def Num.units (neg : Bool) (m : Nat) (e q : Int) : Int :=
  let n : Int := (m * 2 ^ (e - q).toNat : Nat)
  if neg then -n else n

/-- Exact sum (R94, R145): an exact zero is +0 unless both operands are −0. -/
def Num.add : Num → Num → Num
  | .nan, _ | _, .nan => .nan
  | .inf a, .inf b => if a = b then .inf a else .nan
  | .inf a, .fin _ _ _ => .inf a
  | .fin _ _ _, .inf b => .inf b
  | .fin a m e, .fin b n k =>
    let q := min e k
    let t := Num.units a m e q + Num.units b n k q
    if t = 0 then .fin (a && b && m == 0 && n == 0) 0 0
    else .fin (decide (t < 0)) t.natAbs q

/-- Exact product: ∞ × 0 is NaN. -/
def Num.mul : Num → Num → Num
  | .nan, _ | _, .nan => .nan
  | .inf a, .inf b => .inf (a != b)
  | .inf a, .fin b m _ => if m = 0 then .nan else .inf (a != b)
  | .fin a m _, .inf b => if m = 0 then .nan else .inf (a != b)
  | .fin a m e, .fin b n k => .fin (a != b) (m * n) (e + k)

/-- Negation: the sign of every value but NaN. -/
def Num.neg : Num → Num
  | .nan => .nan
  | .inf a => .inf (!a)
  | .fin a m e => .fin (!a) m e

/-- Absolute value. -/
def Num.abs : Num → Num
  | .nan => .nan
  | .inf _ => .inf false
  | .fin _ m e => .fin false m e

/-- a < b as real numbers, neither NaN (±0 are equal). -/
def Num.lt : Num → Num → Bool
  | .nan, _ | _, .nan => false
  | .inf a, .inf b => a && !b
  | .inf a, .fin _ _ _ => a
  | .fin _ _ _, .inf b => !b
  | .fin a m e, .fin b n k => let q := min e k; decide (Num.units a m e q < Num.units b n k q)

/-- Equality as real numbers. -/
def Num.eq : Num → Num → Bool
  | .nan, _ | _, .nan => false
  | .inf a, .inf b => a == b
  | .inf _, .fin _ _ _ | .fin _ _ _, .inf _ => false
  | .fin a m e, .fin b n k => let q := min e k; decide (Num.units a m e q = Num.units b n k q)

/-- Sign of a value. -/
def Num.isNeg : Num → Bool
  | .nan => false
  | .inf a | .fin a _ _ => a

/-- IEEE 754-2019 maximum (R94): NaN wins, −0 is less than +0. -/
def Num.max (a b : Num) : Num :=
  if a = .nan || b = .nan then .nan
  else if a.eq b then (if a.isNeg then b else a)
  else if a.lt b then b else a

/-- IEEE 754-2019 minimum. -/
def Num.min (a b : Num) : Num :=
  if a = .nan || b = .nan then .nan
  else if a.eq b then (if a.isNeg then a else b)
  else if a.lt b then a else b

/-- NaN or infinite (R146). -/
def Num.nonfinite : Num → Bool
  | .fin _ _ _ => false
  | _ => true

/-- A code's value scaled by 2^k. -/
def Num.shift (k : Int) : Num → Num
  | .fin a m e => .fin a m (e + k)
  | x => x

/-- Exact value of an integer. -/
def Num.ofInt (z : Int) : Num := .fin (decide (z < 0)) z.natAbs 0

/-- Add in a format, one rounding (R94, R115). -/
def fadd (f : Fmt) (r : Round) (a b : Nat) : Nat := f.encode r false ((f.decode a).add (f.decode b))

/-! ## Types of Table 3.6 -/

/-- Lane width in bits of a type code (Table 3.6). -/
def tyWidth (ty : Nat) : Nat :=
  match ty with
  | 0 | 5 => 32
  | 1 | 2 | 6 => 16
  | _ => 8

/-- The format of a floating-point type code. -/
def tyFmt (ty : Nat) : Option Fmt :=
  match ty with
  | 0 => some fp32
  | 1 => some bf16
  | 2 => some fp16
  | 3 => some fpE4M3
  | 4 => some fpE5M2
  | _ => none

/-- Round an exact finite value to an integer (Table 5.3). -/
def roundInt (r : Round) (neg : Bool) (m : Nat) (e : Int) : Int :=
  let (n, rem, unit) := scaleTo m e 0
  let n := if r.up n rem unit then n + 1 else n
  if neg then -(n : Int) else n

/-- Clamp to the range of a w-bit two's complement integer. -/
def clampInt (w : Nat) (z : Int) : Int :=
  if z < -(2 ^ (w - 1) : Nat) then -((2 ^ (w - 1) : Nat) : Int)
  else if z > ((2 ^ (w - 1) : Nat) : Int) - 1 then ((2 ^ (w - 1) : Nat) : Int) - 1 else z

/-- Float to integer (Table 5.3). -/
def floatToInt (w : Nat) (r : Round) (sat : Bool) : Num → Nat
  | .nan => 0
  | .inf neg => if sat then wrap w (if neg then -((2 ^ (w - 1) : Nat) : Int) else ((2 ^ (w - 1) : Nat) : Int) - 1)
                else 2 ^ (w - 1)
  | .fin neg m e =>
    let z := roundInt r neg m e
    if clampInt w z = z then wrap w z else if sat then wrap w (clampInt w z) else 2 ^ (w - 1)

/-- Every value of the format is one of `g` (Table 5.3, first row): the conversion is exact, and infinities stay. -/
def Fmt.within (f g : Fmt) : Bool := decide (f.ebits ≤ g.ebits) && decide (f.fbits ≤ g.fbits)

/-- Convert one value between types of Table 3.6 (R135, Table 5.3). -/
def convert (src dst : Nat) (r : Round) (sat : Bool) (v : Nat) : Nat :=
  if src = dst then
    match tyFmt src with
    | some f => if f.decode v = .nan then f.nanCode else v
    | none => v
  else
    match tyFmt src, tyFmt dst with
    | some f, some g => g.encode r (sat && !f.within g) (f.decode v)
    | some f, none => floatToInt (tyWidth dst) r sat (f.decode v)
    | none, some g => g.encode r sat (.ofInt (signed (tyWidth src) v))
    | none, none =>
      let z := signed (tyWidth src) v
      wrap (tyWidth dst) (if sat then clampInt (tyWidth dst) z else z)

/-! ## BS16 (R132 to R134) -/

/-- A BS16 block: E, FLAGS, MASK, 32 mantissas, and whether a reserved byte of its split-form header is
nonzero. -/
structure Bs16 where
  e     : Nat
  flags : Nat
  mask  : Nat
  m     : List Nat
  resv  : Bool
  /-- Split form (R133): MASK is present whatever NF is. -/
  split : Bool
  deriving DecidableEq, Repr

/-- Whether a block is malformed (R132). -/
def Bs16.malformed (b : Bs16) : Bool :=
  (b.e == 0xFF && (b.flags % 2 == 0 || b.mask != 0xFFFFFFFF)) || b.flags / 2 != 0
    || (b.split && (b.resv || (b.mask != 0 && b.flags % 2 == 0)))

/-- The value of element `i` (R132). -/
def Bs16.elem (b : Bs16) (i : Nat) : Num :=
  let w := b.m.getD i 0
  if b.malformed then .nan
  else if b.flags % 2 == 1 && bit b.mask i then
    (if w = 1 then .inf false else if w = 0xFFFF then .inf true else .nan)
  else if w = 0x8000 then .nan
  else
    let z := signed 16 w
    .fin (decide (z < 0)) z.natAbs ((b.e : Int) - 141)

/-- Kind code of a non-finite element (R132). -/
def bs16Kind : Num → Nat
  | .inf false => 1
  | .inf true => 0xFFFF
  | _ => 0

/-- Mantissa of a finite value at block exponent `e`, and whether it fits (R134). -/
def bs16Mant (e : Nat) : Num → Int
  | .fin neg m k => roundInt .near neg m (k + (141 - (e : Int)))
  | _ => 0

/-- Floor of log2 of a nonzero finite value. -/
def Num.top : Num → Int
  | .fin _ m e => (flog2 m : Int) + e
  | _ => 0

/-- Whether a value is finite and nonzero. -/
def Num.live : Num → Bool
  | .fin _ m _ => m != 0
  | _ => false

/-- Form a BS16 block from 32 values (R134). -/
def bs16Encode (xs : List Num) (split : Bool) : Bs16 :=
  let mask := (upFrom 0 xs.length).foldl (fun a i => if (xs.getD i .nan).nonfinite then a + 2 ^ i else a) 0
  let nf := b2n (mask != 0)
  if mask = 0xFFFFFFFF then ⟨0xFF, 1, mask, xs.map bs16Kind, false, split⟩
  else
    let live := xs.filter Num.live
    let e0 : Nat := match live with
      | [] => 0
      | x :: rest => (127 + rest.foldl (fun t y => Max.max t y.top) x.top).toNat
    let fits (e : Nat) : Bool := xs.all (fun x => x.nonfinite || (bs16Mant e x).natAbs ≤ 32767)
    if fits e0 || e0 < 254 then
      let e := if fits e0 then e0 else e0 + 1
      ⟨e, nf, mask, xs.map (fun x => if x.nonfinite then bs16Kind x else wrap 16 (bs16Mant e x)), false, split⟩
    else
      let big (x : Num) : Bool := !x.nonfinite && decide ((bs16Mant 254 x).natAbs > 32767)
      let mask' := (upFrom 0 xs.length).foldl
        (fun a i => if (xs.getD i .nan).nonfinite || big (xs.getD i .nan) then a + 2 ^ i else a) 0
      ⟨254, 1, mask', xs.map (fun x => if x.nonfinite then bs16Kind x
        else if big x then (if x.isNeg then 0xFFFF else 1) else wrap 16 (bs16Mant 254 x)), false, split⟩

/-- A split-form block from its 64-byte mantissa record and 8-byte header record (R133). -/
def bs16OfSplit (mant hdr : List Byte) : Bs16 :=
  let h := ofBytes hdr
  ⟨bits h 7 0, bits h 15 8, bits h 63 32, (chunks 2 32 mant).map ofBytes, bits h 31 16 != 0, true⟩

/-- The 64-byte mantissa record. -/
def Bs16.mantBytes (b : Bs16) : List Byte := b.m.flatMap (fun w => toBytes w 2)
/-- The 8-byte header record; MASK is zero when NF = 0. -/
def Bs16.hdrBytes (b : Bs16) : List Byte :=
  toBytes b.e 1 ++ toBytes b.flags 1 ++ zeros 2 ++ toBytes (if b.flags % 2 == 1 then b.mask else 0) 4

/-! ## Matrix operand types (R127, R131, R138) -/

/-- Operand class of MT: 0 16-bit, 1 FP8, 2 INT8, 3 FP32. -/
def mtClass (mt : Nat) : Nat :=
  match mt with
  | 0 | 1 => 0
  | 2 | 3 | 4 | 5 => 1
  | 6 => 2
  | _ => 3

/-- Element size in bytes of MT (R136). -/
def mtSize (mt : Nat) : Nat :=
  match mtClass mt with
  | 0 => 2
  | 3 => 4
  | _ => 1

/-- MT names an MXFP8 type. -/
def mtScaled (mt : Nat) : Bool := mt == 4 || mt == 5

/-- Exact value of a floating-point matrix element with scale byte `sc` (R131). -/
def mtDecode (mt sc w : Nat) : Num :=
  match mt with
  | 0 => bf16.decode w
  | 1 => fp16.decode w
  | 2 => fpE4M3.decode w
  | 3 => fpE5M2.decode w
  | 4 => if sc = 0xFF then .nan else (fpE4M3.decode w).shift ((sc : Int) - 127)
  | 5 => if sc = 0xFF then .nan else (fpE5M2.decode w).shift ((sc : Int) - 127)
  | _ => fp32.decode w

/-! ## The K-group rule (R143) -/

/-- One retained product: whole units of 2^lsb and whether bits were dropped. -/
def groupTerm (lsb : Int) : Num → Int × Bool
  | .fin neg m e =>
    let (q, rem, _) := scaleTo m e lsb
    (if neg then -(q : Int) else q, rem != 0)
  | _ => (0, false)

/-- The group value of a K-group's products, as a code of `f` (R143). -/
def groupValue (f : Fmt) (ps : List Num) : Nat :=
  let pinf := ps.contains (.inf false)
  let ninf := ps.contains (.inf true)
  if ps.contains .nan || (pinf && ninf) then f.nanCode
  else if pinf then f.infCode
  else if ninf then f.sign true + f.infCode
  else
    match ps.filter Num.live with
    | [] => if ps.all Num.isNeg then f.sign true else 0
    | x :: rest =>
      let emax := rest.foldl (fun t y => Max.max t y.top) x.top
      let lsb := emax - 48
      let (t, sticky) := ps.foldl (fun (a : Int × Bool) p =>
        let g := groupTerm lsb p
        (a.1 + g.1, a.2 || g.2)) (0, false)
      if t = 0 then 0
      else
        let neg := decide (t < 0)
        if f.holds t.natAbs lsb then f.encode .near false (.fin neg t.natAbs lsb)
        else f.encode (if sticky then .nearAway else .near) false (.fin neg t.natAbs lsb)

/-! ## The generator (R147) -/

/-- mix64 of R147, modulo 2^64. -/
def mix64 (z : Nat) : Nat :=
  let z := (z ^^^ (z >>> 30)) * 0xBF58476D1CE4E5B9 % 2 ^ 64
  let z := (z ^^^ (z >>> 27)) * 0x94D049BB133111EB % 2 ^ 64
  z ^^^ (z >>> 31)

/-- The key of a segment (R147). -/
def srKey (seed step tile : Nat) : Nat := mix64 (seed ^^^ mix64 ((step * 65536 % 2 ^ 64) ||| tile))

/-- Draw number `n` of stream `s` (R147). -/
def srDraw (key s n : Nat) : Nat :=
  let w := mix64 ((key + (((s * 2 ^ 48) ||| (n / 4)) * 0x9E3779B97F4A7C15)) % 2 ^ 64)
  w >>> (16 * (n % 4)) % 65536

end Sys2Proof.Machine
end

