-- ==== Sys2Proof/Config.lean ====
section
/-! DEFINITION. What an implementation fixes and what the spec leaves open: constants with no body, so that
nothing in Lean can see a value of them. Each is named in an assumption log entry. -/

namespace Sys2Proof.Config

/-- A free value: the k-th choice the spec leaves open (log entry 7). -/
opaque free : Nat → Nat

/-- The stepping of the part: true for B0, false for A0 (R330; log entry 8). -/
opaque steppingB0 : Bool

/-- SHA-384 (FIPS 180-4), which the spec uses by name (log entry 20). -/
opaque sha384 : List Byte → BitVec 384
/-- HMAC-SHA-384 (RFC 2104): key, message. -/
opaque hmac384 : BitVec 384 → List Byte → BitVec 384
/-- HKDF-SHA-384 (RFC 5869): input, salt, info; 48 bytes of output. -/
opaque hkdf384 : List Byte → BitVec 384 → List Byte → BitVec 384
/-- ECDSA P-384 verification (FIPS 186-5): public key, hash, signature. -/
opaque ecdsaVerify : List Byte → BitVec 384 → List Byte → Bool
/-- LMS verification (SP 800-208): public key, message, signature. -/
opaque lmsVerify : List Byte → List Byte → List Byte → Bool
/-- ECDSA P-384 signature (FIPS 186-5): private key, hash. -/
opaque ecdsaSign : BitVec 384 → BitVec 384 → List Byte
/-- The private key that the method of FIPS 186-5 Appendix A.2.2 forms from a derived value (R406). -/
opaque keyOfA22 : BitVec 384 → BitVec 384
/-- AES-256-GCM (R406, R407): the wrapped form of 48 bytes under a key with a nonce, and what a wrapped form opens to. -/
opaque gcmSeal : BitVec 256 → Nat → BitVec 384 → List Byte
opaque gcmOpen : BitVec 256 → List Byte → BitVec 384
/-- Helper data of the PUF, in the identity region of flash, which nothing writes (R400, R406). -/
opaque pufHelper : List Byte
/-- The PUF on ring die 1 (R406): the 48 bytes that it reproduces from helper data. -/
opaque puf : List Byte → List Byte
/-- Info strings of the identity key, the record key and the wrap key, which the spec does not spell (R406; log entry 131). -/
opaque identityInfo : List Byte
opaque recordInfo : List Byte
opaque wrapInfo : List Byte
/-- Whether 97 bytes are an uncompressed point of P-384 (Table 14.6). -/
opaque p384Point : List Byte → Bool
/-- The device's k-th ephemeral public key (R412). -/
opaque ephemeralPub : Nat → List Byte
/-- ECDH of the device's k-th ephemeral key with a public key (R412). -/
opaque ecdh : Nat → List Byte → List Byte
/-- Hash of the Farlum ECDSA public key in the boot ROM (R402). -/
opaque romEccHash : BitVec 384
/-- Hash of the Farlum LMS public key in the boot ROM (R402). -/
opaque romLmsHash : BitVec 384
/-- The identity certificate chain of SPDM slot 0 (R406). -/
opaque certChain : List Byte
/-- SHA-384 of the identity certificate (R412). -/
opaque identityCertHash : BitVec 384
/-- Check symbol `i` of a Bahel codeword with these data symbols: a free value, the spec gives no generator (R267, log entry 139). -/
opaque rsCheck : List Nat → Nat → Nat
/-- The module serial number (R406). -/
opaque serial : List Byte
/-- MAC address of a port (Table 12.1). -/
opaque mac : Nat → BitVec 48
/-- MCTP vendor enterprise number (Table 12.3). -/
opaque enterprise : W32
/-- Version of the boot ROM (Table 12.3). -/
opaque romVersion : W32
/-- IDCODE of the test port (R413): the spec names the instruction and gives no value. -/
opaque idcode : W32

/-- The bytes of a record whose layout the spec leaves open (R407, Table 14.4): 3 settings, 4 repair, 7 measurement 7
(log entry 61). -/
opaque recordBytes : Nat → List Nat → List Byte
/-- What each domain of Table 13.1 draws of the fixed cost of Table 11.9, which the spec does not divide (R392; log entry 136). -/
opaque fixedShare : Nat → Nat
/-- The firmware bundle that the factory left in slot 0 (R400; log entry 10). -/
opaque factoryBundle : List Byte

/-! ## What the device derives at each power-on (R406) -/

/-- The device seed. -/
def deviceSeed : List Byte := puf pufHelper
/-- The value that HKDF-SHA-384 derives from the seed under an info string; no salt (log entry 131). -/
def derived (info : List Byte) : BitVec 384 := hkdf384 deviceSeed 0 info
/-- The identity key, an ECDSA P-384 private key. -/
def identityKey : BitVec 384 := keyOfA22 (derived identityInfo)
/-- The record key, for HMAC-SHA-384. -/
def recordKey : BitVec 384 := derived recordInfo
/-- The wrap key, for AES-256-GCM: the first 32 bytes derived. -/
def wrapKey : BitVec 256 := (derived wrapInfo).extractLsb' 128 256
/-- ECDSA P-384 signature by the identity key. -/
def identitySign (hash : BitVec 384) : List Byte := ecdsaSign identityKey hash

end Sys2Proof.Config
end

