-- ==== Sys2Proof/WellFormed.lean ====
section
/-! DEFINITION. What makes a command well formed: every unit it names exists (Table 1.6, Table 2.6, R343),
every instruction word carries its row's opcode in its row's slot (Tables 3.3, 3.4, 8.3), and every byte
string has the length its rule gives. -/

namespace Sys2Proof

/-- Opcode of slot A of an instruction word (R78, R79). -/
def opA (w : W64) : Nat := (w.extractLsb' 26 6).toNat
/-- Opcode of slot B. -/
def opB (w : W64) : Nat := (w.extractLsb' 58 6).toNat
/-- Opcode of an RVE instruction word (Table 8.2). -/
def opR (w : W64) : Nat := (w.extractLsb' 56 8).toNat

/-- Logical tiles (Table 1.6). -/
def tileOk (t : Nat) : Bool := t < 1536
/-- Root dies. -/
def rootOk (r : Nat) : Bool := r < 8
/-- Links. -/
def linkOk (n : Nat) : Bool := n < 24
/-- Ethernet ports. -/
def portOk (p : Nat) : Bool := p < 2
/-- Queue pairs (R343). -/
def qpOk (q : Nat) : Bool := q < 64

/-- Slot A word of tile `t` with opcode `op`. -/
def slotAOk (op t : Nat) (w : W64) : Bool := tileOk t && opA w == op
/-- Slot B word of tile `t` with opcode `op`. -/
def slotBOk (op t : Nat) (w : W64) : Bool := tileOk t && opB w == op
/-- RVE word of root die `r` with opcode `op`. -/
def rveOk (op r : Nat) (w : W64) : Bool := rootOk r && opR w == op

/-- The opcodes of Table 8.3; a word of another opcode, which is illegal (R241), comes with RVE NOP. -/
def rveTable : List Nat :=
  [0x00, 0x01, 0x02, 0x03, 0x04, 0x10, 0x11, 0x12, 0x13, 0x14, 0x15, 0x16, 0x20, 0x21, 0x22, 0x23, 0x24, 0x25, 0x26, 0x30,
    0x31, 0x32, 0x33, 0x40, 0x41, 0x42, 0x43, 0x44, 0x45, 0x46]

/-- KIND of a packet (Table 6.4). -/
def Packet.kind (p : Packet) : Nat := (p.hdr.extractLsb' 96 4).toNat

/-- A packet command names a die crossbar or 4, one of the ports of Table 6.1, and carries its own KIND
(Table 6.5); the payload is whole bytes up to 256 (R172). -/
def packetOk (kind d port : Nat) (p : Packet) : Bool :=
  d ≤ 4 && port < 29 && p.kind == kind && p.payload.length ≤ 256

/-- TYPE of a link flit (Table 9.3). -/
def LinkFlit.type (f : LinkFlit) : Nat := (f.ctrl.extractLsb' 24 2).toNat

/-- A link flit of TYPE `ty` on link `n`: 240 payload bytes, over at most two codewords of 544 symbols (R267, Table 9.2). One
of the reserved TYPE comes as an IDLE flit (R271). -/
def flitOk (ty n : Nat) (f : LinkFlit) : Bool :=
  linkOk n && (f.type == ty || (ty == 1 && f.type == 3)) && f.payload.length == 240 && decide (f.fec.length ≤ 2)
    && f.fec.all (fun c => c.errs.all (fun e => decide (e < 544)) && decide c.errs.Nodup)

/-- An ICP command comes over a port or the sideband; a tag is 16 bytes (R354). -/
def IcpCmd.ok (c : IcpCmd) : Bool :=
  c.via ≤ 3 && (match c.tag with
    | some t => t.length == 16
    | none => true) && c.spdm.all (fun d => decide (d.length ≤ 1152))

/-- Who issues exists. -/
def Issuer.ok : Issuer → Bool
  | .tile t => tileOk t
  | .rve r  => rootOk r

/-- A command that a sender can give. -/
def Instr.wf : Instr → Bool
  | .stagingWrite a _ | .registerWrite a _ => a % 8 == 0 && a < 2 ^ 48
  | .commitReq v => v.getLsbD 0
  | .commitAbort v => v.getLsbD 1
  | .commitApply | .tileImageCopyDone | .refEdge _ | .refTimeout | .runStopped => true
  | .permuteRoundDone r => rootOk r
  | .segmentStart | .dueCheck _ | .freeze | .release | .forcedRelease | .boundaryCheck _ => true
  | .clearingPointDecision _ | .clearingTilesCheck | .clearing | .clearingWaitLimit => true
  | .segmentEnd | .localReady | .waitRelease _ | .waitcGrant _ => true
  | .instructionFetch t => tileOk t
  | .nop t w => slotAOk 0x00 t w
  | .br t w => slotAOk 0x01 t w
  | .bcc t w => slotAOk 0x02 t w
  | .jr t w => slotAOk 0x03 t w
  | .call t w => slotAOk 0x04 t w
  | .loop t w => slotAOk 0x05 t w
  | .bound t w => slotAOk 0x06 t w
  | .alu t w => slotAOk 0x10 t w
  | .addi t w => slotAOk 0x11 t w
  | .andi t w => slotAOk 0x12 t w
  | .ori t w => slotAOk 0x13 t w
  | .xori t w => slotAOk 0x14 t w
  | .shi t w => slotAOk 0x15 t w
  | .mul t w => slotAOk 0x16 t w
  | .div t w => slotAOk 0x17 t w
  | .seti t w => slotAOk 0x18 t w
  | .movk t w => slotAOk 0x19 t w
  | .crr t w => slotAOk 0x1A t w
  | .crw t w => slotAOk 0x1B t w
  | .sig t w => slotAOk 0x20 t w
  | .sigR t w => slotAOk 0x21 t w
  | .wait t w => slotAOk 0x22 t w
  | .cons t w => slotAOk 0x23 t w
  | .waitc t w => slotAOk 0x24 t w
  | .read t w => slotAOk 0x25 t w
  | .sigi t w => slotAOk 0x26 t w
  | .fenceW t w => slotAOk 0x27 t w
  | .fetch t w => slotAOk 0x30 t w
  | .fqstat t w => slotAOk 0x31 t w
  | .slotBNop t w => slotBOk 0x00 t w
  | .lds t w => slotBOk 0x01 t w
  | .sts t w => slotBOk 0x02 t w
  | .ldv t w => slotBOk 0x03 t w
  | .stv t w => slotBOk 0x04 t w
  | .fill t w => slotBOk 0x06 t w
  | .copy t w => slotBOk 0x07 t w
  | .accw t w => slotBOk 0x08 t w
  | .varith t w => slotBOk 0x10 t w
  | .vfma t w => slotBOk 0x11 t w
  | .vcmp t w => slotBOk 0x12 t w
  | .vlogic t w => slotBOk 0x13 t w
  | .vsel t w => slotBOk 0x14 t w
  | .vcvt t w => slotBOk 0x15 t w
  | .vred t w => slotBOk 0x16 t w
  | .vperm t w => slotBOk 0x17 t w
  | .vbcast t w => slotBOk 0x18 t w
  | .vmovs t w => slotBOk 0x19 t w
  | .mld t w => slotBOk 0x30 t w
  | .mma t w => slotBOk 0x31 t w
  | .mdrain t w => slotBOk 0x32 t w
  | .mfq t w => slotBOk 0x33 t w
  | .storeGroupWrite t row => tileOk t && row < 49152
  | .memopComplete t => tileOk t
  | .bankOff t b | .bankWakeDone t b => tileOk t && b < 48
  | .fillerPassBegin t | .fillerEntryComplete t => tileOk t
  | .exchangeTransfer t e _ => tileOk t && e < 384
  | .switchTransfer d e _ => d < 4 && e < 61440
  | .writePacket d port p => packetOk 1 d port p
  | .writeAccPacket d port p => packetOk 2 d port p
  | .readReqPacket d port p => packetOk 3 d port p
  | .readRspPacket d port p => packetOk 4 d port p
  | .signalPacket d port p => packetOk 5 d port p
  | .accumPacket d port p => packetOk 6 d port p
  | .ackPacket d port p => packetOk 7 d port p
  | .reservePacket d port p => packetOk 8 d port p
  | .grantPacket d port p => packetOk 9 d port p
  | .creditReturn buf inst vc => buf < 8 && inst < 8192 && !(vc && buf == 4) && (vc || !(buf == 5 || buf == 7))
  | .landingBufferWrite t | .fetchDescriptorStart t | .fetchReadIssue t => tileOk t
  | .fetchDescriptorComplete t => tileOk t
  | .readTimeout t _ => tileOk t
  | .fenceRelease u | .sigRDepart u => u.ok
  | .refreshTick => true
  | .refresh r path => rootOk r && path < 34
  | .regionCheckEntry r i | .regionClose r i => rootOk r && i < 128
  | .regionReleaseComplete r i | .regionForceClose r i => rootOk r && i < 128
  | .rveNop r w => rootOk r && (opR w == 0x00 || !rveTable.contains (opR w))
  | .rveBr r w => rveOk 0x01 r w
  | .rveBcc r w => rveOk 0x02 r w
  | .rveEnd r w => rveOk 0x03 r w
  | .endWaitEntry r => rootOk r
  | .skip r w => rveOk 0x04 r w
  | .xop r w => rveOk 0x10 r w
  | .xaddi r w => rveOk 0x11 r w
  | .xseti r w => rveOk 0x12 r w
  | .xseth r w => rveOk 0x13 r w
  | .xld r w => rveOk 0x14 r w
  | .xst r w => rveOk 0x15 r w
  | .xfop r w => rveOk 0x16 r w
  | .zop r w => rveOk 0x20 r w
  | .zfma r w => rveOk 0x21 r w
  | .zun r w => rveOk 0x22 r w
  | .zbc r w => rveOk 0x23 r w
  | .zcmp r w => rveOk 0x24 r w
  | .zsel r w => rveOk 0x25 r w
  | .zred r w => rveOk 0x26 r w
  | .zld r w => rveOk 0x30 r w
  | .zst r w => rveOk 0x31 r w
  | .zldr r w => rveOk 0x32 r w
  | .rsend r w => rveOk 0x33 r w
  | .rveSig r w => rveOk 0x40 r w
  | .rveWait r w => rveOk 0x41 r w
  | .rveWaitc r w => rveOk 0x42 r w
  | .rveCons r w => rveOk 0x43 r w
  | .readc r w => rveOk 0x44 r w
  | .openRegion r w => rveOk 0x45 r w
  | .rveFence r w => rveOk 0x46 r w
  | .linkDataFlit n f => flitOk 0 n f
  | .linkIdleFlit n f => flitOk 1 n f
  | .replayReq n f => flitOk 2 n f
  | .replayReqResend n => linkOk n
  | .laneLossOfLock n pos => linkOk n && pos < 8
  | .trainingComplete n _ | .retrainComplete n _ => linkOk n
  | .laneSerWindow n counts => linkOk n && counts.length == 9
  | .checkpointComplete r => rootOk r
  | .markUnclean | .crownPollRound => true
  | .ethFrameReceive p _ => portOk p
  | .arpRequest p _ _ => portOk p
  | .neighborSolicitation p _ _ => portOk p
  | .icmpEcho p _ _ _ _ => portOk p
  | .ptpMessage p _ _ _ _ _ => portOk p
  | .rdmaWrite p q _ _ _ _ _ _ _ data => portOk p && qpOk q && data.length ≤ 4096
  | .rdmaRead p q _ _ _ _ _ => portOk p && qpOk q
  | .roceSend p q _ _ _ => portOk p && qpOk q
  | .roceAckReceive q _ _ | .rdmaReadResponse q _ _ | .rateRaiseTimer q => qpOk q
  | .cnpReceive x => qpOk x.q
  | .intakeLanding p => portOk p
  | .getInfo c | .getCapability c | .getState c | .getTime c => c.ok
  | .load c _ _ _ => c.ok
  | .arm c _ | .stop c _ => c.ok
  | .abort c | .unload c | .deviceReset c => c.ok
  | .chimeSet c _ _ _ _ _ _ => c.ok
  | .memRead c _ _ => c.ok
  | .memWrite c _ data => c.ok && data.length ≤ 1152
  | .qpConnect c _ _ _ _ _ _ => c.ok
  | .qpReset c _ => c.ok
  | .logRead c _ _ _ => c.ok
  | .health c => c.ok
  | .counterView c _ => c.ok
  | .physRead c _ _ _ _ _ => c.ok
  | .fwStageBegin c _ => c.ok
  | .fwStageData c _ data => c.ok && 1 ≤ data.length && data.length ≤ 1024
  | .fwVerify c => c.ok
  | .fwSchedule c _ => c.ok
  | .fwAbandon c | .fwStatus c => c.ok
  | .ownerEnrol c qO qE sn sc =>
    c.ok && qO.length == 97 && qE.length == 97 && sn.length == 96 && sc.length == 96
  | .ownerLock c => c.ok
  | .ownerRelease c _ sg => c.ok && sg.length == 96
  | .netSet c _ _ _ _ => c.ok
  | .powerGet c => c.ok
  | .budgetSet c _ => c.ok
  | .ceilingSet c _ _ => c.ok
  | .floorSet c _ => c.ok
  | .permute c _ _ _ _ => c.ok
  | .restore c _ _ _ _ => c.ok
  | .returnToService c _ _ => c.ok
  | .blockReset c _ _ => c.ok
  | .spdmGetVersion c | .spdmGetCapabilities c | .spdmGetDigests c => c.ok
  | .spdmNegotiateAlgorithms c _ _ => c.ok
  | .spdmGetCertificate c _ _ _ => c.ok
  | .spdmChallenge c _ _ => c.ok
  | .spdmGetMeasurements c _ _ _ => c.ok
  | .setEndpointId _ | .getEndpointId | .getMctpVersionSupport _ | .getMessageTypeSupport => true
  | .powerOnReset _ | .resetPin _ => true
  | .criticalStateReset b i => b < 16 && i < 4096
  | .commandReset | .watchdogReset => true
  | .domainRelease row _ | .pllLockTimeout row => row < 8
  | .resetStretchEnd | .firstStageVerify | .bootSettings | .bootMaps | .bootNet => true
  | .understoryCompare _ => true
  | .standbyEnter v => v.getLsbD 0
  | .standbyPowerOff | .wakePin _ | .tripClear _ | .rtcAlarm | .rtcSet _ => true
  | .regulatorSample _ core ring => core.length == 12 && ring.length == 4
  | .droop src | .droopHoldExpire src => src < 12
  | .fwActivation => true
  | .linkFlitSend n => linkOk n
  | .holdAccounting => true
  | .farEndRetrain n => linkOk n
  | .pcsLockChange p _ => portOk p
  | .auxPowerGood | .resetNRelease _ => true
  | .periodicInterfaceTraining r path _ => rootOk r && path < 34
  | .ieee1149Access _ => true

/-! ## The units a command names -/

/-- A unit of the device by its number (Tables 1.6, 2.6, 6.1, 13.4, 13.14). -/
inductive UnitRef where
  | tile (t : Nat)
  | bank (b : Nat)
  | spRow (g : Nat)
  | exchange (e : Nat)
  | tileDie (d : Nat)
  | switch (e : Nat)
  | crossbar (d : Nat)
  | port (n : Nat)
  | buffer (b : Nat)
  | issuer (u : Issuer)
  | root (r : Nat)
  | path (p : Nat)
  | region (i : Nat)
  | link (n : Nat)
  | lane (l : Nat)
  | domain (row : Nat)
  | domainSrc (src : Nat)
  | ethPort (p : Nat)
  | queuePair (q : Nat)
  deriving DecidableEq, Repr

/-- The device has the unit. -/
def UnitRef.present : UnitRef → Bool
  | .tile t => tileOk t
  | .bank b => b < 48
  | .spRow g => g < 49152
  | .exchange e => e < 384
  | .tileDie d => d < 4
  | .switch e => e < 61440
  | .crossbar d => d ≤ 4
  | .port n => n < 29
  | .buffer b => b < 8
  | .issuer u => u.ok
  | .root r => rootOk r
  | .path p => p < 34
  | .region i => i < 128
  | .link n => linkOk n
  | .lane l => l < 8
  | .domain row => row < 8
  | .domainSrc src => src < 12
  | .ethPort p => portOk p
  | .queuePair q => qpOk q

/-- The units that a command names. -/
def Instr.units : Instr → List UnitRef
  | .stagingWrite _ _ | .registerWrite _ _ | .commitReq _ | .commitAbort _ | .commitApply | .tileImageCopyDone
  | .refEdge _ | .refTimeout | .runStopped | .segmentStart | .dueCheck _ | .freeze | .release | .forcedRelease
  | .boundaryCheck _ | .clearingPointDecision _ | .clearingTilesCheck | .clearing | .clearingWaitLimit
  | .segmentEnd | .localReady | .waitRelease _ | .waitcGrant _ | .refreshTick | .markUnclean | .crownPollRound
  | .getInfo _ | .getCapability _ | .getState _ | .getTime _ | .load _ _ _ _ | .arm _ _ | .stop _ _ | .abort _
  | .unload _ | .deviceReset _ | .chimeSet _ _ _ _ _ _ _ | .memRead _ _ _ | .memWrite _ _ _
  | .qpConnect _ _ _ _ _ _ _ | .qpReset _ _ | .logRead _ _ _ _ | .health _ | .counterView _ _
  | .physRead _ _ _ _ _ _ | .fwStageBegin _ _ | .fwStageData _ _ _ | .fwVerify _ | .fwSchedule _ _ | .fwAbandon _
  | .fwStatus _ | .ownerEnrol _ _ _ _ _ | .ownerLock _ | .ownerRelease _ _ _ | .netSet _ _ _ _ _ | .powerGet _
  | .budgetSet _ _ | .ceilingSet _ _ _ | .floorSet _ _ | .permute _ _ _ _ _ | .restore _ _ _ _ _
  | .returnToService _ _ _ | .blockReset _ _ _ | .spdmGetVersion _ | .spdmGetCapabilities _
  | .spdmNegotiateAlgorithms _ _ _ | .spdmGetDigests _ | .spdmGetCertificate _ _ _ _ | .spdmChallenge _ _ _
  | .spdmGetMeasurements _ _ _ _ | .setEndpointId _ | .getEndpointId | .getMctpVersionSupport _
  | .getMessageTypeSupport | .powerOnReset _ | .resetPin _ | .criticalStateReset _ _ | .commandReset
  | .watchdogReset | .resetStretchEnd | .firstStageVerify | .bootSettings | .bootMaps | .bootNet
  | .understoryCompare _ | .standbyEnter _ | .standbyPowerOff | .wakePin _ | .tripClear _ | .rtcAlarm | .rtcSet _
  | .regulatorSample _ _ _ | .fwActivation | .holdAccounting | .auxPowerGood | .resetNRelease _ | .ieee1149Access _ => []
  | .permuteRoundDone r | .rveNop r _ | .rveBr r _ | .rveBcc r _ | .rveEnd r _ | .endWaitEntry r | .skip r _
  | .xop r _ | .xaddi r _ | .xseti r _ | .xseth r _ | .xld r _ | .xst r _ | .xfop r _ | .zop r _ | .zfma r _
  | .zun r _ | .zbc r _ | .zcmp r _ | .zsel r _ | .zred r _ | .zld r _ | .zst r _ | .zldr r _ | .rsend r _
  | .rveSig r _ | .rveWait r _ | .rveWaitc r _ | .rveCons r _ | .readc r _ | .openRegion r _ | .rveFence r _
  | .checkpointComplete r => [.root r]
  | .instructionFetch t | .nop t _ | .br t _ | .bcc t _ | .jr t _ | .call t _ | .loop t _ | .bound t _ | .alu t _
  | .addi t _ | .andi t _ | .ori t _ | .xori t _ | .shi t _ | .mul t _ | .div t _ | .seti t _ | .movk t _
  | .crr t _ | .crw t _ | .sig t _ | .sigR t _ | .wait t _ | .cons t _ | .waitc t _ | .read t _ | .sigi t _
  | .fenceW t _ | .fetch t _ | .fqstat t _ | .slotBNop t _ | .lds t _ | .sts t _ | .ldv t _ | .stv t _ | .fill t _
  | .copy t _ | .accw t _ | .varith t _ | .vfma t _ | .vcmp t _ | .vlogic t _ | .vsel t _ | .vcvt t _ | .vred t _
  | .vperm t _ | .vbcast t _ | .vmovs t _ | .mld t _ | .mma t _ | .mdrain t _ | .mfq t _ | .memopComplete t
  | .fillerPassBegin t | .fillerEntryComplete t | .landingBufferWrite t | .fetchDescriptorStart t
  | .fetchReadIssue t | .fetchDescriptorComplete t | .readTimeout t _ => [.tile t]
  | .storeGroupWrite t row => [.tile t, .spRow row]
  | .bankOff t b | .bankWakeDone t b => [.tile t, .bank b]
  | .exchangeTransfer t e _ => [.tile t, .exchange e]
  | .switchTransfer d e _ => [.tileDie d, .switch e]
  | .writePacket d port _ | .writeAccPacket d port _ | .readReqPacket d port _ | .readRspPacket d port _
  | .signalPacket d port _ | .accumPacket d port _ | .ackPacket d port _ | .reservePacket d port _
  | .grantPacket d port _ => [.crossbar d, .port port]
  | .creditReturn buf _ _ => [.buffer buf]
  | .fenceRelease u | .sigRDepart u => [.issuer u]
  | .refresh r path | .periodicInterfaceTraining r path _ => [.root r, .path path]
  | .regionCheckEntry r i | .regionClose r i | .regionReleaseComplete r i | .regionForceClose r i => [.root r, .region i]
  | .linkDataFlit n _ | .linkIdleFlit n _ | .replayReq n _ | .replayReqResend n | .trainingComplete n _
  | .retrainComplete n _ | .laneSerWindow n _ | .linkFlitSend n | .farEndRetrain n => [.link n]
  | .laneLossOfLock n pos => [.link n, .lane pos]
  | .ethFrameReceive p _ | .arpRequest p _ _ | .neighborSolicitation p _ _ | .icmpEcho p _ _ _ _
  | .ptpMessage p _ _ _ _ _ | .intakeLanding p | .pcsLockChange p _ => [.ethPort p]
  | .rdmaWrite p q _ _ _ _ _ _ _ _ | .rdmaRead p q _ _ _ _ _ | .roceSend p q _ _ _ => [.ethPort p, .queuePair q]
  | .roceAckReceive q _ _ | .rdmaReadResponse q _ _ | .rateRaiseTimer q => [.queuePair q]
  | .cnpReceive x => [.queuePair x.q]
  | .domainRelease row _ | .pllLockTimeout row => [.domain row]
  | .droop src | .droopHoldExpire src => [.domainSrc src]

end Sys2Proof
end

