-- ==== Sys2Proof/Machine/Packet.lean ====
section
/-! DEFINITION. Packets (R172, R173, Table 6.4): reading and forming the header flit and its CHECK. -/

namespace Sys2Proof

namespace Machine

/-! ## CRC (R173, R268) -/

/-- One bit of a reflected CRC. -/
def crcBit (poly c : Nat) : Nat := if c % 2 = 1 then (c / 2) ^^^ poly else c / 2

/-- One byte of a reflected CRC. -/
def crcByte (poly c : Nat) (b : Byte) : Nat :=
  let p := crcBit poly
  p (p (p (p (p (p (p (p (c ^^^ b.toNat))))))))

/-- Reflected CRC of 32 bits with all-ones start and final complement. -/
def crc32With (poly : Nat) (l : List Byte) : Nat := (l.foldl (crcByte poly) 0xFFFFFFFF) ^^^ 0xFFFFFFFF

/-- CRC-32C (Castagnoli). -/
def crc32c (l : List Byte) : Nat := crc32With 0x82F63B78 l
/-- CRC-32 (R268). -/
def crc32 (l : List Byte) : Nat := crc32With 0xEDB88320 l

end Machine

open Machine

/-! ## Packets (Table 6.4) -/

/-- Bits [hi:lo] of byte `b` onwards of the header. -/
def Packet.h (p : Packet) (b hi lo : Nat) : Nat := bits p.hdr.toNat (b * 8 + hi) (b * 8 + lo)

def Packet.dest (p : Packet) : Nat := p.h 0 63 0
def Packet.destDev (p : Packet) : Nat := p.h 0 62 48
def Packet.destAddr (p : Packet) : Nat := p.h 0 47 0
def Packet.srcUnit (p : Packet) : Nat := p.h 8 15 0
def Packet.srcDev (p : Packet) : Nat := p.h 10 14 0
def Packet.rel (p : Packet) : Bool := p.h 12 4 4 == 1
def Packet.mc (p : Packet) : Bool := p.h 12 5 5 == 1
def Packet.vc (p : Packet) : Nat := p.h 12 6 6
def Packet.stype (p : Packet) : Nat := p.h 13 3 0
def Packet.dtype (p : Packet) : Nat := p.h 13 7 4
def Packet.len (p : Packet) : Nat := p.h 14 8 0
def Packet.cref (p : Packet) : Nat := p.h 16 31 0
def Packet.n (p : Packet) : Nat := p.h 20 31 0
def Packet.tag (p : Packet) : Nat := p.h 24 15 0
def Packet.status (p : Packet) : Nat := p.h 26 7 0
def Packet.check (p : Packet) : Nat := p.h 28 31 0

/-- Header bytes 0 to 27 and the payload. -/
def Packet.checked (p : Packet) : List Byte := toBytes p.hdr.toNat 28 ++ p.payload

/-- CHECK holds (R179). -/
def Packet.checkOk (p : Packet) : Bool := crc32c p.checked == p.check

/-- Flits of a packet (R172). -/
def Packet.flits (p : Packet) : Nat := 1 + (p.payload.length + 31) / 32

namespace Machine

/-- The fields of a packet before CHECK is formed. -/
structure PacketSpec where
  dest    : Nat
  unit    : Nat
  dev     : Nat
  kind    : Nat
  rel     : Bool := false
  mc      : Bool := false
  vc      : Nat := 0
  stype   : Nat := 0
  dtype   : Nat := 0
  len     : Nat := 0
  cref    : Nat := 0
  n       : Nat := 0
  tag     : Nat := 0
  status  : Nat := 0
  payload : List Byte := []

/-- Header bytes 0 to 27 of a packet. -/
def PacketSpec.low (x : PacketSpec) : Nat :=
  x.dest % 2 ^ 64 + x.unit % 2 ^ 16 * 2 ^ 64 + x.dev % 2 ^ 15 * 2 ^ 80 + x.kind % 16 * 2 ^ 96
    + b2n x.rel * 2 ^ 100 + b2n x.mc * 2 ^ 101 + x.vc % 2 * 2 ^ 102
    + x.stype % 16 * 2 ^ 104 + x.dtype % 16 * 2 ^ 108 + x.len % 512 * 2 ^ 112
    + x.cref % 2 ^ 32 * 2 ^ 128 + x.n % 2 ^ 32 * 2 ^ 160 + x.tag % 2 ^ 16 * 2 ^ 192 + x.status % 256 * 2 ^ 208

/-- Form a packet with its CHECK (Table 6.4). -/
def mkPacket (x : PacketSpec) : Packet :=
  { hdr := BitVec.ofNat 256 (x.low + crc32c (toBytes x.low 28 ++ x.payload) * 2 ^ 224), payload := x.payload }

end Machine
end Sys2Proof
end

