-- ==== Sys2Proof/Machine/RegDefs.lean ====
section
/-! DEFINITION. The register tables of spec/ as data: every register of the live view (R27), its block, offset,
staging and fields (R5, R434). The words above 64 bits of a register are its further 8-byte words. -/

namespace Sys2Proof.Machine

/-- The register blocks of Table 1.8. `spr` is the row map of a physical tile (R123), which its logical
tile's SP_ block shows. -/
inductive Block where
  | tl | sp | mx | xt | syt | xd | es | syd | rt | lk | en | pw | rs | sc | spr
  deriving DecidableEq, Repr

/-- Base of a block in the live view (Table 1.8); `spr` has a key of its own, outside the view. -/
def Block.base : Block → Nat
  | .tl => 0x00F000000000
  | .sp => 0x00F000002000
  | .mx => 0x00F000004000
  | .xt => 0x00F000006000
  | .syt => 0x00F000008000
  | .xd => 0x00F100000000
  | .es => 0x00F200000000
  | .syd => 0x00F200100000
  | .rt => 0x00F300000000
  | .lk => 0x00F400000000
  | .en => 0x00F500000000
  | .pw => 0x00F610000000
  | .rs => 0x00F620000000
  | .sc => 0x00F630000000
  | .spr => 0x010000000000

/-- Stride of a block's instances (Table 1.8). -/
def Block.stride : Block → Nat
  | .tl | .sp | .mx | .xt | .syt => 0x10000
  | .xd => 0x100000
  | .rt => 0x1000000
  | .lk => 0x10000
  | .en => 0x100000
  | .spr => 0x1000
  | _ => 0

/-- How a field is accessed (Table 0.5). -/
inductive Access where
  | ro | rw | rws | w1c | wo
  deriving DecidableEq, Repr

/-- A field of a register: the place of its 8-byte word in the block, its bits in that word, its reset value. -/
structure RegField where
  block  : Block
  /-- Offset in the block of the field's word, for index 0. -/
  off    : Nat
  /-- Distance from one index to the next. -/
  stride : Nat
  lo     : Nat
  width  : Nat
  acc    : Access
  reset  : Nat
  deriving DecidableEq, Repr

/-- The registers of the live view. -/
inductive RegName where
  | TL_ID
  | TL_PC
  | TL_ENTRY
  | TL_STATUS
  | TL_CYCLE
  | TL_BEAT
  | TL_LOOP
  | TL_ERR_STATUS
  | TL_ERR_PC
  | TL_ERR_INFO
  | TL_ERR_WHEN
  | TL_ERR_COUNT
  | TL_PERF_ISSUE
  | TL_PERF_INTERLOCK
  | TL_PERF_SYNC
  | TL_PERF_QUEUE
  | TL_PERF_BOUND
  | TL_SREG
  | TL_VREG
  | SP_CFG
  | SP_BANKMASK
  | SP_BANKSTATE
  | SP_BANKWAKE
  | SP_ERR
  | SP_ERR_WHEN
  | SP_ERR_COUNT
  | SP_MEMOP
  | SP_ROWERR
  | SP_ROWERR_OVF
  | SP_PERF_MERGE
  | SP_PERF_XWAIT
  | SP_ROWMAP_LO
  | SP_ROWMAP_HI
  | MX_SR_SEED
  | MX_SR_STEP
  | MX_STATUS
  | MX_ERR
  | MX_ERR_WHEN
  | MX_ERR_COUNT
  | MX_SR_DRAWS
  | MX_PERF_BUSY
  | MX_PERF_FILL
  | MX_PERF_MAC
  | XC_XP_CFG
  | XC_FE_CFG
  | XC_FE_STATUS
  | XC_FE_ERR
  | XC_FE_ERR_ADDR
  | XC_FE_ERR_WHEN
  | XC_FE_ERR_COUNT
  | XC_PERF_XSEND
  | XC_PERF_XRECV
  | XC_PERF_PBYTES
  | XC_PERF_CWAIT
  | XC_XPE
  | SY_CNT_S
  | SY_CNT_C
  | SY_CNT_VAL
  | SY_CNT_WAIT
  | SY_CNT_LAST
  | SY_CNT_LASTBEAT
  | SY_ERR
  | XC_XB_CFG
  | XC_XB_STATUS
  | XC_XB_ERR
  | XC_ROWMAP
  | XC_XSE
  | ES_BEAT_CFG
  | ES_BEAT_INIT
  | ES_REF_CFG
  | ES_BEAT_NUM
  | ES_BEAT_STATUS
  | ES_MISSED_EDGES
  | ES_COMMIT_CTRL
  | ES_COMMIT_BEAT
  | ES_CFG_STATUS
  | ES_CFG_FAULTADDR
  | ES_COMMIT_COUNT
  | ES_HOLD_CFG
  | ES_HOLD_CNT
  | ES_HOLD_BEAT
  | ES_HOLD_STATUS
  | ES_CLEAR_CFG
  | ES_SYSCLR_BASE
  | ES_CLEAR_LAST
  | ES_CLEAR_INFO
  | ES_CLEAR_MISS
  | ES_QUIET
  | ES_STEP_CFG
  | ES_STEP_BASE
  | ES_STEP_NUM
  | ES_STEP_STATUS
  | ES_STEP_NEXT
  | ES_STEP_COUNT
  | ES_STEP_CTRL
  | ES_INPUT_CFG
  | ES_INPUT_LANDED
  | ES_JOB_STATUS
  | ES_JOB_WHERE
  | ES_JOB_INFO
  | ES_JOB_HASH
  | SYD_CNT_S
  | SYD_CNT_C
  | SYD_CNT_VAL
  | SYD_CNT_WAIT
  | SYD_CNT_LAST
  | SYD_CNT_LASTBEAT
  | SYD_ERR
  | RT_DRAM_CFG
  | RT_PCMAP
  | RT_PC_HEALTH
  | RT_REFWIN
  | RT_REF_STATUS
  | RT_DRAM_ERR
  | RT_DRAM_ERR_ADDR
  | RT_DRAM_CE_COUNT
  | RT_ACC_CE_COUNT
  | RT_WRAISE
  | RT_WPOLICY
  | RT_CKPT_CFG
  | RT_CKPT_PEER
  | RT_CKPT_GROUP
  | RT_CKPT_HOST
  | RT_CKPT_HOSTADDR
  | RT_ACC_CFG
  | RT_PIPEMAP
  | RT_PIPE_HEALTH
  | RT_ACC_ERR
  | RT_ACC_ERR_ADDR
  | RT_ACC_ERR_WHEN
  | RT_PIPE_MISMATCH
  | RT_STEP_STATUS
  | RT_CKPT_AREA
  | RT_CKPT_SET
  | RT_CKPT_STATUS
  | RT_RGN_CFG
  | RT_RGN_STAT
  | RT_RGN_EXPECT
  | RT_RGN_RES
  | RT_RGN_OPENBEAT
  | RT_RGN_OUT
  | RT_RGN_DONE
  | RT_STOREMAP
  | RT_CNT_S
  | RT_CNT_C
  | RT_CNT_VAL
  | RT_CNT_WAIT
  | RT_CNT_LAST
  | RT_CNT_LASTBEAT
  | RT_SY_ERR
  | LK_CFG
  | LK_LANEMAP
  | LK_LANE_CFG
  | LK_STATUS
  | LK_FAR
  | LK_LANE_HEALTH
  | LK_HOPLAT
  | LK_ERR
  | LK_ERR_WHEN
  | LK_CNT_UNCORR
  | LK_CNT_CRC
  | LK_CNT_REPLAY
  | LK_CNT_TXDATA
  | LK_CNT_RXDATA
  | LK_CNT_CWAIT
  | LK_LANE_SER
  | LK_TOPO
  | LK_DIMSIZE
  | LK_ALIAS
  | EN_PORT_STATUS
  | EN_CNT_RXFRAME
  | EN_CNT_RXDROP
  | EN_CNT_FEC_CORR
  | EN_CNT_FEC_UNCORR
  | EN_CNT_INTAKE_DROP
  | EN_CNT_INTAKE_BYTES
  | EN_CNT_CNP_TX
  | EN_CNT_CNP_RX
  | EN_CNT_ICP
  | EN_CNT_NOTCMD
  | EN_WIN
  | PW_BUDGET
  | PW_CEIL
  | PW_FLOOR
  | PW_STATUS
  | PW_POWER
  | PW_TEMP
  | PW_SWALLOW
  | PW_ERR
  | RS_CAUSE
  | RS_CAUSE_BEAT
  | RS_STRAPS
  | RS_BOOT
  | RS_QUIET_ROWS
  | RS_QUIET_OTHER
  | RS_US_STATUS
  | RS_RTC
  | RS_RTC_ALARM
  | RS_STANDBY
  | RS_WDOG
  | SC_FW_STATUS
  | SC_FW_SCHED
  | SC_MEAS
  | SC_RPMC
  deriving DecidableEq, Repr

/-- One register of the live view. -/
structure RegInfo where
  name   : RegName
  block  : Block
  off    : Nat
  /-- How many of them the block holds. -/
  count  : Nat
  stride : Nat
  /-- 8-byte words of one of them. -/
  words  : Nat
  /-- "staged, run-locked" in its header line (R32). -/
  locked : Bool
  /-- Only instance 0 of the block holds it. -/
  only0  : Bool
  fields : List RegField
  deriving DecidableEq, Repr

/-! ## Fields -/

namespace F

/-- TL_ID.DEVICE (Table 3.8). -/
def TL_ID_DEVICE : RegField := ⟨.tl, 0x0, 8, 48, 15, .ro, 0x0⟩
/-- TL_ID.STEPPING (Table 3.8). -/
def TL_ID_STEPPING : RegField := ⟨.tl, 0x0, 8, 36, 4, .ro, 0x0⟩
/-- TL_ID.PROFILE (Table 3.8). -/
def TL_ID_PROFILE : RegField := ⟨.tl, 0x0, 8, 32, 4, .ro, 0x0⟩
/-- TL_ID.PHYS (Table 3.8). -/
def TL_ID_PHYS : RegField := ⟨.tl, 0x0, 8, 16, 5, .ro, 0x0⟩
/-- TL_ID.TILE (Table 3.8). -/
def TL_ID_TILE : RegField := ⟨.tl, 0x0, 8, 0, 11, .ro, 0x0⟩
/-- TL_PC.PC (Table 3.9). -/
def TL_PC_PC : RegField := ⟨.tl, 0x8, 8, 0, 18, .ro, 0x0⟩
/-- TL_ENTRY.ENTRY (Table 3.10). -/
def TL_ENTRY_ENTRY : RegField := ⟨.tl, 0x10, 8, 0, 18, .rws, 0x0⟩
/-- TL_STATUS.SSTEP (Table 3.11). -/
def TL_STATUS_SSTEP : RegField := ⟨.tl, 0x18, 8, 32, 16, .ro, 0x0⟩
/-- TL_STATUS.LOOP (Table 3.11). -/
def TL_STATUS_LOOP : RegField := ⟨.tl, 0x18, 8, 5, 1, .ro, 0x0⟩
/-- TL_STATUS.UNCLEAN (Table 3.11). -/
def TL_STATUS_UNCLEAN : RegField := ⟨.tl, 0x18, 8, 4, 1, .ro, 0x0⟩
/-- TL_STATUS.STATE (Table 3.11). -/
def TL_STATUS_STATE : RegField := ⟨.tl, 0x18, 8, 0, 3, .ro, 0x0⟩
/-- TL_CYCLE.CYCLE (Table 3.12). -/
def TL_CYCLE_CYCLE : RegField := ⟨.tl, 0x20, 8, 0, 32, .ro, 0x0⟩
/-- TL_BEAT.BEAT (Table 3.12). -/
def TL_BEAT_BEAT : RegField := ⟨.tl, 0x28, 8, 0, 64, .ro, 0x0⟩
/-- TL_LOOP.LEN (Table 3.13). -/
def TL_LOOP_LEN : RegField := ⟨.tl, 0x30, 8, 32, 7, .ro, 0x0⟩
/-- TL_LOOP.REMAIN (Table 3.13). -/
def TL_LOOP_REMAIN : RegField := ⟨.tl, 0x30, 8, 0, 32, .ro, 0x0⟩
/-- TL_ERR_STATUS.VALID (Table 3.14). -/
def TL_ERR_STATUS_VALID : RegField := ⟨.tl, 0x40, 8, 63, 1, .w1c, 0x0⟩
/-- TL_ERR_STATUS.MORE (Table 3.14). -/
def TL_ERR_STATUS_MORE : RegField := ⟨.tl, 0x40, 8, 62, 1, .w1c, 0x0⟩
/-- TL_ERR_STATUS.CODE (Table 3.14). -/
def TL_ERR_STATUS_CODE : RegField := ⟨.tl, 0x40, 8, 48, 8, .ro, 0x0⟩
/-- TL_ERR_STATUS.SLOT (Table 3.14). -/
def TL_ERR_STATUS_SLOT : RegField := ⟨.tl, 0x40, 8, 40, 1, .ro, 0x0⟩
/-- TL_ERR_STATUS.SLOTWORD (Table 3.14). -/
def TL_ERR_STATUS_SLOTWORD : RegField := ⟨.tl, 0x40, 8, 0, 32, .ro, 0x0⟩
/-- TL_ERR_PC.PC (Table 3.15). -/
def TL_ERR_PC_PC : RegField := ⟨.tl, 0x48, 8, 0, 18, .ro, 0x0⟩
/-- TL_ERR_INFO.INFO (Table 3.15). -/
def TL_ERR_INFO_INFO : RegField := ⟨.tl, 0x50, 8, 0, 64, .ro, 0x0⟩
/-- TL_ERR_WHEN.BEAT (Table 3.15). -/
def TL_ERR_WHEN_BEAT : RegField := ⟨.tl, 0x58, 8, 32, 32, .ro, 0x0⟩
/-- TL_ERR_WHEN.CYCLE (Table 3.15). -/
def TL_ERR_WHEN_CYCLE : RegField := ⟨.tl, 0x58, 8, 0, 32, .ro, 0x0⟩
/-- TL_ERR_COUNT.COUNT (Table 3.15). -/
def TL_ERR_COUNT_COUNT : RegField := ⟨.tl, 0x60, 8, 0, 32, .ro, 0x0⟩
/-- TL_PERF_ISSUE.COUNT (Table 3.15). -/
def TL_PERF_ISSUE_COUNT : RegField := ⟨.tl, 0x80, 8, 0, 64, .ro, 0x0⟩
/-- TL_PERF_INTERLOCK.COUNT (Table 3.15). -/
def TL_PERF_INTERLOCK_COUNT : RegField := ⟨.tl, 0x88, 8, 0, 64, .ro, 0x0⟩
/-- TL_PERF_SYNC.COUNT (Table 3.15). -/
def TL_PERF_SYNC_COUNT : RegField := ⟨.tl, 0x90, 8, 0, 64, .ro, 0x0⟩
/-- TL_PERF_QUEUE.COUNT (Table 3.15). -/
def TL_PERF_QUEUE_COUNT : RegField := ⟨.tl, 0x98, 8, 0, 64, .ro, 0x0⟩
/-- TL_PERF_BOUND.COUNT (Table 3.15). -/
def TL_PERF_BOUND_COUNT : RegField := ⟨.tl, 0xA0, 8, 0, 64, .ro, 0x0⟩
/-- TL_SREG.VALUE (Table 3.16). -/
def TL_SREG_VALUE : RegField := ⟨.tl, 0x400, 8, 0, 64, .ro, 0x0⟩
/-- TL_VREG.VALUE (Table 3.16). -/
def TL_VREG_VALUE : RegField := ⟨.tl, 0x800, 64, 0, 64, .ro, 0x0⟩
/-- SP_CFG.MODE (Table 4.5). -/
def SP_CFG_MODE : RegField := ⟨.sp, 0x0, 8, 0, 1, .rws, 0x0⟩
/-- SP_BANKMASK.MASK (Table 4.6). -/
def SP_BANKMASK_MASK : RegField := ⟨.sp, 0x8, 8, 0, 48, .rws, 0xFFFFFFFFFFFF⟩
/-- SP_BANKSTATE.ON (Table 4.7). -/
def SP_BANKSTATE_ON : RegField := ⟨.sp, 0x10, 8, 0, 48, .ro, 0xFFFFFFFFFFFF⟩
/-- SP_BANKWAKE.WAKING (Table 4.7). -/
def SP_BANKWAKE_WAKING : RegField := ⟨.sp, 0x18, 8, 0, 48, .ro, 0x0⟩
/-- SP_ERR.VALID (Table 4.8). -/
def SP_ERR_VALID : RegField := ⟨.sp, 0x20, 8, 63, 1, .w1c, 0x0⟩
/-- SP_ERR.MORE (Table 4.8). -/
def SP_ERR_MORE : RegField := ⟨.sp, 0x20, 8, 62, 1, .w1c, 0x0⟩
/-- SP_ERR.CODE (Table 4.8). -/
def SP_ERR_CODE : RegField := ⟨.sp, 0x20, 8, 52, 4, .ro, 0x0⟩
/-- SP_ERR.KIND (Table 4.8). -/
def SP_ERR_KIND : RegField := ⟨.sp, 0x20, 8, 48, 4, .ro, 0x0⟩
/-- SP_ERR.OFFSET (Table 4.8). -/
def SP_ERR_OFFSET : RegField := ⟨.sp, 0x20, 8, 24, 21, .ro, 0x0⟩
/-- SP_ERR.BANK (Table 4.8). -/
def SP_ERR_BANK : RegField := ⟨.sp, 0x20, 8, 16, 6, .ro, 0x0⟩
/-- SP_ERR.ROW (Table 4.8). -/
def SP_ERR_ROW : RegField := ⟨.sp, 0x20, 8, 0, 10, .ro, 0x0⟩
/-- SP_ERR_WHEN.BEAT (Table 4.9). -/
def SP_ERR_WHEN_BEAT : RegField := ⟨.sp, 0x28, 8, 32, 32, .ro, 0x0⟩
/-- SP_ERR_WHEN.CYCLE (Table 4.9). -/
def SP_ERR_WHEN_CYCLE : RegField := ⟨.sp, 0x28, 8, 0, 32, .ro, 0x0⟩
/-- SP_ERR_COUNT.COUNT (Table 4.9). -/
def SP_ERR_COUNT_COUNT : RegField := ⟨.sp, 0x30, 8, 0, 32, .ro, 0x0⟩
/-- SP_MEMOP.OUTSTANDING (Table 4.10). -/
def SP_MEMOP_OUTSTANDING : RegField := ⟨.sp, 0x38, 8, 0, 3, .ro, 0x0⟩
/-- SP_ROWERR.VALID (Table 4.11). -/
def SP_ROWERR_VALID : RegField := ⟨.sp, 0x40, 8, 63, 1, .w1c, 0x0⟩
/-- SP_ROWERR.COUNT (Table 4.11). -/
def SP_ROWERR_COUNT : RegField := ⟨.sp, 0x40, 8, 32, 16, .ro, 0x0⟩
/-- SP_ROWERR.BANK (Table 4.11). -/
def SP_ROWERR_BANK : RegField := ⟨.sp, 0x40, 8, 16, 6, .ro, 0x0⟩
/-- SP_ROWERR.ROW (Table 4.11). -/
def SP_ROWERR_ROW : RegField := ⟨.sp, 0x40, 8, 0, 10, .ro, 0x0⟩
/-- SP_ROWERR_OVF.COUNT (Table 4.10). -/
def SP_ROWERR_OVF_COUNT : RegField := ⟨.sp, 0x60, 8, 0, 32, .ro, 0x0⟩
/-- SP_PERF_MERGE.COUNT (Table 4.10). -/
def SP_PERF_MERGE_COUNT : RegField := ⟨.sp, 0x68, 8, 0, 64, .ro, 0x0⟩
/-- SP_PERF_XWAIT.COUNT (Table 4.10). -/
def SP_PERF_XWAIT_COUNT : RegField := ⟨.sp, 0x70, 8, 0, 64, .ro, 0x0⟩
/-- SP_ROWMAP_LO.ENTRY3 (Table 4.12). -/
def SP_ROWMAP_LO_ENTRY3 : RegField := ⟨.spr, 0x100, 16, 48, 16, .rws, 0x0⟩
/-- SP_ROWMAP_LO.ENTRY2 (Table 4.12). -/
def SP_ROWMAP_LO_ENTRY2 : RegField := ⟨.spr, 0x100, 16, 32, 16, .rws, 0x0⟩
/-- SP_ROWMAP_LO.ENTRY1 (Table 4.12). -/
def SP_ROWMAP_LO_ENTRY1 : RegField := ⟨.spr, 0x100, 16, 16, 16, .rws, 0x0⟩
/-- SP_ROWMAP_LO.ENTRY0 (Table 4.12). -/
def SP_ROWMAP_LO_ENTRY0 : RegField := ⟨.spr, 0x100, 16, 0, 16, .rws, 0x0⟩
/-- SP_ROWMAP_HI.ENTRY7 (Table 4.12). -/
def SP_ROWMAP_HI_ENTRY7 : RegField := ⟨.spr, 0x108, 16, 48, 16, .rws, 0x0⟩
/-- SP_ROWMAP_HI.ENTRY6 (Table 4.12). -/
def SP_ROWMAP_HI_ENTRY6 : RegField := ⟨.spr, 0x108, 16, 32, 16, .rws, 0x0⟩
/-- SP_ROWMAP_HI.ENTRY5 (Table 4.12). -/
def SP_ROWMAP_HI_ENTRY5 : RegField := ⟨.spr, 0x108, 16, 16, 16, .rws, 0x0⟩
/-- SP_ROWMAP_HI.ENTRY4 (Table 4.12). -/
def SP_ROWMAP_HI_ENTRY4 : RegField := ⟨.spr, 0x108, 16, 0, 16, .rws, 0x0⟩
/-- MX_SR_SEED.SEED (Table 5.7). -/
def MX_SR_SEED_SEED : RegField := ⟨.mx, 0x0, 8, 0, 64, .rws, 0x0⟩
/-- MX_SR_STEP.STEP (Table 5.8). -/
def MX_SR_STEP_STEP : RegField := ⟨.mx, 0x8, 8, 0, 48, .ro, 0x0⟩
/-- MX_STATUS.NONFINITE (Table 5.9). -/
def MX_STATUS_NONFINITE : RegField := ⟨.mx, 0x10, 8, 63, 1, .w1c, 0x0⟩
/-- MX_STATUS.MMA_OUT (Table 5.9). -/
def MX_STATUS_MMA_OUT : RegField := ⟨.mx, 0x10, 8, 18, 2, .ro, 0x0⟩
/-- MX_STATUS.ACC1_KIND (Table 5.9). -/
def MX_STATUS_ACC1_KIND : RegField := ⟨.mx, 0x10, 8, 16, 2, .ro, 0x0⟩
/-- MX_STATUS.ACC0_KIND (Table 5.9). -/
def MX_STATUS_ACC0_KIND : RegField := ⟨.mx, 0x10, 8, 14, 2, .ro, 0x0⟩
/-- MX_STATUS.BUF1_NG (Table 5.9). -/
def MX_STATUS_BUF1_NG : RegField := ⟨.mx, 0x10, 8, 10, 2, .ro, 0x0⟩
/-- MX_STATUS.BUF1_VALID (Table 5.9). -/
def MX_STATUS_BUF1_VALID : RegField := ⟨.mx, 0x10, 8, 9, 1, .ro, 0x0⟩
/-- MX_STATUS.BUF1_MT (Table 5.9). -/
def MX_STATUS_BUF1_MT : RegField := ⟨.mx, 0x10, 8, 6, 3, .ro, 0x0⟩
/-- MX_STATUS.BUF0_NG (Table 5.9). -/
def MX_STATUS_BUF0_NG : RegField := ⟨.mx, 0x10, 8, 4, 2, .ro, 0x0⟩
/-- MX_STATUS.BUF0_VALID (Table 5.9). -/
def MX_STATUS_BUF0_VALID : RegField := ⟨.mx, 0x10, 8, 3, 1, .ro, 0x0⟩
/-- MX_STATUS.BUF0_MT (Table 5.9). -/
def MX_STATUS_BUF0_MT : RegField := ⟨.mx, 0x10, 8, 0, 3, .ro, 0x0⟩
/-- MX_ERR.VALID (Table 5.10). -/
def MX_ERR_VALID : RegField := ⟨.mx, 0x18, 8, 63, 1, .w1c, 0x0⟩
/-- MX_ERR.MORE (Table 5.10). -/
def MX_ERR_MORE : RegField := ⟨.mx, 0x18, 8, 62, 1, .w1c, 0x0⟩
/-- MX_ERR.CODE (Table 5.10). -/
def MX_ERR_CODE : RegField := ⟨.mx, 0x18, 8, 52, 4, .ro, 0x0⟩
/-- MX_ERR.FILLER (Table 5.10). -/
def MX_ERR_FILLER : RegField := ⟨.mx, 0x18, 8, 48, 1, .ro, 0x0⟩
/-- MX_ERR.PC (Table 5.10). -/
def MX_ERR_PC : RegField := ⟨.mx, 0x18, 8, 0, 18, .ro, 0x0⟩
/-- MX_ERR_WHEN.BEAT (Table 5.11). -/
def MX_ERR_WHEN_BEAT : RegField := ⟨.mx, 0x20, 8, 32, 32, .ro, 0x0⟩
/-- MX_ERR_WHEN.CYCLE (Table 5.11). -/
def MX_ERR_WHEN_CYCLE : RegField := ⟨.mx, 0x20, 8, 0, 32, .ro, 0x0⟩
/-- MX_ERR_COUNT.COUNT (Table 5.11). -/
def MX_ERR_COUNT_COUNT : RegField := ⟨.mx, 0x28, 8, 0, 32, .ro, 0x0⟩
/-- MX_SR_DRAWS.DRAWN (Table 5.12). -/
def MX_SR_DRAWS_DRAWN : RegField := ⟨.mx, 0x30, 8, 0, 48, .ro, 0x0⟩
/-- MX_PERF_BUSY.COUNT (Table 5.13). -/
def MX_PERF_BUSY_COUNT : RegField := ⟨.mx, 0x60, 8, 0, 64, .ro, 0x0⟩
/-- MX_PERF_FILL.COUNT (Table 5.13). -/
def MX_PERF_FILL_COUNT : RegField := ⟨.mx, 0x68, 8, 0, 64, .ro, 0x0⟩
/-- MX_PERF_MAC.COUNT (Table 5.13). -/
def MX_PERF_MAC_COUNT : RegField := ⟨.mx, 0x70, 8, 0, 64, .ro, 0x0⟩
/-- XC_XP_CFG.LAST (Table 6.11). -/
def XC_XP_CFG_LAST : RegField := ⟨.xt, 0x0, 8, 1, 9, .rws, 0x0⟩
/-- XC_XP_CFG.EN (Table 6.11). -/
def XC_XP_CFG_EN : RegField := ⟨.xt, 0x0, 8, 0, 1, .rws, 0x0⟩
/-- XC_FE_CFG.TIMEOUT (Table 6.13). -/
def XC_FE_CFG_TIMEOUT : RegField := ⟨.xt, 0x8, 8, 0, 32, .rws, 0x1000000⟩
/-- XC_FE_STATUS.MC_WAIT (Table 6.14). -/
def XC_FE_STATUS_MC_WAIT : RegField := ⟨.xt, 0x10, 8, 33, 1, .ro, 0x0⟩
/-- XC_FE_STATUS.FENCED (Table 6.14). -/
def XC_FE_STATUS_FENCED : RegField := ⟨.xt, 0x10, 8, 32, 1, .ro, 0x0⟩
/-- XC_FE_STATUS.WRITES (Table 6.14). -/
def XC_FE_STATUS_WRITES : RegField := ⟨.xt, 0x10, 8, 16, 16, .ro, 0x0⟩
/-- XC_FE_STATUS.READS (Table 6.14). -/
def XC_FE_STATUS_READS : RegField := ⟨.xt, 0x10, 8, 8, 8, .ro, 0x0⟩
/-- XC_FE_STATUS.ACTIVE (Table 6.14). -/
def XC_FE_STATUS_ACTIVE : RegField := ⟨.xt, 0x10, 8, 4, 1, .ro, 0x0⟩
/-- XC_FE_STATUS.QUEUED (Table 6.14). -/
def XC_FE_STATUS_QUEUED : RegField := ⟨.xt, 0x10, 8, 0, 4, .ro, 0x0⟩
/-- XC_FE_ERR.VALID (Table 6.15). -/
def XC_FE_ERR_VALID : RegField := ⟨.xt, 0x18, 8, 63, 1, .w1c, 0x0⟩
/-- XC_FE_ERR.MORE (Table 6.15). -/
def XC_FE_ERR_MORE : RegField := ⟨.xt, 0x18, 8, 62, 1, .w1c, 0x0⟩
/-- XC_FE_ERR.CODE (Table 6.15). -/
def XC_FE_ERR_CODE : RegField := ⟨.xt, 0x18, 8, 52, 4, .ro, 0x0⟩
/-- XC_FE_ERR.MODE (Table 6.15). -/
def XC_FE_ERR_MODE : RegField := ⟨.xt, 0x18, 8, 48, 3, .ro, 0x0⟩
/-- XC_FE_ERR.DESC (Table 6.15). -/
def XC_FE_ERR_DESC : RegField := ⟨.xt, 0x18, 8, 0, 21, .ro, 0x0⟩
/-- XC_FE_ERR_ADDR.ADDR (Table 6.16). -/
def XC_FE_ERR_ADDR_ADDR : RegField := ⟨.xt, 0x20, 8, 0, 64, .ro, 0x0⟩
/-- XC_FE_ERR_WHEN.BEAT (Table 6.16). -/
def XC_FE_ERR_WHEN_BEAT : RegField := ⟨.xt, 0x28, 8, 32, 32, .ro, 0x0⟩
/-- XC_FE_ERR_WHEN.CYCLE (Table 6.16). -/
def XC_FE_ERR_WHEN_CYCLE : RegField := ⟨.xt, 0x28, 8, 0, 32, .ro, 0x0⟩
/-- XC_FE_ERR_COUNT.COUNT (Table 6.16). -/
def XC_FE_ERR_COUNT_COUNT : RegField := ⟨.xt, 0x30, 8, 0, 32, .ro, 0x0⟩
/-- XC_PERF_XSEND.COUNT (Table 6.17). -/
def XC_PERF_XSEND_COUNT : RegField := ⟨.xt, 0x40, 8, 0, 64, .ro, 0x0⟩
/-- XC_PERF_XRECV.COUNT (Table 6.17). -/
def XC_PERF_XRECV_COUNT : RegField := ⟨.xt, 0x48, 8, 0, 64, .ro, 0x0⟩
/-- XC_PERF_PBYTES.COUNT (Table 6.17). -/
def XC_PERF_PBYTES_COUNT : RegField := ⟨.xt, 0x50, 8, 0, 64, .ro, 0x0⟩
/-- XC_PERF_CWAIT.COUNT (Table 6.17). -/
def XC_PERF_CWAIT_COUNT : RegField := ⟨.xt, 0x58, 8, 0, 64, .ro, 0x0⟩
/-- XC_XPE.CLASSMASK (Table 6.12). -/
def XC_XPE_CLASSMASK : RegField := ⟨.xt, 0x808, 16, 45, 4, .rws, 0x0⟩
/-- XC_XPE.SIGB (Table 6.12). -/
def XC_XPE_SIGB : RegField := ⟨.xt, 0x808, 16, 44, 1, .rws, 0x0⟩
/-- XC_XPE.CIDX (Table 6.12). -/
def XC_XPE_CIDX : RegField := ⟨.xt, 0x808, 16, 38, 6, .rws, 0x0⟩
/-- XC_XPE.SIGEN (Table 6.12). -/
def XC_XPE_SIGEN : RegField := ⟨.xt, 0x808, 16, 37, 1, .rws, 0x0⟩
/-- XC_XPE.LDIR (Table 6.12). -/
def XC_XPE_LDIR : RegField := ⟨.xt, 0x808, 16, 36, 1, .rws, 0x0⟩
/-- XC_XPE.TRACK (Table 6.12). -/
def XC_XPE_TRACK : RegField := ⟨.xt, 0x808, 16, 34, 2, .rws, 0x0⟩
/-- XC_XPE.DIR (Table 6.12). -/
def XC_XPE_DIR : RegField := ⟨.xt, 0x808, 16, 32, 2, .rws, 0x0⟩
/-- XC_XPE.ROWSTEP (Table 6.12). -/
def XC_XPE_ROWSTEP : RegField := ⟨.xt, 0x808, 16, 16, 16, .rws, 0x0⟩
/-- XC_XPE.ROW (Table 6.12). -/
def XC_XPE_ROW : RegField := ⟨.xt, 0x808, 16, 0, 16, .rws, 0x0⟩
/-- XC_XPE.PERIOD (Table 6.12). -/
def XC_XPE_PERIOD : RegField := ⟨.xt, 0x800, 16, 48, 8, .rws, 0x1⟩
/-- XC_XPE.COUNT (Table 6.12). -/
def XC_XPE_COUNT : RegField := ⟨.xt, 0x800, 16, 32, 16, .rws, 0x0⟩
/-- XC_XPE.START (Table 6.12). -/
def XC_XPE_START : RegField := ⟨.xt, 0x800, 16, 0, 32, .rws, 0x0⟩
/-- SY_CNT_S.S (Table 2.16). -/
def SY_CNT_S_S : RegField := ⟨.syt, 0x0, 64, 0, 48, .ro, 0x0⟩
/-- SY_CNT_C.C (Table 2.17). -/
def SY_CNT_C_C : RegField := ⟨.syt, 0x8, 64, 0, 48, .ro, 0x0⟩
/-- SY_CNT_VAL.VALUE (Table 2.18). -/
def SY_CNT_VAL_VALUE : RegField := ⟨.syt, 0x10, 64, 0, 48, .ro, 0x0⟩
/-- SY_CNT_WAIT.REMOTE_COUNT (Table 2.19). -/
def SY_CNT_WAIT_REMOTE_COUNT : RegField := ⟨.syt, 0x18, 64, 32, 16, .ro, 0x0⟩
/-- SY_CNT_WAIT.LOCAL (Table 2.19). -/
def SY_CNT_WAIT_LOCAL : RegField := ⟨.syt, 0x18, 64, 0, 8, .ro, 0x0⟩
/-- SY_CNT_LAST.CYCLE (Table 2.20). -/
def SY_CNT_LAST_CYCLE : RegField := ⟨.syt, 0x20, 64, 48, 16, .ro, 0x0⟩
/-- SY_CNT_LAST.UNIT (Table 2.20). -/
def SY_CNT_LAST_UNIT : RegField := ⟨.syt, 0x20, 64, 32, 16, .ro, 0x0⟩
/-- SY_CNT_LAST.VALID (Table 2.20). -/
def SY_CNT_LAST_VALID : RegField := ⟨.syt, 0x20, 64, 31, 1, .ro, 0x0⟩
/-- SY_CNT_LAST.DEVICE (Table 2.20). -/
def SY_CNT_LAST_DEVICE : RegField := ⟨.syt, 0x20, 64, 0, 15, .ro, 0x0⟩
/-- SY_CNT_LASTBEAT.BEAT (Table 2.21). -/
def SY_CNT_LASTBEAT_BEAT : RegField := ⟨.syt, 0x28, 64, 0, 64, .ro, 0x0⟩
/-- SY_ERR.VALID (Table 2.22). -/
def SY_ERR_VALID : RegField := ⟨.syt, 0x1000, 8, 63, 1, .w1c, 0x0⟩
/-- SY_ERR.MORE (Table 2.22). -/
def SY_ERR_MORE : RegField := ⟨.syt, 0x1000, 8, 62, 1, .w1c, 0x0⟩
/-- SY_ERR.CODE (Table 2.22). -/
def SY_ERR_CODE : RegField := ⟨.syt, 0x1000, 8, 58, 4, .ro, 0x0⟩
/-- SY_ERR.UNIT (Table 2.22). -/
def SY_ERR_UNIT : RegField := ⟨.syt, 0x1000, 8, 32, 16, .ro, 0x0⟩
/-- SY_ERR.COUNTER (Table 2.22). -/
def SY_ERR_COUNTER : RegField := ⟨.syt, 0x1000, 8, 15, 8, .ro, 0x0⟩
/-- SY_ERR.DEVICE (Table 2.22). -/
def SY_ERR_DEVICE : RegField := ⟨.syt, 0x1000, 8, 0, 15, .ro, 0x0⟩
/-- XC_XB_CFG.LAST (Table 6.18). -/
def XC_XB_CFG_LAST : RegField := ⟨.xd, 0x0, 8, 1, 16, .rws, 0x0⟩
/-- XC_XB_CFG.EN (Table 6.18). -/
def XC_XB_CFG_EN : RegField := ⟨.xd, 0x0, 8, 0, 1, .rws, 0x0⟩
/-- XC_XB_STATUS.CREDITS_HOME (Table 6.20). -/
def XC_XB_STATUS_CREDITS_HOME : RegField := ⟨.xd, 0x8, 8, 1, 1, .ro, 0x1⟩
/-- XC_XB_STATUS.EMPTY (Table 6.20). -/
def XC_XB_STATUS_EMPTY : RegField := ⟨.xd, 0x8, 8, 0, 1, .ro, 0x1⟩
/-- XC_XB_ERR.VALID (Table 6.20). -/
def XC_XB_ERR_VALID : RegField := ⟨.xd, 0x10, 8, 63, 1, .w1c, 0x0⟩
/-- XC_XB_ERR.MORE (Table 6.20). -/
def XC_XB_ERR_MORE : RegField := ⟨.xd, 0x10, 8, 62, 1, .w1c, 0x0⟩
/-- XC_XB_ERR.CODE (Table 6.20). -/
def XC_XB_ERR_CODE : RegField := ⟨.xd, 0x10, 8, 52, 4, .ro, 0x0⟩
/-- XC_XB_ERR.KIND (Table 6.20). -/
def XC_XB_ERR_KIND : RegField := ⟨.xd, 0x10, 8, 48, 4, .ro, 0x0⟩
/-- XC_XB_ERR.PORT (Table 6.20). -/
def XC_XB_ERR_PORT : RegField := ⟨.xd, 0x10, 8, 32, 6, .ro, 0x0⟩
/-- XC_XB_ERR.SRC_UNIT (Table 6.20). -/
def XC_XB_ERR_SRC_UNIT : RegField := ⟨.xd, 0x10, 8, 16, 16, .ro, 0x0⟩
/-- XC_XB_ERR.SRC_DEV (Table 6.20). -/
def XC_XB_ERR_SRC_DEV : RegField := ⟨.xd, 0x10, 8, 0, 15, .ro, 0x0⟩
/-- XC_ROWMAP.FENCED_POS2 (Table 1.15). -/
def XC_ROWMAP_FENCED_POS2 : RegField := ⟨.xd, 0x400, 8, 8, 5, .rws, 0x1F⟩
/-- XC_ROWMAP.FENCED_POS (Table 1.15). -/
def XC_ROWMAP_FENCED_POS : RegField := ⟨.xd, 0x400, 8, 0, 5, .rws, 0x10⟩
/-- XC_XSE.CLASSMASK (Table 6.19). -/
def XC_XSE_CLASSMASK : RegField := ⟨.xd, 0x10008, 16, 22, 4, .rws, 0x0⟩
/-- XC_XSE.IN_TRACK (Table 6.19). -/
def XC_XSE_IN_TRACK : RegField := ⟨.xd, 0x10008, 16, 17, 5, .rws, 0x0⟩
/-- XC_XSE.IN_PORT (Table 6.19). -/
def XC_XSE_IN_PORT : RegField := ⟨.xd, 0x10008, 16, 11, 6, .rws, 0x0⟩
/-- XC_XSE.OUT_TRACK (Table 6.19). -/
def XC_XSE_OUT_TRACK : RegField := ⟨.xd, 0x10008, 16, 6, 5, .rws, 0x0⟩
/-- XC_XSE.OUT_PORT (Table 6.19). -/
def XC_XSE_OUT_PORT : RegField := ⟨.xd, 0x10008, 16, 0, 6, .rws, 0x0⟩
/-- XC_XSE.PERIOD (Table 6.19). -/
def XC_XSE_PERIOD : RegField := ⟨.xd, 0x10000, 16, 48, 8, .rws, 0x1⟩
/-- XC_XSE.COUNT (Table 6.19). -/
def XC_XSE_COUNT : RegField := ⟨.xd, 0x10000, 16, 32, 16, .rws, 0x0⟩
/-- XC_XSE.START (Table 6.19). -/
def XC_XSE_START : RegField := ⟨.xd, 0x10000, 16, 0, 32, .rws, 0x0⟩
/-- ES_BEAT_CFG.CHILD_MASK (Table 2.9). -/
def ES_BEAT_CFG_CHILD_MASK : RegField := ⟨.es, 0x0, 8, 16, 24, .rws, 0x0⟩
/-- ES_BEAT_CFG.PARENT_LINK (Table 2.9). -/
def ES_BEAT_CFG_PARENT_LINK : RegField := ⟨.es, 0x0, 8, 11, 5, .rws, 0x0⟩
/-- ES_BEAT_CFG.REF_LINK (Table 2.9). -/
def ES_BEAT_CFG_REF_LINK : RegField := ⟨.es, 0x0, 8, 6, 5, .rws, 0x0⟩
/-- ES_BEAT_CFG.REF_SRC (Table 2.9). -/
def ES_BEAT_CFG_REF_SRC : RegField := ⟨.es, 0x0, 8, 4, 2, .rws, 0x0⟩
/-- ES_BEAT_CFG.ROLE (Table 2.9). -/
def ES_BEAT_CFG_ROLE : RegField := ⟨.es, 0x0, 8, 2, 2, .rws, 0x0⟩
/-- ES_BEAT_INIT.INIT (Table 2.10). -/
def ES_BEAT_INIT_INIT : RegField := ⟨.es, 0x8, 8, 0, 64, .rws, 0x0⟩
/-- ES_REF_CFG.REF_TIMEOUT (Table 2.11). -/
def ES_REF_CFG_REF_TIMEOUT : RegField := ⟨.es, 0x10, 8, 32, 32, .rws, 0x0⟩
/-- ES_REF_CFG.REF_MIN_GAP (Table 2.11). -/
def ES_REF_CFG_REF_MIN_GAP : RegField := ⟨.es, 0x10, 8, 0, 32, .rws, 0x0⟩
/-- ES_BEAT_NUM.BEAT (Table 2.12). -/
def ES_BEAT_NUM_BEAT : RegField := ⟨.es, 0x18, 8, 0, 64, .ro, 0x0⟩
/-- ES_BEAT_STATUS.GLITCHES (Table 2.12). -/
def ES_BEAT_STATUS_GLITCHES : RegField := ⟨.es, 0x20, 8, 32, 32, .ro, 0x0⟩
/-- ES_BEAT_STATUS.REF_LOST (Table 2.12). -/
def ES_BEAT_STATUS_REF_LOST : RegField := ⟨.es, 0x20, 8, 31, 1, .ro, 0x0⟩
/-- ES_BEAT_STATUS.SEQ_ERR (Table 2.12). -/
def ES_BEAT_STATUS_SEQ_ERR : RegField := ⟨.es, 0x20, 8, 30, 1, .w1c, 0x0⟩
/-- ES_BEAT_STATUS.FROZEN (Table 2.12). -/
def ES_BEAT_STATUS_FROZEN : RegField := ⟨.es, 0x20, 8, 29, 1, .ro, 0x0⟩
/-- ES_BEAT_STATUS.LOCAL_READY (Table 2.12). -/
def ES_BEAT_STATUS_LOCAL_READY : RegField := ⟨.es, 0x20, 8, 28, 1, .ro, 0x0⟩
/-- ES_BEAT_STATUS.SUBTREE_READY (Table 2.12). -/
def ES_BEAT_STATUS_SUBTREE_READY : RegField := ⟨.es, 0x20, 8, 27, 1, .ro, 0x0⟩
/-- ES_BEAT_STATUS.SUBTREE_NOHOLD (Table 2.12). -/
def ES_BEAT_STATUS_SUBTREE_NOHOLD : RegField := ⟨.es, 0x20, 8, 26, 1, .ro, 0x1⟩
/-- ES_BEAT_STATUS.SUBTREE_FAULT (Table 2.12). -/
def ES_BEAT_STATUS_SUBTREE_FAULT : RegField := ⟨.es, 0x20, 8, 25, 1, .ro, 0x0⟩
/-- ES_BEAT_STATUS.LAST_CLEAN (Table 2.12). -/
def ES_BEAT_STATUS_LAST_CLEAN : RegField := ⟨.es, 0x20, 8, 24, 1, .ro, 0x0⟩
/-- ES_MISSED_EDGES.HELD (Table 2.13). -/
def ES_MISSED_EDGES_HELD : RegField := ⟨.es, 0x28, 8, 32, 32, .ro, 0x0⟩
/-- ES_MISSED_EDGES.UNHELD (Table 2.13). -/
def ES_MISSED_EDGES_UNHELD : RegField := ⟨.es, 0x28, 8, 0, 32, .ro, 0x0⟩
/-- ES_COMMIT_CTRL.TAG (Table 1.9). -/
def ES_COMMIT_CTRL_TAG : RegField := ⟨.es, 0x100, 8, 8, 16, .rw, 0x0⟩
/-- ES_COMMIT_CTRL.TARGET (Table 1.9). -/
def ES_COMMIT_CTRL_TARGET : RegField := ⟨.es, 0x100, 8, 2, 2, .rw, 0x0⟩
/-- ES_COMMIT_CTRL.ABORT (Table 1.9). -/
def ES_COMMIT_CTRL_ABORT : RegField := ⟨.es, 0x100, 8, 1, 1, .wo, 0x0⟩
/-- ES_COMMIT_CTRL.REQ (Table 1.9). -/
def ES_COMMIT_CTRL_REQ : RegField := ⟨.es, 0x100, 8, 0, 1, .wo, 0x0⟩
/-- ES_COMMIT_BEAT.BEAT (Table 1.10). -/
def ES_COMMIT_BEAT_BEAT : RegField := ⟨.es, 0x108, 8, 0, 64, .rw, 0x0⟩
/-- ES_CFG_STATUS.LOCKED_WRITE (Table 1.11). -/
def ES_CFG_STATUS_LOCKED_WRITE : RegField := ⟨.es, 0x110, 8, 31, 1, .w1c, 0x0⟩
/-- ES_CFG_STATUS.PENDING (Table 1.11). -/
def ES_CFG_STATUS_PENDING : RegField := ⟨.es, 0x110, 8, 30, 1, .ro, 0x0⟩
/-- ES_CFG_STATUS.DIRTY (Table 1.11). -/
def ES_CFG_STATUS_DIRTY : RegField := ⟨.es, 0x110, 8, 29, 1, .ro, 0x0⟩
/-- ES_CFG_STATUS.LAST_TAG (Table 1.11). -/
def ES_CFG_STATUS_LAST_TAG : RegField := ⟨.es, 0x110, 8, 8, 16, .ro, 0x0⟩
/-- ES_CFG_STATUS.CODE (Table 1.11). -/
def ES_CFG_STATUS_CODE : RegField := ⟨.es, 0x110, 8, 0, 4, .ro, 0x0⟩
/-- ES_CFG_FAULTADDR.ADDR (Table 1.12). -/
def ES_CFG_FAULTADDR_ADDR : RegField := ⟨.es, 0x118, 8, 0, 48, .ro, 0x0⟩
/-- ES_COMMIT_COUNT.COUNT (Table 1.13). -/
def ES_COMMIT_COUNT_COUNT : RegField := ⟨.es, 0x120, 8, 0, 32, .ro, 0x0⟩
/-- ES_HOLD_CFG.LIMIT (Table 2.14). -/
def ES_HOLD_CFG_LIMIT : RegField := ⟨.es, 0x200, 8, 32, 32, .rws, 0xFFFFFFFF⟩
/-- ES_HOLD_CFG.BUDGET (Table 2.14). -/
def ES_HOLD_CFG_BUDGET : RegField := ⟨.es, 0x200, 8, 0, 32, .rws, 0x0⟩
/-- ES_HOLD_CNT.COUNT (Table 2.14). -/
def ES_HOLD_CNT_COUNT : RegField := ⟨.es, 0x220, 8, 0, 64, .ro, 0x0⟩
/-- ES_HOLD_BEAT.LAST (Table 2.14). -/
def ES_HOLD_BEAT_LAST : RegField := ⟨.es, 0x260, 8, 32, 32, .ro, 0x0⟩
/-- ES_HOLD_BEAT.CURRENT (Table 2.14). -/
def ES_HOLD_BEAT_CURRENT : RegField := ⟨.es, 0x260, 8, 0, 32, .ro, 0x0⟩
/-- ES_HOLD_STATUS.OVER (Table 2.14). -/
def ES_HOLD_STATUS_OVER : RegField := ⟨.es, 0x268, 8, 31, 1, .w1c, 0x0⟩
/-- ES_HOLD_STATUS.FORCED (Table 2.14). -/
def ES_HOLD_STATUS_FORCED : RegField := ⟨.es, 0x268, 8, 30, 1, .w1c, 0x0⟩
/-- ES_HOLD_STATUS.OVER_COUNT (Table 2.14). -/
def ES_HOLD_STATUS_OVER_COUNT : RegField := ⟨.es, 0x268, 8, 0, 24, .ro, 0x0⟩
/-- ES_CLEAR_CFG.SYS_PERIOD (Table 2.14). -/
def ES_CLEAR_CFG_SYS_PERIOD : RegField := ⟨.es, 0x300, 8, 32, 32, .rws, 0x1⟩
/-- ES_CLEAR_CFG.WAIT_LIMIT (Table 2.14). -/
def ES_CLEAR_CFG_WAIT_LIMIT : RegField := ⟨.es, 0x300, 8, 0, 32, .rws, 0x10000⟩
/-- ES_SYSCLR_BASE.BASE (Table 2.14). -/
def ES_SYSCLR_BASE_BASE : RegField := ⟨.es, 0x308, 8, 0, 64, .rws, 0x0⟩
/-- ES_CLEAR_LAST.BEAT (Table 2.14). -/
def ES_CLEAR_LAST_BEAT : RegField := ⟨.es, 0x310, 8, 0, 64, .ro, 0x0⟩
/-- ES_CLEAR_INFO.COUNT (Table 2.14). -/
def ES_CLEAR_INFO_COUNT : RegField := ⟨.es, 0x318, 8, 32, 32, .ro, 0x0⟩
/-- ES_CLEAR_INFO.CYCLE (Table 2.14). -/
def ES_CLEAR_INFO_CYCLE : RegField := ⟨.es, 0x318, 8, 0, 32, .ro, 0x0⟩
/-- ES_CLEAR_MISS.COUNT (Table 2.14). -/
def ES_CLEAR_MISS_COUNT : RegField := ⟨.es, 0x320, 8, 0, 32, .ro, 0x0⟩
/-- ES_QUIET.GROUPS (Table 2.14). -/
def ES_QUIET_GROUPS : RegField := ⟨.es, 0x328, 8, 0, 5, .ro, 0x0⟩
/-- ES_STEP_CFG.REPLAY_LIMIT (Table 10.7). -/
def ES_STEP_CFG_REPLAY_LIMIT : RegField := ⟨.es, 0x400, 8, 32, 8, .rws, 0x8⟩
/-- ES_STEP_CFG.BEATS (Table 10.7). -/
def ES_STEP_CFG_BEATS : RegField := ⟨.es, 0x400, 8, 0, 32, .rws, 0x1⟩
/-- ES_STEP_BASE.BASE (Table 10.8). -/
def ES_STEP_BASE_BASE : RegField := ⟨.es, 0x408, 8, 0, 48, .rws, 0x0⟩
/-- ES_STEP_NUM.STEP (Table 10.8). -/
def ES_STEP_NUM_STEP : RegField := ⟨.es, 0x410, 8, 0, 48, .ro, 0x0⟩
/-- ES_STEP_STATUS.ATTEMPT (Table 10.8). -/
def ES_STEP_STATUS_ATTEMPT : RegField := ⟨.es, 0x418, 8, 56, 8, .ro, 0x0⟩
/-- ES_STEP_STATUS.LIMIT (Table 10.8). -/
def ES_STEP_STATUS_LIMIT : RegField := ⟨.es, 0x418, 8, 55, 1, .w1c, 0x0⟩
/-- ES_STEP_STATUS.INPUT_OVERWRITE (Table 10.8). -/
def ES_STEP_STATUS_INPUT_OVERWRITE : RegField := ⟨.es, 0x418, 8, 54, 1, .w1c, 0x0⟩
/-- ES_STEP_STATUS.ACC_CLEAN (Table 10.8). -/
def ES_STEP_STATUS_ACC_CLEAN : RegField := ⟨.es, 0x418, 8, 53, 1, .ro, 0x1⟩
/-- ES_STEP_STATUS.LAST_VERDICT (Table 10.8). -/
def ES_STEP_STATUS_LAST_VERDICT : RegField := ⟨.es, 0x418, 8, 52, 1, .ro, 0x0⟩
/-- ES_STEP_STATUS.POS (Table 10.8). -/
def ES_STEP_STATUS_POS : RegField := ⟨.es, 0x418, 8, 0, 32, .ro, 0x0⟩
/-- ES_STEP_NEXT.BEAT (Table 10.8). -/
def ES_STEP_NEXT_BEAT : RegField := ⟨.es, 0x420, 8, 0, 64, .ro, 0x0⟩
/-- ES_STEP_COUNT.REPLAYS (Table 10.8). -/
def ES_STEP_COUNT_REPLAYS : RegField := ⟨.es, 0x428, 8, 32, 32, .ro, 0x0⟩
/-- ES_STEP_COUNT.COMMITS (Table 10.8). -/
def ES_STEP_COUNT_COMMITS : RegField := ⟨.es, 0x428, 8, 0, 32, .ro, 0x0⟩
/-- ES_STEP_CTRL.MARK_UNCLEAN (Table 10.8). -/
def ES_STEP_CTRL_MARK_UNCLEAN : RegField := ⟨.es, 0x430, 8, 0, 1, .wo, 0x0⟩
/-- ES_INPUT_CFG.EN (Table 10.9). -/
def ES_INPUT_CFG_EN : RegField := ⟨.es, 0x508, 16, 63, 1, .rws, 0x0⟩
/-- ES_INPUT_CFG.CIDX1 (Table 10.9). -/
def ES_INPUT_CFG_CIDX1 : RegField := ⟨.es, 0x508, 16, 40, 8, .rws, 0x0⟩
/-- ES_INPUT_CFG.CIDX0 (Table 10.9). -/
def ES_INPUT_CFG_CIDX0 : RegField := ⟨.es, 0x508, 16, 32, 8, .rws, 0x0⟩
/-- ES_INPUT_CFG.LEN (Table 10.9). -/
def ES_INPUT_CFG_LEN : RegField := ⟨.es, 0x508, 16, 0, 32, .rws, 0x0⟩
/-- ES_INPUT_CFG.BASE (Table 10.9). -/
def ES_INPUT_CFG_BASE : RegField := ⟨.es, 0x500, 16, 0, 38, .rws, 0x0⟩
/-- ES_INPUT_LANDED.BYTES (Table 10.9). -/
def ES_INPUT_LANDED_BYTES : RegField := ⟨.es, 0x540, 8, 0, 48, .ro, 0x0⟩
/-- ES_JOB_STATUS.STAGE (Table 11.13). -/
def ES_JOB_STATUS_STAGE : RegField := ⟨.es, 0x600, 8, 32, 2, .ro, 0x0⟩
/-- ES_JOB_STATUS.CLASS (Table 11.13). -/
def ES_JOB_STATUS_CLASS : RegField := ⟨.es, 0x600, 8, 24, 2, .ro, 0x0⟩
/-- ES_JOB_STATUS.CODE (Table 11.13). -/
def ES_JOB_STATUS_CODE : RegField := ⟨.es, 0x600, 8, 0, 8, .ro, 0x0⟩
/-- ES_JOB_WHERE.ITEM (Table 11.14). -/
def ES_JOB_WHERE_ITEM : RegField := ⟨.es, 0x608, 8, 48, 16, .ro, 0x0⟩
/-- ES_JOB_WHERE.OFFSET (Table 11.14). -/
def ES_JOB_WHERE_OFFSET : RegField := ⟨.es, 0x608, 8, 0, 48, .ro, 0x0⟩
/-- ES_JOB_INFO.CLASS_ID (Table 11.15). -/
def ES_JOB_INFO_CLASS_ID : RegField := ⟨.es, 0x610, 8, 16, 16, .ro, 0x0⟩
/-- ES_JOB_INFO.NCLASS (Table 11.15). -/
def ES_JOB_INFO_NCLASS : RegField := ⟨.es, 0x610, 8, 10, 2, .ro, 0x0⟩
/-- ES_JOB_INFO.PROFILE (Table 11.15). -/
def ES_JOB_INFO_PROFILE : RegField := ⟨.es, 0x610, 8, 0, 4, .ro, 0x0⟩
/-- ES_JOB_HASH.HASH (Table 11.16). -/
def ES_JOB_HASH_HASH : RegField := ⟨.es, 0x640, 8, 0, 64, .ro, 0x0⟩
/-- SYD_CNT_S.S (Table 2.16). -/
def SYD_CNT_S_S : RegField := ⟨.syd, 0x0, 64, 0, 48, .ro, 0x0⟩
/-- SYD_CNT_C.C (Table 2.17). -/
def SYD_CNT_C_C : RegField := ⟨.syd, 0x8, 64, 0, 48, .ro, 0x0⟩
/-- SYD_CNT_VAL.VALUE (Table 2.18). -/
def SYD_CNT_VAL_VALUE : RegField := ⟨.syd, 0x10, 64, 0, 48, .ro, 0x0⟩
/-- SYD_CNT_WAIT.REMOTE_COUNT (Table 2.19). -/
def SYD_CNT_WAIT_REMOTE_COUNT : RegField := ⟨.syd, 0x18, 64, 32, 16, .ro, 0x0⟩
/-- SYD_CNT_WAIT.LOCAL (Table 2.19). -/
def SYD_CNT_WAIT_LOCAL : RegField := ⟨.syd, 0x18, 64, 0, 8, .ro, 0x0⟩
/-- SYD_CNT_LAST.CYCLE (Table 2.20). -/
def SYD_CNT_LAST_CYCLE : RegField := ⟨.syd, 0x20, 64, 48, 16, .ro, 0x0⟩
/-- SYD_CNT_LAST.UNIT (Table 2.20). -/
def SYD_CNT_LAST_UNIT : RegField := ⟨.syd, 0x20, 64, 32, 16, .ro, 0x0⟩
/-- SYD_CNT_LAST.VALID (Table 2.20). -/
def SYD_CNT_LAST_VALID : RegField := ⟨.syd, 0x20, 64, 31, 1, .ro, 0x0⟩
/-- SYD_CNT_LAST.DEVICE (Table 2.20). -/
def SYD_CNT_LAST_DEVICE : RegField := ⟨.syd, 0x20, 64, 0, 15, .ro, 0x0⟩
/-- SYD_CNT_LASTBEAT.BEAT (Table 2.21). -/
def SYD_CNT_LASTBEAT_BEAT : RegField := ⟨.syd, 0x28, 64, 0, 64, .ro, 0x0⟩
/-- SYD_ERR.VALID (Table 2.22). -/
def SYD_ERR_VALID : RegField := ⟨.syd, 0x4000, 8, 63, 1, .w1c, 0x0⟩
/-- SYD_ERR.MORE (Table 2.22). -/
def SYD_ERR_MORE : RegField := ⟨.syd, 0x4000, 8, 62, 1, .w1c, 0x0⟩
/-- SYD_ERR.CODE (Table 2.22). -/
def SYD_ERR_CODE : RegField := ⟨.syd, 0x4000, 8, 58, 4, .ro, 0x0⟩
/-- SYD_ERR.UNIT (Table 2.22). -/
def SYD_ERR_UNIT : RegField := ⟨.syd, 0x4000, 8, 32, 16, .ro, 0x0⟩
/-- SYD_ERR.COUNTER (Table 2.22). -/
def SYD_ERR_COUNTER : RegField := ⟨.syd, 0x4000, 8, 15, 8, .ro, 0x0⟩
/-- SYD_ERR.DEVICE (Table 2.22). -/
def SYD_ERR_DEVICE : RegField := ⟨.syd, 0x4000, 8, 0, 15, .ro, 0x0⟩
/-- RT_DRAM_CFG.MODE (Table 7.10). -/
def RT_DRAM_CFG_MODE : RegField := ⟨.rt, 0x0, 8, 0, 1, .rws, 0x0⟩
/-- RT_PCMAP.SPARE1_FOR (Table 7.11). -/
def RT_PCMAP_SPARE1_FOR : RegField := ⟨.rt, 0x8, 8, 8, 6, .rws, 0x3F⟩
/-- RT_PCMAP.SPARE0_FOR (Table 7.11). -/
def RT_PCMAP_SPARE0_FOR : RegField := ⟨.rt, 0x8, 8, 0, 6, .rws, 0x3F⟩
/-- RT_PC_HEALTH.FAILED (Table 7.13). -/
def RT_PC_HEALTH_FAILED : RegField := ⟨.rt, 0x10, 8, 0, 34, .ro, 0x0⟩
/-- RT_REFWIN.CLASSMASK (Table 7.12). -/
def RT_REFWIN_CLASSMASK : RegField := ⟨.rt, 0x108, 16, 0, 4, .rws, 0x0⟩
/-- RT_REFWIN.LEN (Table 7.12). -/
def RT_REFWIN_LEN : RegField := ⟨.rt, 0x100, 16, 32, 32, .rws, 0x0⟩
/-- RT_REFWIN.START (Table 7.12). -/
def RT_REFWIN_START : RegField := ⟨.rt, 0x100, 16, 0, 32, .rws, 0x0⟩
/-- RT_REF_STATUS.FORCED (Table 7.13). -/
def RT_REF_STATUS_FORCED : RegField := ⟨.rt, 0x200, 8, 32, 32, .ro, 0x0⟩
/-- RT_REF_STATUS.ISSUED (Table 7.13). -/
def RT_REF_STATUS_ISSUED : RegField := ⟨.rt, 0x200, 8, 0, 32, .ro, 0x0⟩
/-- RT_DRAM_ERR.VALID (Table 7.14). -/
def RT_DRAM_ERR_VALID : RegField := ⟨.rt, 0x210, 8, 63, 1, .w1c, 0x0⟩
/-- RT_DRAM_ERR.MORE (Table 7.14). -/
def RT_DRAM_ERR_MORE : RegField := ⟨.rt, 0x210, 8, 62, 1, .w1c, 0x0⟩
/-- RT_DRAM_ERR.CODE (Table 7.14). -/
def RT_DRAM_ERR_CODE : RegField := ⟨.rt, 0x210, 8, 52, 4, .ro, 0x0⟩
/-- RT_DRAM_ERR.PATH (Table 7.14). -/
def RT_DRAM_ERR_PATH : RegField := ⟨.rt, 0x210, 8, 32, 6, .ro, 0x0⟩
/-- RT_DRAM_ERR.BEAT (Table 7.14). -/
def RT_DRAM_ERR_BEAT : RegField := ⟨.rt, 0x210, 8, 0, 32, .ro, 0x0⟩
/-- RT_DRAM_ERR_ADDR.ADDR (Table 7.14). -/
def RT_DRAM_ERR_ADDR_ADDR : RegField := ⟨.rt, 0x218, 8, 0, 38, .ro, 0x0⟩
/-- RT_DRAM_CE_COUNT.COUNT (Table 7.13). -/
def RT_DRAM_CE_COUNT_COUNT : RegField := ⟨.rt, 0x220, 8, 0, 32, .ro, 0x0⟩
/-- RT_ACC_CE_COUNT.COUNT (Table 7.13). -/
def RT_ACC_CE_COUNT_COUNT : RegField := ⟨.rt, 0x228, 8, 0, 32, .ro, 0x0⟩
/-- RT_WRAISE.RAISE (Table 7.15). -/
def RT_WRAISE_RAISE : RegField := ⟨.rt, 0x300, 8, 0, 8, .rws, 0x0⟩
/-- RT_WPOLICY.MAXRAISE (Table 7.16). -/
def RT_WPOLICY_MAXRAISE : RegField := ⟨.rt, 0x308, 8, 16, 8, .rws, 0x0⟩
/-- RT_WPOLICY.INC (Table 7.16). -/
def RT_WPOLICY_INC : RegField := ⟨.rt, 0x308, 8, 8, 6, .rws, 0x1⟩
/-- RT_WPOLICY.ACTION (Table 7.16). -/
def RT_WPOLICY_ACTION : RegField := ⟨.rt, 0x308, 8, 0, 1, .rws, 0x0⟩
/-- RT_CKPT_CFG.RATE (Table 10.10). -/
def RT_CKPT_CFG_RATE : RegField := ⟨.rt, 0x310, 8, 48, 8, .rws, 0xA⟩
/-- RT_CKPT_CFG.HOST (Table 10.10). -/
def RT_CKPT_CFG_HOST : RegField := ⟨.rt, 0x310, 8, 34, 1, .rws, 0x0⟩
/-- RT_CKPT_CFG.MODE (Table 10.10). -/
def RT_CKPT_CFG_MODE : RegField := ⟨.rt, 0x310, 8, 32, 2, .rws, 0x0⟩
/-- RT_CKPT_CFG.PERIOD (Table 10.10). -/
def RT_CKPT_CFG_PERIOD : RegField := ⟨.rt, 0x310, 8, 0, 32, .rws, 0x1⟩
/-- RT_CKPT_PEER.MEMBER (Table 10.10). -/
def RT_CKPT_PEER_MEMBER : RegField := ⟨.rt, 0x318, 8, 16, 3, .rws, 0x0⟩
/-- RT_CKPT_PEER.BUDDY (Table 10.10). -/
def RT_CKPT_PEER_BUDDY : RegField := ⟨.rt, 0x318, 8, 0, 15, .rws, 0x0⟩
/-- RT_CKPT_GROUP.DEVICE3 (Table 10.10). -/
def RT_CKPT_GROUP_DEVICE3 : RegField := ⟨.rt, 0x320, 8, 48, 15, .rws, 0x0⟩
/-- RT_CKPT_GROUP.DEVICE2 (Table 10.10). -/
def RT_CKPT_GROUP_DEVICE2 : RegField := ⟨.rt, 0x320, 8, 32, 15, .rws, 0x0⟩
/-- RT_CKPT_GROUP.DEVICE1 (Table 10.10). -/
def RT_CKPT_GROUP_DEVICE1 : RegField := ⟨.rt, 0x320, 8, 16, 15, .rws, 0x0⟩
/-- RT_CKPT_GROUP.DEVICE0 (Table 10.10). -/
def RT_CKPT_GROUP_DEVICE0 : RegField := ⟨.rt, 0x320, 8, 0, 15, .rws, 0x0⟩
/-- RT_CKPT_HOST.RKEY (Table 10.10). -/
def RT_CKPT_HOST_RKEY : RegField := ⟨.rt, 0x330, 8, 32, 32, .rws, 0x0⟩
/-- RT_CKPT_HOST.QP (Table 10.10). -/
def RT_CKPT_HOST_QP : RegField := ⟨.rt, 0x330, 8, 0, 6, .rws, 0x0⟩
/-- RT_CKPT_HOSTADDR.ADDR (Table 10.10). -/
def RT_CKPT_HOSTADDR_ADDR : RegField := ⟨.rt, 0x338, 8, 0, 64, .rws, 0x0⟩
/-- RT_ACC_CFG.FENCE_THRESH (Table 7.17). -/
def RT_ACC_CFG_FENCE_THRESH : RegField := ⟨.rt, 0x400, 8, 32, 8, .rws, 0x2⟩
/-- RT_ACC_CFG.QUIET_LIMIT (Table 7.17). -/
def RT_ACC_CFG_QUIET_LIMIT : RegField := ⟨.rt, 0x400, 8, 0, 32, .rws, 0x10000⟩
/-- RT_PIPEMAP.SPARE1_FOR (Table 7.11). -/
def RT_PIPEMAP_SPARE1_FOR : RegField := ⟨.rt, 0x408, 8, 8, 6, .rws, 0x3F⟩
/-- RT_PIPEMAP.SPARE0_FOR (Table 7.11). -/
def RT_PIPEMAP_SPARE0_FOR : RegField := ⟨.rt, 0x408, 8, 0, 6, .rws, 0x3F⟩
/-- RT_PIPE_HEALTH.FAILED (Table 7.13). -/
def RT_PIPE_HEALTH_FAILED : RegField := ⟨.rt, 0x410, 8, 0, 34, .ro, 0x0⟩
/-- RT_ACC_ERR.VALID (Table 7.18). -/
def RT_ACC_ERR_VALID : RegField := ⟨.rt, 0x418, 8, 63, 1, .w1c, 0x0⟩
/-- RT_ACC_ERR.MORE (Table 7.18). -/
def RT_ACC_ERR_MORE : RegField := ⟨.rt, 0x418, 8, 62, 1, .w1c, 0x0⟩
/-- RT_ACC_ERR.CODE (Table 7.18). -/
def RT_ACC_ERR_CODE : RegField := ⟨.rt, 0x418, 8, 52, 4, .ro, 0x0⟩
/-- RT_ACC_ERR.ATTR (Table 7.18). -/
def RT_ACC_ERR_ATTR : RegField := ⟨.rt, 0x418, 8, 51, 1, .ro, 0x0⟩
/-- RT_ACC_ERR.DETAIL (Table 7.18). -/
def RT_ACC_ERR_DETAIL : RegField := ⟨.rt, 0x418, 8, 47, 4, .ro, 0x0⟩
/-- RT_ACC_ERR.REGION (Table 7.18). -/
def RT_ACC_ERR_REGION : RegField := ⟨.rt, 0x418, 8, 40, 7, .ro, 0x0⟩
/-- RT_ACC_ERR.UNIT (Table 7.18). -/
def RT_ACC_ERR_UNIT : RegField := ⟨.rt, 0x418, 8, 16, 16, .ro, 0x0⟩
/-- RT_ACC_ERR.DEVICE (Table 7.18). -/
def RT_ACC_ERR_DEVICE : RegField := ⟨.rt, 0x418, 8, 0, 15, .ro, 0x0⟩
/-- RT_ACC_ERR_ADDR.ADDR (Table 7.18). -/
def RT_ACC_ERR_ADDR_ADDR : RegField := ⟨.rt, 0x420, 8, 0, 64, .ro, 0x0⟩
/-- RT_ACC_ERR_WHEN.BEAT (Table 7.18). -/
def RT_ACC_ERR_WHEN_BEAT : RegField := ⟨.rt, 0x428, 8, 0, 64, .ro, 0x0⟩
/-- RT_PIPE_MISMATCH.COUNT (Table 7.13). -/
def RT_PIPE_MISMATCH_COUNT : RegField := ⟨.rt, 0x500, 8, 0, 16, .ro, 0x0⟩
/-- RT_STEP_STATUS.RESIDUE (Table 7.13). -/
def RT_STEP_STATUS_RESIDUE : RegField := ⟨.rt, 0x700, 8, 3, 1, .ro, 0x0⟩
/-- RT_STEP_STATUS.OVF (Table 7.13). -/
def RT_STEP_STATUS_OVF : RegField := ⟨.rt, 0x700, 8, 2, 1, .ro, 0x0⟩
/-- RT_STEP_STATUS.NF (Table 7.13). -/
def RT_STEP_STATUS_NF : RegField := ⟨.rt, 0x700, 8, 1, 1, .ro, 0x0⟩
/-- RT_STEP_STATUS.UNCLEAN (Table 7.13). -/
def RT_STEP_STATUS_UNCLEAN : RegField := ⟨.rt, 0x700, 8, 0, 1, .ro, 0x0⟩
/-- RT_CKPT_AREA.BASE (Table 10.11). -/
def RT_CKPT_AREA_BASE : RegField := ⟨.rt, 0x800, 8, 0, 38, .rws, 0x0⟩
/-- RT_CKPT_SET.GLEN (Table 10.11). -/
def RT_CKPT_SET_GLEN : RegField := ⟨.rt, 0x808, 8, 32, 32, .rws, 0x0⟩
/-- RT_CKPT_SET.MLEN (Table 10.11). -/
def RT_CKPT_SET_MLEN : RegField := ⟨.rt, 0x808, 8, 0, 32, .rws, 0x0⟩
/-- RT_CKPT_STATUS.BUSY (Table 10.11). -/
def RT_CKPT_STATUS_BUSY : RegField := ⟨.rt, 0x810, 8, 63, 1, .ro, 0x0⟩
/-- RT_CKPT_STATUS.LATE (Table 10.11). -/
def RT_CKPT_STATUS_LATE : RegField := ⟨.rt, 0x810, 8, 62, 1, .w1c, 0x0⟩
/-- RT_CKPT_STATUS.FAULT (Table 10.11). -/
def RT_CKPT_STATUS_FAULT : RegField := ⟨.rt, 0x810, 8, 61, 1, .w1c, 0x0⟩
/-- RT_CKPT_STATUS.NEXT_SLOT (Table 10.11). -/
def RT_CKPT_STATUS_NEXT_SLOT : RegField := ⟨.rt, 0x810, 8, 60, 1, .ro, 0x0⟩
/-- RT_CKPT_STATUS.LAST_DONE (Table 10.11). -/
def RT_CKPT_STATUS_LAST_DONE : RegField := ⟨.rt, 0x810, 8, 0, 48, .ro, 0x0⟩
/-- RT_RGN_CFG.EN (Table 7.19). -/
def RT_RGN_CFG_EN : RegField := ⟨.rt, 0x1000, 8, 63, 1, .rws, 0x0⟩
/-- RT_RGN_CFG.COUNT (Table 7.19). -/
def RT_RGN_CFG_COUNT : RegField := ⟨.rt, 0x1000, 8, 32, 23, .rws, 0x0⟩
/-- RT_RGN_CFG.BASE (Table 7.19). -/
def RT_RGN_CFG_BASE : RegField := ⟨.rt, 0x1000, 8, 0, 22, .rws, 0x0⟩
/-- RT_RGN_STAT.DUE_OFS (Table 7.20). -/
def RT_RGN_STAT_DUE_OFS : RegField := ⟨.rt, 0x2000, 64, 40, 8, .ro, 0x0⟩
/-- RT_RGN_STAT.OUTFMT (Table 7.20). -/
def RT_RGN_STAT_OUTFMT : RegField := ⟨.rt, 0x2000, 64, 32, 2, .ro, 0x0⟩
/-- RT_RGN_STAT.W (Table 7.20). -/
def RT_RGN_STAT_W : RegField := ⟨.rt, 0x2000, 64, 16, 10, .ro, 0x0⟩
/-- RT_RGN_STAT.OVERCOUNT (Table 7.20). -/
def RT_RGN_STAT_OVERCOUNT : RegField := ⟨.rt, 0x2000, 64, 9, 1, .ro, 0x0⟩
/-- RT_RGN_STAT.INCOMPLETE (Table 7.20). -/
def RT_RGN_STAT_INCOMPLETE : RegField := ⟨.rt, 0x2000, 64, 8, 1, .ro, 0x0⟩
/-- RT_RGN_STAT.WMISMATCH (Table 7.20). -/
def RT_RGN_STAT_WMISMATCH : RegField := ⟨.rt, 0x2000, 64, 7, 1, .ro, 0x0⟩
/-- RT_RGN_STAT.RESIDUE (Table 7.20). -/
def RT_RGN_STAT_RESIDUE : RegField := ⟨.rt, 0x2000, 64, 6, 1, .ro, 0x0⟩
/-- RT_RGN_STAT.OVF (Table 7.20). -/
def RT_RGN_STAT_OVF : RegField := ⟨.rt, 0x2000, 64, 5, 1, .ro, 0x0⟩
/-- RT_RGN_STAT.NF (Table 7.20). -/
def RT_RGN_STAT_NF : RegField := ⟨.rt, 0x2000, 64, 4, 1, .ro, 0x0⟩
/-- RT_RGN_STAT.STATE (Table 7.20). -/
def RT_RGN_STAT_STATE : RegField := ⟨.rt, 0x2000, 64, 0, 3, .ro, 0x0⟩
/-- RT_RGN_EXPECT.EXPECT (Table 7.20). -/
def RT_RGN_EXPECT_EXPECT : RegField := ⟨.rt, 0x2008, 64, 0, 48, .ro, 0x0⟩
/-- RT_RGN_RES.FR (Table 7.20). -/
def RT_RGN_RES_FR : RegField := ⟨.rt, 0x2010, 64, 32, 31, .ro, 0x0⟩
/-- RT_RGN_RES.RR (Table 7.20). -/
def RT_RGN_RES_RR : RegField := ⟨.rt, 0x2010, 64, 0, 31, .ro, 0x0⟩
/-- RT_RGN_OPENBEAT.BEAT (Table 7.20). -/
def RT_RGN_OPENBEAT_BEAT : RegField := ⟨.rt, 0x2018, 64, 0, 64, .ro, 0x0⟩
/-- RT_RGN_OUT.OUTADDR (Table 7.20). -/
def RT_RGN_OUT_OUTADDR : RegField := ⟨.rt, 0x2020, 64, 0, 63, .ro, 0x0⟩
/-- RT_RGN_DONE.DONE_EN (Table 7.20). -/
def RT_RGN_DONE_DONE_EN : RegField := ⟨.rt, 0x2028, 64, 48, 1, .ro, 0x0⟩
/-- RT_RGN_DONE.DONE_CREF (Table 7.20). -/
def RT_RGN_DONE_DONE_CREF : RegField := ⟨.rt, 0x2028, 64, 0, 32, .ro, 0x0⟩
/-- RT_STOREMAP.VALID (Table 7.21). -/
def RT_STOREMAP_VALID : RegField := ⟨.rt, 0x4000, 8, 63, 1, .rws, 0x0⟩
/-- RT_STOREMAP.LINE (Table 7.21). -/
def RT_STOREMAP_LINE : RegField := ⟨.rt, 0x4000, 8, 0, 13, .rws, 0x0⟩
/-- RT_CNT_S.S (Table 2.16). -/
def RT_CNT_S_S : RegField := ⟨.rt, 0xF00000, 64, 0, 48, .ro, 0x0⟩
/-- RT_CNT_C.C (Table 2.17). -/
def RT_CNT_C_C : RegField := ⟨.rt, 0xF00008, 64, 0, 48, .ro, 0x0⟩
/-- RT_CNT_VAL.VALUE (Table 2.18). -/
def RT_CNT_VAL_VALUE : RegField := ⟨.rt, 0xF00010, 64, 0, 48, .ro, 0x0⟩
/-- RT_CNT_WAIT.REMOTE_COUNT (Table 2.19). -/
def RT_CNT_WAIT_REMOTE_COUNT : RegField := ⟨.rt, 0xF00018, 64, 32, 16, .ro, 0x0⟩
/-- RT_CNT_WAIT.LOCAL (Table 2.19). -/
def RT_CNT_WAIT_LOCAL : RegField := ⟨.rt, 0xF00018, 64, 0, 8, .ro, 0x0⟩
/-- RT_CNT_LAST.CYCLE (Table 2.20). -/
def RT_CNT_LAST_CYCLE : RegField := ⟨.rt, 0xF00020, 64, 48, 16, .ro, 0x0⟩
/-- RT_CNT_LAST.UNIT (Table 2.20). -/
def RT_CNT_LAST_UNIT : RegField := ⟨.rt, 0xF00020, 64, 32, 16, .ro, 0x0⟩
/-- RT_CNT_LAST.VALID (Table 2.20). -/
def RT_CNT_LAST_VALID : RegField := ⟨.rt, 0xF00020, 64, 31, 1, .ro, 0x0⟩
/-- RT_CNT_LAST.DEVICE (Table 2.20). -/
def RT_CNT_LAST_DEVICE : RegField := ⟨.rt, 0xF00020, 64, 0, 15, .ro, 0x0⟩
/-- RT_CNT_LASTBEAT.BEAT (Table 2.21). -/
def RT_CNT_LASTBEAT_BEAT : RegField := ⟨.rt, 0xF00028, 64, 0, 64, .ro, 0x0⟩
/-- RT_SY_ERR.VALID (Table 2.22). -/
def RT_SY_ERR_VALID : RegField := ⟨.rt, 0xF02000, 8, 63, 1, .w1c, 0x0⟩
/-- RT_SY_ERR.MORE (Table 2.22). -/
def RT_SY_ERR_MORE : RegField := ⟨.rt, 0xF02000, 8, 62, 1, .w1c, 0x0⟩
/-- RT_SY_ERR.CODE (Table 2.22). -/
def RT_SY_ERR_CODE : RegField := ⟨.rt, 0xF02000, 8, 58, 4, .ro, 0x0⟩
/-- RT_SY_ERR.UNIT (Table 2.22). -/
def RT_SY_ERR_UNIT : RegField := ⟨.rt, 0xF02000, 8, 32, 16, .ro, 0x0⟩
/-- RT_SY_ERR.COUNTER (Table 2.22). -/
def RT_SY_ERR_COUNTER : RegField := ⟨.rt, 0xF02000, 8, 15, 8, .ro, 0x0⟩
/-- RT_SY_ERR.DEVICE (Table 2.22). -/
def RT_SY_ERR_DEVICE : RegField := ⟨.rt, 0xF02000, 8, 0, 15, .ro, 0x0⟩
/-- LK_CFG.DIRN (Table 9.9). -/
def LK_CFG_DIRN : RegField := ⟨.lk, 0x0, 8, 5, 1, .rws, 0x0⟩
/-- LK_CFG.DIM (Table 9.9). -/
def LK_CFG_DIM : RegField := ⟨.lk, 0x0, 8, 2, 3, .rws, 0x0⟩
/-- LK_CFG.EN (Table 9.9). -/
def LK_CFG_EN : RegField := ⟨.lk, 0x0, 8, 0, 1, .rws, 0x0⟩
/-- LK_LANEMAP.SPARE_FOR (Table 9.10). -/
def LK_LANEMAP_SPARE_FOR : RegField := ⟨.lk, 0x8, 8, 0, 4, .rws, 0xF⟩
/-- LK_LANE_CFG.SER_LIMIT (Table 9.11). -/
def LK_LANE_CFG_SER_LIMIT : RegField := ⟨.lk, 0x10, 8, 0, 32, .rws, 0x4000⟩
/-- LK_STATUS.RETRAINS (Table 9.12). -/
def LK_STATUS_RETRAINS : RegField := ⟨.lk, 0x18, 8, 48, 16, .ro, 0x0⟩
/-- LK_STATUS.SPARE_IN_USE (Table 9.12). -/
def LK_STATUS_SPARE_IN_USE : RegField := ⟨.lk, 0x18, 8, 36, 4, .ro, 0xF⟩
/-- LK_STATUS.AUTO_SPARED (Table 9.12). -/
def LK_STATUS_AUTO_SPARED : RegField := ⟨.lk, 0x18, 8, 35, 1, .w1c, 0x0⟩
/-- LK_STATUS.DOWN_CAUSE (Table 9.12). -/
def LK_STATUS_DOWN_CAUSE : RegField := ⟨.lk, 0x18, 8, 4, 4, .ro, 0x0⟩
/-- LK_STATUS.STATE (Table 9.12). -/
def LK_STATUS_STATE : RegField := ⟨.lk, 0x18, 8, 0, 3, .ro, 0x0⟩
/-- LK_FAR.VALID (Table 9.13). -/
def LK_FAR_VALID : RegField := ⟨.lk, 0x20, 8, 19, 1, .ro, 0x0⟩
/-- LK_FAR.DIRN (Table 9.13). -/
def LK_FAR_DIRN : RegField := ⟨.lk, 0x20, 8, 18, 1, .ro, 0x0⟩
/-- LK_FAR.DIM (Table 9.13). -/
def LK_FAR_DIM : RegField := ⟨.lk, 0x20, 8, 15, 3, .ro, 0x0⟩
/-- LK_FAR.PHYS (Table 9.13). -/
def LK_FAR_PHYS : RegField := ⟨.lk, 0x20, 8, 0, 15, .ro, 0x0⟩
/-- LK_LANE_HEALTH.FAILED (Table 9.14). -/
def LK_LANE_HEALTH_FAILED : RegField := ⟨.lk, 0x28, 8, 0, 9, .ro, 0x0⟩
/-- LK_HOPLAT.HOP_PS (Table 9.13). -/
def LK_HOPLAT_HOP_PS : RegField := ⟨.lk, 0x30, 8, 0, 32, .ro, 0x0⟩
/-- LK_ERR.VALID (Table 9.15). -/
def LK_ERR_VALID : RegField := ⟨.lk, 0x38, 8, 63, 1, .w1c, 0x0⟩
/-- LK_ERR.MORE (Table 9.15). -/
def LK_ERR_MORE : RegField := ⟨.lk, 0x38, 8, 62, 1, .w1c, 0x0⟩
/-- LK_ERR.CODE (Table 9.15). -/
def LK_ERR_CODE : RegField := ⟨.lk, 0x38, 8, 52, 4, .ro, 0x0⟩
/-- LK_ERR.KIND (Table 9.15). -/
def LK_ERR_KIND : RegField := ⟨.lk, 0x38, 8, 48, 4, .ro, 0x0⟩
/-- LK_ERR.SRC_UNIT (Table 9.15). -/
def LK_ERR_SRC_UNIT : RegField := ⟨.lk, 0x38, 8, 16, 16, .ro, 0x0⟩
/-- LK_ERR.SRC_DEV (Table 9.15). -/
def LK_ERR_SRC_DEV : RegField := ⟨.lk, 0x38, 8, 0, 15, .ro, 0x0⟩
/-- LK_ERR_WHEN.BEAT (Table 9.15). -/
def LK_ERR_WHEN_BEAT : RegField := ⟨.lk, 0x40, 8, 0, 64, .ro, 0x0⟩
/-- LK_CNT_UNCORR.COUNT (Table 9.16). -/
def LK_CNT_UNCORR_COUNT : RegField := ⟨.lk, 0x48, 8, 0, 64, .ro, 0x0⟩
/-- LK_CNT_CRC.COUNT (Table 9.16). -/
def LK_CNT_CRC_COUNT : RegField := ⟨.lk, 0x50, 8, 0, 64, .ro, 0x0⟩
/-- LK_CNT_REPLAY.COUNT (Table 9.16). -/
def LK_CNT_REPLAY_COUNT : RegField := ⟨.lk, 0x58, 8, 0, 64, .ro, 0x0⟩
/-- LK_CNT_TXDATA.COUNT (Table 9.16). -/
def LK_CNT_TXDATA_COUNT : RegField := ⟨.lk, 0x60, 8, 0, 64, .ro, 0x0⟩
/-- LK_CNT_RXDATA.COUNT (Table 9.16). -/
def LK_CNT_RXDATA_COUNT : RegField := ⟨.lk, 0x68, 8, 0, 64, .ro, 0x0⟩
/-- LK_CNT_CWAIT.COUNT (Table 9.16). -/
def LK_CNT_CWAIT_COUNT : RegField := ⟨.lk, 0x70, 8, 0, 64, .ro, 0x0⟩
/-- LK_LANE_SER.LAST (Table 9.14). -/
def LK_LANE_SER_LAST : RegField := ⟨.lk, 0x100, 8, 32, 32, .ro, 0x0⟩
/-- LK_LANE_SER.CURRENT (Table 9.14). -/
def LK_LANE_SER_CURRENT : RegField := ⟨.lk, 0x100, 8, 0, 32, .ro, 0x0⟩
/-- LK_TOPO.NDIM (Table 9.17). -/
def LK_TOPO_NDIM : RegField := ⟨.lk, 0x8000, 8, 48, 3, .rws, 0x0⟩
/-- LK_TOPO.PHYS (Table 9.17). -/
def LK_TOPO_PHYS : RegField := ⟨.lk, 0x8000, 8, 32, 15, .rws, 0x0⟩
/-- LK_TOPO.SELF (Table 9.17). -/
def LK_TOPO_SELF : RegField := ⟨.lk, 0x8000, 8, 0, 15, .rws, 0x0⟩
/-- LK_DIMSIZE.S4 (Table 9.17). -/
def LK_DIMSIZE_S4 : RegField := ⟨.lk, 0x8008, 8, 24, 6, .rws, 0x0⟩
/-- LK_DIMSIZE.S3 (Table 9.17). -/
def LK_DIMSIZE_S3 : RegField := ⟨.lk, 0x8008, 8, 18, 6, .rws, 0x0⟩
/-- LK_DIMSIZE.S2 (Table 9.17). -/
def LK_DIMSIZE_S2 : RegField := ⟨.lk, 0x8008, 8, 12, 6, .rws, 0x0⟩
/-- LK_DIMSIZE.S1 (Table 9.17). -/
def LK_DIMSIZE_S1 : RegField := ⟨.lk, 0x8008, 8, 6, 6, .rws, 0x0⟩
/-- LK_DIMSIZE.S0 (Table 9.17). -/
def LK_DIMSIZE_S0 : RegField := ⟨.lk, 0x8008, 8, 0, 6, .rws, 0x0⟩
/-- LK_ALIAS.VALID (Table 9.17). -/
def LK_ALIAS_VALID : RegField := ⟨.lk, 0x8100, 8, 63, 1, .rws, 0x0⟩
/-- LK_ALIAS.PHYS (Table 9.17). -/
def LK_ALIAS_PHYS : RegField := ⟨.lk, 0x8100, 8, 32, 15, .rws, 0x0⟩
/-- LK_ALIAS.LOGICAL (Table 9.17). -/
def LK_ALIAS_LOGICAL : RegField := ⟨.lk, 0x8100, 8, 0, 15, .rws, 0x0⟩
/-- EN_PORT_STATUS.QPS (Table 12.8). -/
def EN_PORT_STATUS_QPS : RegField := ⟨.en, 0x0, 8, 16, 7, .ro, 0x0⟩
/-- EN_PORT_STATUS.TIME_LOCKED (Table 12.8). -/
def EN_PORT_STATUS_TIME_LOCKED : RegField := ⟨.en, 0x0, 8, 3, 1, .ro, 0x0⟩
/-- EN_PORT_STATUS.INTAKE_BUSY (Table 12.8). -/
def EN_PORT_STATUS_INTAKE_BUSY : RegField := ⟨.en, 0x0, 8, 2, 1, .ro, 0x0⟩
/-- EN_PORT_STATUS.PCS_LOCK (Table 12.8). -/
def EN_PORT_STATUS_PCS_LOCK : RegField := ⟨.en, 0x0, 8, 1, 1, .ro, 0x0⟩
/-- EN_PORT_STATUS.LINK_UP (Table 12.8). -/
def EN_PORT_STATUS_LINK_UP : RegField := ⟨.en, 0x0, 8, 0, 1, .ro, 0x0⟩
/-- EN_CNT_RXFRAME.COUNT (Table 12.9). -/
def EN_CNT_RXFRAME_COUNT : RegField := ⟨.en, 0x100, 8, 0, 64, .ro, 0x0⟩
/-- EN_CNT_RXDROP.COUNT (Table 12.9). -/
def EN_CNT_RXDROP_COUNT : RegField := ⟨.en, 0x108, 8, 0, 64, .ro, 0x0⟩
/-- EN_CNT_FEC_CORR.COUNT (Table 12.9). -/
def EN_CNT_FEC_CORR_COUNT : RegField := ⟨.en, 0x110, 8, 0, 64, .ro, 0x0⟩
/-- EN_CNT_FEC_UNCORR.COUNT (Table 12.9). -/
def EN_CNT_FEC_UNCORR_COUNT : RegField := ⟨.en, 0x118, 8, 0, 64, .ro, 0x0⟩
/-- EN_CNT_INTAKE_DROP.COUNT (Table 12.9). -/
def EN_CNT_INTAKE_DROP_COUNT : RegField := ⟨.en, 0x120, 8, 0, 64, .ro, 0x0⟩
/-- EN_CNT_INTAKE_BYTES.COUNT (Table 12.9). -/
def EN_CNT_INTAKE_BYTES_COUNT : RegField := ⟨.en, 0x128, 8, 0, 64, .ro, 0x0⟩
/-- EN_CNT_CNP_TX.COUNT (Table 12.9). -/
def EN_CNT_CNP_TX_COUNT : RegField := ⟨.en, 0x130, 8, 0, 64, .ro, 0x0⟩
/-- EN_CNT_CNP_RX.COUNT (Table 12.9). -/
def EN_CNT_CNP_RX_COUNT : RegField := ⟨.en, 0x138, 8, 0, 64, .ro, 0x0⟩
/-- EN_CNT_ICP.COUNT (Table 12.9). -/
def EN_CNT_ICP_COUNT : RegField := ⟨.en, 0x140, 8, 0, 64, .ro, 0x0⟩
/-- EN_CNT_NOTCMD.COUNT (Table 12.9). -/
def EN_CNT_NOTCMD_COUNT : RegField := ⟨.en, 0x148, 8, 0, 64, .ro, 0x0⟩
/-- EN_WIN.EN (Table 12.7). -/
def EN_WIN_EN : RegField := ⟨.en, 0x1008, 16, 63, 1, .rws, 0x0⟩
/-- EN_WIN.RD (Table 12.7). -/
def EN_WIN_RD : RegField := ⟨.en, 0x1008, 16, 62, 1, .rws, 0x0⟩
/-- EN_WIN.WR (Table 12.7). -/
def EN_WIN_WR : RegField := ⟨.en, 0x1008, 16, 61, 1, .rws, 0x0⟩
/-- EN_WIN.LSIG (Table 12.7). -/
def EN_WIN_LSIG : RegField := ⟨.en, 0x1008, 16, 60, 1, .rws, 0x0⟩
/-- EN_WIN.CIDX (Table 12.7). -/
def EN_WIN_CIDX : RegField := ⟨.en, 0x1008, 16, 48, 8, .rws, 0x0⟩
/-- EN_WIN.RKEY (Table 12.7). -/
def EN_WIN_RKEY : RegField := ⟨.en, 0x1008, 16, 0, 32, .rws, 0x0⟩
/-- EN_WIN.LEN (Table 12.7). -/
def EN_WIN_LEN : RegField := ⟨.en, 0x1000, 16, 38, 26, .rws, 0x0⟩
/-- EN_WIN.BASE (Table 12.7). -/
def EN_WIN_BASE : RegField := ⟨.en, 0x1000, 16, 10, 28, .rws, 0x0⟩
/-- PW_BUDGET.BUDGET (Table 13.9). -/
def PW_BUDGET_BUDGET : RegField := ⟨.pw, 0x0, 8, 0, 32, .rws, 0x2BF20⟩
/-- PW_CEIL.TEMP_CEIL (Table 13.9). -/
def PW_CEIL_TEMP_CEIL : RegField := ⟨.pw, 0x8, 8, 16, 12, .rws, 0x5F0⟩
/-- PW_CEIL.TILE_CEIL (Table 13.9). -/
def PW_CEIL_TILE_CEIL : RegField := ⟨.pw, 0x8, 8, 0, 9, .rws, 0x100⟩
/-- PW_FLOOR.FLOOR (Table 13.9). -/
def PW_FLOOR_FLOOR : RegField := ⟨.pw, 0x10, 8, 0, 9, .rws, 0xC0⟩
/-- PW_STATUS.WINDOW (Table 13.10). -/
def PW_STATUS_WINDOW : RegField := ⟨.pw, 0x18, 8, 48, 16, .ro, 0x0⟩
/-- PW_STATUS.K (Table 13.10). -/
def PW_STATUS_K : RegField := ⟨.pw, 0x18, 8, 32, 9, .ro, 0x0⟩
/-- PW_STATUS.K_BUDGET (Table 13.10). -/
def PW_STATUS_K_BUDGET : RegField := ⟨.pw, 0x18, 8, 16, 9, .ro, 0x0⟩
/-- PW_STATUS.K_PROT (Table 13.10). -/
def PW_STATUS_K_PROT : RegField := ⟨.pw, 0x18, 8, 0, 9, .ro, 0x0⟩
/-- PW_POWER.MEAN_10US (Table 13.10). -/
def PW_POWER_MEAN_10US : RegField := ⟨.pw, 0x20, 8, 32, 32, .ro, 0x0⟩
/-- PW_POWER.MEAN_1MS (Table 13.10). -/
def PW_POWER_MEAN_1MS : RegField := ⟨.pw, 0x20, 8, 0, 32, .ro, 0x0⟩
/-- PW_TEMP.MAX (Table 13.10). -/
def PW_TEMP_MAX : RegField := ⟨.pw, 0x28, 8, 0, 16, .ro, 0x0⟩
/-- PW_SWALLOW.COUNT (Table 13.10). -/
def PW_SWALLOW_COUNT : RegField := ⟨.pw, 0x40, 8, 0, 64, .ro, 0x0⟩
/-- PW_ERR.VALID (Table 13.10). -/
def PW_ERR_VALID : RegField := ⟨.pw, 0x80, 8, 63, 1, .w1c, 0x0⟩
/-- PW_ERR.MORE (Table 13.10). -/
def PW_ERR_MORE : RegField := ⟨.pw, 0x80, 8, 62, 1, .w1c, 0x0⟩
/-- PW_ERR.CODE (Table 13.10). -/
def PW_ERR_CODE : RegField := ⟨.pw, 0x80, 8, 52, 4, .ro, 0x0⟩
/-- PW_ERR.ITEM (Table 13.10). -/
def PW_ERR_ITEM : RegField := ⟨.pw, 0x80, 8, 48, 4, .ro, 0x0⟩
/-- PW_ERR.WINDOW (Table 13.10). -/
def PW_ERR_WINDOW : RegField := ⟨.pw, 0x80, 8, 32, 16, .ro, 0x0⟩
/-- RS_CAUSE.DETAIL (Table 13.11). -/
def RS_CAUSE_DETAIL : RegField := ⟨.rs, 0x0, 8, 16, 16, .ro, 0x0⟩
/-- RS_CAUSE.OFF_REASON (Table 13.11). -/
def RS_CAUSE_OFF_REASON : RegField := ⟨.rs, 0x0, 8, 8, 8, .ro, 0x0⟩
/-- RS_CAUSE.CAUSE (Table 13.11). -/
def RS_CAUSE_CAUSE : RegField := ⟨.rs, 0x0, 8, 0, 8, .ro, 0x1⟩
/-- RS_CAUSE_BEAT.BEAT (Table 13.11). -/
def RS_CAUSE_BEAT_BEAT : RegField := ⟨.rs, 0x8, 8, 0, 64, .ro, 0x0⟩
/-- RS_STRAPS.SMB_ADDR (Table 13.12). -/
def RS_STRAPS_SMB_ADDR : RegField := ⟨.rs, 0x10, 8, 1, 7, .ro, 0x0⟩
/-- RS_STRAPS.RST_MODE (Table 13.12). -/
def RS_STRAPS_RST_MODE : RegField := ⟨.rs, 0x10, 8, 0, 1, .ro, 0x0⟩
/-- RS_BOOT.PHASE (Table 13.12). -/
def RS_BOOT_PHASE : RegField := ⟨.rs, 0x18, 8, 0, 4, .ro, 0x0⟩
/-- RS_QUIET_ROWS.ROWS (Table 13.12). -/
def RS_QUIET_ROWS_ROWS : RegField := ⟨.rs, 0x20, 8, 0, 48, .ro, 0x0⟩
/-- RS_QUIET_OTHER.PORTS (Table 13.12). -/
def RS_QUIET_OTHER_PORTS : RegField := ⟨.rs, 0x30, 8, 32, 2, .ro, 0x0⟩
/-- RS_QUIET_OTHER.LINKS (Table 13.12). -/
def RS_QUIET_OTHER_LINKS : RegField := ⟨.rs, 0x30, 8, 8, 24, .ro, 0x0⟩
/-- RS_QUIET_OTHER.RVES (Table 13.12). -/
def RS_QUIET_OTHER_RVES : RegField := ⟨.rs, 0x30, 8, 0, 8, .ro, 0x0⟩
/-- RS_US_STATUS.THERM (Table 13.12). -/
def RS_US_STATUS_THERM : RegField := ⟨.rs, 0x40, 8, 16, 1, .ro, 0x0⟩
/-- RS_US_STATUS.TRIP_SRC (Table 13.12). -/
def RS_US_STATUS_TRIP_SRC : RegField := ⟨.rs, 0x40, 8, 8, 8, .ro, 0x0⟩
/-- RS_US_STATUS.STBY_REFUSED (Table 13.12). -/
def RS_US_STATUS_STBY_REFUSED : RegField := ⟨.rs, 0x40, 8, 7, 1, .w1c, 0x0⟩
/-- RS_US_STATUS.TRIP (Table 13.12). -/
def RS_US_STATUS_TRIP : RegField := ⟨.rs, 0x40, 8, 6, 1, .ro, 0x0⟩
/-- RS_US_STATUS.VIN_UV (Table 13.12). -/
def RS_US_STATUS_VIN_UV : RegField := ⟨.rs, 0x40, 8, 5, 1, .ro, 0x0⟩
/-- RS_US_STATUS.VIN_OV (Table 13.12). -/
def RS_US_STATUS_VIN_OV : RegField := ⟨.rs, 0x40, 8, 4, 1, .ro, 0x0⟩
/-- RS_US_STATUS.AUX_UV (Table 13.12). -/
def RS_US_STATUS_AUX_UV : RegField := ⟨.rs, 0x40, 8, 3, 1, .ro, 0x0⟩
/-- RS_US_STATUS.LEAK (Table 13.12). -/
def RS_US_STATUS_LEAK : RegField := ⟨.rs, 0x40, 8, 2, 1, .ro, 0x0⟩
/-- RS_US_STATUS.ABSENT (Table 13.12). -/
def RS_US_STATUS_ABSENT : RegField := ⟨.rs, 0x40, 8, 1, 1, .ro, 0x0⟩
/-- RS_US_STATUS.MARGIN_LOW (Table 13.12). -/
def RS_US_STATUS_MARGIN_LOW : RegField := ⟨.rs, 0x40, 8, 0, 1, .ro, 0x0⟩
/-- RS_RTC.SECONDS (Table 13.12). -/
def RS_RTC_SECONDS : RegField := ⟨.rs, 0x48, 8, 15, 49, .rw, 0x0⟩
/-- RS_RTC.SUB (Table 13.12). -/
def RS_RTC_SUB : RegField := ⟨.rs, 0x48, 8, 0, 15, .rw, 0x0⟩
/-- RS_RTC_ALARM.EN (Table 13.12). -/
def RS_RTC_ALARM_EN : RegField := ⟨.rs, 0x50, 8, 63, 1, .rw, 0x0⟩
/-- RS_RTC_ALARM.ALARM (Table 13.12). -/
def RS_RTC_ALARM_ALARM : RegField := ⟨.rs, 0x50, 8, 0, 49, .rw, 0x0⟩
/-- RS_STANDBY.ENTER (Table 13.12). -/
def RS_STANDBY_ENTER : RegField := ⟨.rs, 0x58, 8, 0, 1, .wo, 0x0⟩
/-- RS_WDOG.COUNT (Table 13.12). -/
def RS_WDOG_COUNT : RegField := ⟨.rs, 0x60, 8, 0, 32, .ro, 0x0⟩
/-- SC_FW_STATUS.SVN_FLOOR (Table 14.8). -/
def SC_FW_STATUS_SVN_FLOOR : RegField := ⟨.sc, 0x0, 8, 32, 32, .ro, 0x0⟩
/-- SC_FW_STATUS.LAST (Table 14.8). -/
def SC_FW_STATUS_LAST : RegField := ⟨.sc, 0x0, 8, 24, 8, .ro, 0x0⟩
/-- SC_FW_STATUS.OWNER (Table 14.8). -/
def SC_FW_STATUS_OWNER : RegField := ⟨.sc, 0x0, 8, 7, 1, .ro, 0x0⟩
/-- SC_FW_STATUS.LOCK (Table 14.8). -/
def SC_FW_STATUS_LOCK : RegField := ⟨.sc, 0x0, 8, 6, 1, .ro, 0x0⟩
/-- SC_FW_STATUS.LATE (Table 14.8). -/
def SC_FW_STATUS_LATE : RegField := ⟨.sc, 0x0, 8, 5, 1, .ro, 0x0⟩
/-- SC_FW_STATUS.FALLBACK (Table 14.8). -/
def SC_FW_STATUS_FALLBACK : RegField := ⟨.sc, 0x0, 8, 4, 1, .ro, 0x0⟩
/-- SC_FW_STATUS.ACTIVE (Table 14.8). -/
def SC_FW_STATUS_ACTIVE : RegField := ⟨.sc, 0x0, 8, 3, 1, .ro, 0x0⟩
/-- SC_FW_STATUS.RECORDS (Table 14.8). -/
def SC_FW_STATUS_RECORDS : RegField := ⟨.sc, 0x0, 8, 2, 1, .ro, 0x0⟩
/-- SC_FW_STATUS.STATE (Table 14.8). -/
def SC_FW_STATUS_STATE : RegField := ⟨.sc, 0x0, 8, 0, 2, .ro, 0x0⟩
/-- SC_FW_SCHED.VALID (Table 14.8). -/
def SC_FW_SCHED_VALID : RegField := ⟨.sc, 0x8, 8, 63, 1, .ro, 0x0⟩
/-- SC_FW_SCHED.ACT_BEAT (Table 14.8). -/
def SC_FW_SCHED_ACT_BEAT : RegField := ⟨.sc, 0x8, 8, 0, 63, .ro, 0x0⟩
/-- SC_MEAS.VALUE (Table 14.9). -/
def SC_MEAS_VALUE : RegField := ⟨.sc, 0x100, 64, 0, 64, .ro, 0x0⟩
/-- SC_RPMC.COUNT (Table 14.9). -/
def SC_RPMC_COUNT : RegField := ⟨.sc, 0x300, 8, 0, 32, .ro, 0x0⟩

end F

/-! ## Registers of each block -/

/-- The TL block. -/
def regsTL : List RegInfo := [
  ⟨.TL_ID, .tl, 0x0, 1, 8, 1, false, false,
    [F.TL_ID_DEVICE, F.TL_ID_STEPPING, F.TL_ID_PROFILE, F.TL_ID_PHYS, F.TL_ID_TILE]⟩,
  ⟨.TL_PC, .tl, 0x8, 1, 8, 1, false, false,
    [F.TL_PC_PC]⟩,
  ⟨.TL_ENTRY, .tl, 0x10, 1, 8, 1, false, false,
    [F.TL_ENTRY_ENTRY]⟩,
  ⟨.TL_STATUS, .tl, 0x18, 1, 8, 1, false, false,
    [F.TL_STATUS_SSTEP, F.TL_STATUS_LOOP, F.TL_STATUS_UNCLEAN, F.TL_STATUS_STATE]⟩,
  ⟨.TL_CYCLE, .tl, 0x20, 1, 8, 1, false, false,
    [F.TL_CYCLE_CYCLE]⟩,
  ⟨.TL_BEAT, .tl, 0x28, 1, 8, 1, false, false,
    [F.TL_BEAT_BEAT]⟩,
  ⟨.TL_LOOP, .tl, 0x30, 1, 8, 1, false, false,
    [F.TL_LOOP_LEN, F.TL_LOOP_REMAIN]⟩,
  ⟨.TL_ERR_STATUS, .tl, 0x40, 1, 8, 1, false, false,
    [F.TL_ERR_STATUS_VALID, F.TL_ERR_STATUS_MORE, F.TL_ERR_STATUS_CODE, F.TL_ERR_STATUS_SLOT, F.TL_ERR_STATUS_SLOTWORD]⟩,
  ⟨.TL_ERR_PC, .tl, 0x48, 1, 8, 1, false, false,
    [F.TL_ERR_PC_PC]⟩,
  ⟨.TL_ERR_INFO, .tl, 0x50, 1, 8, 1, false, false,
    [F.TL_ERR_INFO_INFO]⟩,
  ⟨.TL_ERR_WHEN, .tl, 0x58, 1, 8, 1, false, false,
    [F.TL_ERR_WHEN_BEAT, F.TL_ERR_WHEN_CYCLE]⟩,
  ⟨.TL_ERR_COUNT, .tl, 0x60, 1, 8, 1, false, false,
    [F.TL_ERR_COUNT_COUNT]⟩,
  ⟨.TL_PERF_ISSUE, .tl, 0x80, 1, 8, 1, false, false,
    [F.TL_PERF_ISSUE_COUNT]⟩,
  ⟨.TL_PERF_INTERLOCK, .tl, 0x88, 1, 8, 1, false, false,
    [F.TL_PERF_INTERLOCK_COUNT]⟩,
  ⟨.TL_PERF_SYNC, .tl, 0x90, 1, 8, 1, false, false,
    [F.TL_PERF_SYNC_COUNT]⟩,
  ⟨.TL_PERF_QUEUE, .tl, 0x98, 1, 8, 1, false, false,
    [F.TL_PERF_QUEUE_COUNT]⟩,
  ⟨.TL_PERF_BOUND, .tl, 0xA0, 1, 8, 1, false, false,
    [F.TL_PERF_BOUND_COUNT]⟩,
  ⟨.TL_SREG, .tl, 0x400, 32, 8, 1, false, false,
    [F.TL_SREG_VALUE]⟩,
  ⟨.TL_VREG, .tl, 0x800, 32, 64, 8, false, false,
    [F.TL_VREG_VALUE]⟩]

/-- The SP block. -/
def regsSP : List RegInfo := [
  ⟨.SP_CFG, .sp, 0x0, 1, 8, 1, true, false,
    [F.SP_CFG_MODE]⟩,
  ⟨.SP_BANKMASK, .sp, 0x8, 1, 8, 1, false, false,
    [F.SP_BANKMASK_MASK]⟩,
  ⟨.SP_BANKSTATE, .sp, 0x10, 1, 8, 1, false, false,
    [F.SP_BANKSTATE_ON]⟩,
  ⟨.SP_BANKWAKE, .sp, 0x18, 1, 8, 1, false, false,
    [F.SP_BANKWAKE_WAKING]⟩,
  ⟨.SP_ERR, .sp, 0x20, 1, 8, 1, false, false,
    [F.SP_ERR_VALID, F.SP_ERR_MORE, F.SP_ERR_CODE, F.SP_ERR_KIND, F.SP_ERR_OFFSET, F.SP_ERR_BANK, F.SP_ERR_ROW]⟩,
  ⟨.SP_ERR_WHEN, .sp, 0x28, 1, 8, 1, false, false,
    [F.SP_ERR_WHEN_BEAT, F.SP_ERR_WHEN_CYCLE]⟩,
  ⟨.SP_ERR_COUNT, .sp, 0x30, 1, 8, 1, false, false,
    [F.SP_ERR_COUNT_COUNT]⟩,
  ⟨.SP_MEMOP, .sp, 0x38, 1, 8, 1, false, false,
    [F.SP_MEMOP_OUTSTANDING]⟩,
  ⟨.SP_ROWERR, .sp, 0x40, 4, 8, 1, false, false,
    [F.SP_ROWERR_VALID, F.SP_ROWERR_COUNT, F.SP_ROWERR_BANK, F.SP_ROWERR_ROW]⟩,
  ⟨.SP_ROWERR_OVF, .sp, 0x60, 1, 8, 1, false, false,
    [F.SP_ROWERR_OVF_COUNT]⟩,
  ⟨.SP_PERF_MERGE, .sp, 0x68, 1, 8, 1, false, false,
    [F.SP_PERF_MERGE_COUNT]⟩,
  ⟨.SP_PERF_XWAIT, .sp, 0x70, 1, 8, 1, false, false,
    [F.SP_PERF_XWAIT_COUNT]⟩,
  ⟨.SP_ROWMAP_LO, .sp, 0x100, 48, 16, 1, false, false,
    [F.SP_ROWMAP_LO_ENTRY3, F.SP_ROWMAP_LO_ENTRY2, F.SP_ROWMAP_LO_ENTRY1, F.SP_ROWMAP_LO_ENTRY0]⟩,
  ⟨.SP_ROWMAP_HI, .sp, 0x108, 48, 16, 1, false, false,
    [F.SP_ROWMAP_HI_ENTRY7, F.SP_ROWMAP_HI_ENTRY6, F.SP_ROWMAP_HI_ENTRY5, F.SP_ROWMAP_HI_ENTRY4]⟩]

/-- The MX block. -/
def regsMX : List RegInfo := [
  ⟨.MX_SR_SEED, .mx, 0x0, 1, 8, 1, true, false,
    [F.MX_SR_SEED_SEED]⟩,
  ⟨.MX_SR_STEP, .mx, 0x8, 1, 8, 1, false, false,
    [F.MX_SR_STEP_STEP]⟩,
  ⟨.MX_STATUS, .mx, 0x10, 1, 8, 1, false, false,
    [F.MX_STATUS_NONFINITE, F.MX_STATUS_MMA_OUT, F.MX_STATUS_ACC1_KIND, F.MX_STATUS_ACC0_KIND, F.MX_STATUS_BUF1_NG, F.MX_STATUS_BUF1_VALID, F.MX_STATUS_BUF1_MT, F.MX_STATUS_BUF0_NG, F.MX_STATUS_BUF0_VALID, F.MX_STATUS_BUF0_MT]⟩,
  ⟨.MX_ERR, .mx, 0x18, 1, 8, 1, false, false,
    [F.MX_ERR_VALID, F.MX_ERR_MORE, F.MX_ERR_CODE, F.MX_ERR_FILLER, F.MX_ERR_PC]⟩,
  ⟨.MX_ERR_WHEN, .mx, 0x20, 1, 8, 1, false, false,
    [F.MX_ERR_WHEN_BEAT, F.MX_ERR_WHEN_CYCLE]⟩,
  ⟨.MX_ERR_COUNT, .mx, 0x28, 1, 8, 1, false, false,
    [F.MX_ERR_COUNT_COUNT]⟩,
  ⟨.MX_SR_DRAWS, .mx, 0x30, 4, 8, 1, false, false,
    [F.MX_SR_DRAWS_DRAWN]⟩,
  ⟨.MX_PERF_BUSY, .mx, 0x60, 1, 8, 1, false, false,
    [F.MX_PERF_BUSY_COUNT]⟩,
  ⟨.MX_PERF_FILL, .mx, 0x68, 1, 8, 1, false, false,
    [F.MX_PERF_FILL_COUNT]⟩,
  ⟨.MX_PERF_MAC, .mx, 0x70, 1, 8, 1, false, false,
    [F.MX_PERF_MAC_COUNT]⟩]

/-- The XT block. -/
def regsXT : List RegInfo := [
  ⟨.XC_XP_CFG, .xt, 0x0, 1, 8, 1, true, false,
    [F.XC_XP_CFG_LAST, F.XC_XP_CFG_EN]⟩,
  ⟨.XC_FE_CFG, .xt, 0x8, 1, 8, 1, false, false,
    [F.XC_FE_CFG_TIMEOUT]⟩,
  ⟨.XC_FE_STATUS, .xt, 0x10, 1, 8, 1, false, false,
    [F.XC_FE_STATUS_MC_WAIT, F.XC_FE_STATUS_FENCED, F.XC_FE_STATUS_WRITES, F.XC_FE_STATUS_READS, F.XC_FE_STATUS_ACTIVE, F.XC_FE_STATUS_QUEUED]⟩,
  ⟨.XC_FE_ERR, .xt, 0x18, 1, 8, 1, false, false,
    [F.XC_FE_ERR_VALID, F.XC_FE_ERR_MORE, F.XC_FE_ERR_CODE, F.XC_FE_ERR_MODE, F.XC_FE_ERR_DESC]⟩,
  ⟨.XC_FE_ERR_ADDR, .xt, 0x20, 1, 8, 1, false, false,
    [F.XC_FE_ERR_ADDR_ADDR]⟩,
  ⟨.XC_FE_ERR_WHEN, .xt, 0x28, 1, 8, 1, false, false,
    [F.XC_FE_ERR_WHEN_BEAT, F.XC_FE_ERR_WHEN_CYCLE]⟩,
  ⟨.XC_FE_ERR_COUNT, .xt, 0x30, 1, 8, 1, false, false,
    [F.XC_FE_ERR_COUNT_COUNT]⟩,
  ⟨.XC_PERF_XSEND, .xt, 0x40, 1, 8, 1, false, false,
    [F.XC_PERF_XSEND_COUNT]⟩,
  ⟨.XC_PERF_XRECV, .xt, 0x48, 1, 8, 1, false, false,
    [F.XC_PERF_XRECV_COUNT]⟩,
  ⟨.XC_PERF_PBYTES, .xt, 0x50, 1, 8, 1, false, false,
    [F.XC_PERF_PBYTES_COUNT]⟩,
  ⟨.XC_PERF_CWAIT, .xt, 0x58, 1, 8, 1, false, false,
    [F.XC_PERF_CWAIT_COUNT]⟩,
  ⟨.XC_XPE, .xt, 0x800, 384, 16, 2, true, false,
    [F.XC_XPE_CLASSMASK, F.XC_XPE_SIGB, F.XC_XPE_CIDX, F.XC_XPE_SIGEN, F.XC_XPE_LDIR, F.XC_XPE_TRACK, F.XC_XPE_DIR, F.XC_XPE_ROWSTEP, F.XC_XPE_ROW, F.XC_XPE_PERIOD, F.XC_XPE_COUNT, F.XC_XPE_START]⟩]

/-- The SYT block. -/
def regsSYT : List RegInfo := [
  ⟨.SY_CNT_S, .syt, 0x0, 64, 64, 1, false, false,
    [F.SY_CNT_S_S]⟩,
  ⟨.SY_CNT_C, .syt, 0x8, 64, 64, 1, false, false,
    [F.SY_CNT_C_C]⟩,
  ⟨.SY_CNT_VAL, .syt, 0x10, 64, 64, 1, false, false,
    [F.SY_CNT_VAL_VALUE]⟩,
  ⟨.SY_CNT_WAIT, .syt, 0x18, 64, 64, 1, false, false,
    [F.SY_CNT_WAIT_REMOTE_COUNT, F.SY_CNT_WAIT_LOCAL]⟩,
  ⟨.SY_CNT_LAST, .syt, 0x20, 64, 64, 1, false, false,
    [F.SY_CNT_LAST_CYCLE, F.SY_CNT_LAST_UNIT, F.SY_CNT_LAST_VALID, F.SY_CNT_LAST_DEVICE]⟩,
  ⟨.SY_CNT_LASTBEAT, .syt, 0x28, 64, 64, 1, false, false,
    [F.SY_CNT_LASTBEAT_BEAT]⟩,
  ⟨.SY_ERR, .syt, 0x1000, 1, 8, 1, false, false,
    [F.SY_ERR_VALID, F.SY_ERR_MORE, F.SY_ERR_CODE, F.SY_ERR_UNIT, F.SY_ERR_COUNTER, F.SY_ERR_DEVICE]⟩]

/-- The XD block. -/
def regsXD : List RegInfo := [
  ⟨.XC_XB_CFG, .xd, 0x0, 1, 8, 1, true, false,
    [F.XC_XB_CFG_LAST, F.XC_XB_CFG_EN]⟩,
  ⟨.XC_XB_STATUS, .xd, 0x8, 1, 8, 1, false, false,
    [F.XC_XB_STATUS_CREDITS_HOME, F.XC_XB_STATUS_EMPTY]⟩,
  ⟨.XC_XB_ERR, .xd, 0x10, 1, 8, 1, false, false,
    [F.XC_XB_ERR_VALID, F.XC_XB_ERR_MORE, F.XC_XB_ERR_CODE, F.XC_XB_ERR_KIND, F.XC_XB_ERR_PORT, F.XC_XB_ERR_SRC_UNIT, F.XC_XB_ERR_SRC_DEV]⟩,
  ⟨.XC_ROWMAP, .xd, 0x400, 24, 8, 1, false, false,
    [F.XC_ROWMAP_FENCED_POS2, F.XC_ROWMAP_FENCED_POS]⟩,
  ⟨.XC_XSE, .xd, 0x10000, 61440, 16, 2, true, false,
    [F.XC_XSE_CLASSMASK, F.XC_XSE_IN_TRACK, F.XC_XSE_IN_PORT, F.XC_XSE_OUT_TRACK, F.XC_XSE_OUT_PORT, F.XC_XSE_PERIOD, F.XC_XSE_COUNT, F.XC_XSE_START]⟩]

/-- The ES block. -/
def regsES : List RegInfo := [
  ⟨.ES_BEAT_CFG, .es, 0x0, 1, 8, 1, true, false,
    [F.ES_BEAT_CFG_CHILD_MASK, F.ES_BEAT_CFG_PARENT_LINK, F.ES_BEAT_CFG_REF_LINK, F.ES_BEAT_CFG_REF_SRC, F.ES_BEAT_CFG_ROLE]⟩,
  ⟨.ES_BEAT_INIT, .es, 0x8, 1, 8, 1, true, false,
    [F.ES_BEAT_INIT_INIT]⟩,
  ⟨.ES_REF_CFG, .es, 0x10, 1, 8, 1, true, false,
    [F.ES_REF_CFG_REF_TIMEOUT, F.ES_REF_CFG_REF_MIN_GAP]⟩,
  ⟨.ES_BEAT_NUM, .es, 0x18, 1, 8, 1, false, false,
    [F.ES_BEAT_NUM_BEAT]⟩,
  ⟨.ES_BEAT_STATUS, .es, 0x20, 1, 8, 1, false, false,
    [F.ES_BEAT_STATUS_GLITCHES, F.ES_BEAT_STATUS_REF_LOST, F.ES_BEAT_STATUS_SEQ_ERR, F.ES_BEAT_STATUS_FROZEN, F.ES_BEAT_STATUS_LOCAL_READY, F.ES_BEAT_STATUS_SUBTREE_READY, F.ES_BEAT_STATUS_SUBTREE_NOHOLD, F.ES_BEAT_STATUS_SUBTREE_FAULT, F.ES_BEAT_STATUS_LAST_CLEAN]⟩,
  ⟨.ES_MISSED_EDGES, .es, 0x28, 1, 8, 1, false, false,
    [F.ES_MISSED_EDGES_HELD, F.ES_MISSED_EDGES_UNHELD]⟩,
  ⟨.ES_COMMIT_CTRL, .es, 0x100, 1, 8, 1, false, false,
    [F.ES_COMMIT_CTRL_TAG, F.ES_COMMIT_CTRL_TARGET, F.ES_COMMIT_CTRL_ABORT, F.ES_COMMIT_CTRL_REQ]⟩,
  ⟨.ES_COMMIT_BEAT, .es, 0x108, 1, 8, 1, false, false,
    [F.ES_COMMIT_BEAT_BEAT]⟩,
  ⟨.ES_CFG_STATUS, .es, 0x110, 1, 8, 1, false, false,
    [F.ES_CFG_STATUS_LOCKED_WRITE, F.ES_CFG_STATUS_PENDING, F.ES_CFG_STATUS_DIRTY, F.ES_CFG_STATUS_LAST_TAG, F.ES_CFG_STATUS_CODE]⟩,
  ⟨.ES_CFG_FAULTADDR, .es, 0x118, 1, 8, 1, false, false,
    [F.ES_CFG_FAULTADDR_ADDR]⟩,
  ⟨.ES_COMMIT_COUNT, .es, 0x120, 1, 8, 1, false, false,
    [F.ES_COMMIT_COUNT_COUNT]⟩,
  ⟨.ES_HOLD_CFG, .es, 0x200, 1, 8, 1, true, false,
    [F.ES_HOLD_CFG_LIMIT, F.ES_HOLD_CFG_BUDGET]⟩,
  ⟨.ES_HOLD_CNT, .es, 0x220, 8, 8, 1, false, false,
    [F.ES_HOLD_CNT_COUNT]⟩,
  ⟨.ES_HOLD_BEAT, .es, 0x260, 1, 8, 1, false, false,
    [F.ES_HOLD_BEAT_LAST, F.ES_HOLD_BEAT_CURRENT]⟩,
  ⟨.ES_HOLD_STATUS, .es, 0x268, 1, 8, 1, false, false,
    [F.ES_HOLD_STATUS_OVER, F.ES_HOLD_STATUS_FORCED, F.ES_HOLD_STATUS_OVER_COUNT]⟩,
  ⟨.ES_CLEAR_CFG, .es, 0x300, 1, 8, 1, true, false,
    [F.ES_CLEAR_CFG_SYS_PERIOD, F.ES_CLEAR_CFG_WAIT_LIMIT]⟩,
  ⟨.ES_SYSCLR_BASE, .es, 0x308, 1, 8, 1, true, false,
    [F.ES_SYSCLR_BASE_BASE]⟩,
  ⟨.ES_CLEAR_LAST, .es, 0x310, 1, 8, 1, false, false,
    [F.ES_CLEAR_LAST_BEAT]⟩,
  ⟨.ES_CLEAR_INFO, .es, 0x318, 1, 8, 1, false, false,
    [F.ES_CLEAR_INFO_COUNT, F.ES_CLEAR_INFO_CYCLE]⟩,
  ⟨.ES_CLEAR_MISS, .es, 0x320, 1, 8, 1, false, false,
    [F.ES_CLEAR_MISS_COUNT]⟩,
  ⟨.ES_QUIET, .es, 0x328, 1, 8, 1, false, false,
    [F.ES_QUIET_GROUPS]⟩,
  ⟨.ES_STEP_CFG, .es, 0x400, 1, 8, 1, true, false,
    [F.ES_STEP_CFG_REPLAY_LIMIT, F.ES_STEP_CFG_BEATS]⟩,
  ⟨.ES_STEP_BASE, .es, 0x408, 1, 8, 1, true, false,
    [F.ES_STEP_BASE_BASE]⟩,
  ⟨.ES_STEP_NUM, .es, 0x410, 1, 8, 1, false, false,
    [F.ES_STEP_NUM_STEP]⟩,
  ⟨.ES_STEP_STATUS, .es, 0x418, 1, 8, 1, false, false,
    [F.ES_STEP_STATUS_ATTEMPT, F.ES_STEP_STATUS_LIMIT, F.ES_STEP_STATUS_INPUT_OVERWRITE, F.ES_STEP_STATUS_ACC_CLEAN, F.ES_STEP_STATUS_LAST_VERDICT, F.ES_STEP_STATUS_POS]⟩,
  ⟨.ES_STEP_NEXT, .es, 0x420, 1, 8, 1, false, false,
    [F.ES_STEP_NEXT_BEAT]⟩,
  ⟨.ES_STEP_COUNT, .es, 0x428, 1, 8, 1, false, false,
    [F.ES_STEP_COUNT_REPLAYS, F.ES_STEP_COUNT_COMMITS]⟩,
  ⟨.ES_STEP_CTRL, .es, 0x430, 1, 8, 1, false, false,
    [F.ES_STEP_CTRL_MARK_UNCLEAN]⟩,
  ⟨.ES_INPUT_CFG, .es, 0x500, 4, 16, 2, true, false,
    [F.ES_INPUT_CFG_EN, F.ES_INPUT_CFG_CIDX1, F.ES_INPUT_CFG_CIDX0, F.ES_INPUT_CFG_LEN, F.ES_INPUT_CFG_BASE]⟩,
  ⟨.ES_INPUT_LANDED, .es, 0x540, 8, 8, 1, false, false,
    [F.ES_INPUT_LANDED_BYTES]⟩,
  ⟨.ES_JOB_STATUS, .es, 0x600, 1, 8, 1, false, false,
    [F.ES_JOB_STATUS_STAGE, F.ES_JOB_STATUS_CLASS, F.ES_JOB_STATUS_CODE]⟩,
  ⟨.ES_JOB_WHERE, .es, 0x608, 1, 8, 1, false, false,
    [F.ES_JOB_WHERE_ITEM, F.ES_JOB_WHERE_OFFSET]⟩,
  ⟨.ES_JOB_INFO, .es, 0x610, 1, 8, 1, false, false,
    [F.ES_JOB_INFO_CLASS_ID, F.ES_JOB_INFO_NCLASS, F.ES_JOB_INFO_PROFILE]⟩,
  ⟨.ES_JOB_HASH, .es, 0x640, 6, 8, 1, false, false,
    [F.ES_JOB_HASH_HASH]⟩]

/-- The SYD block. -/
def regsSYD : List RegInfo := [
  ⟨.SYD_CNT_S, .syd, 0x0, 256, 64, 1, false, false,
    [F.SYD_CNT_S_S]⟩,
  ⟨.SYD_CNT_C, .syd, 0x8, 256, 64, 1, false, false,
    [F.SYD_CNT_C_C]⟩,
  ⟨.SYD_CNT_VAL, .syd, 0x10, 256, 64, 1, false, false,
    [F.SYD_CNT_VAL_VALUE]⟩,
  ⟨.SYD_CNT_WAIT, .syd, 0x18, 256, 64, 1, false, false,
    [F.SYD_CNT_WAIT_REMOTE_COUNT, F.SYD_CNT_WAIT_LOCAL]⟩,
  ⟨.SYD_CNT_LAST, .syd, 0x20, 256, 64, 1, false, false,
    [F.SYD_CNT_LAST_CYCLE, F.SYD_CNT_LAST_UNIT, F.SYD_CNT_LAST_VALID, F.SYD_CNT_LAST_DEVICE]⟩,
  ⟨.SYD_CNT_LASTBEAT, .syd, 0x28, 256, 64, 1, false, false,
    [F.SYD_CNT_LASTBEAT_BEAT]⟩,
  ⟨.SYD_ERR, .syd, 0x4000, 1, 8, 1, false, false,
    [F.SYD_ERR_VALID, F.SYD_ERR_MORE, F.SYD_ERR_CODE, F.SYD_ERR_UNIT, F.SYD_ERR_COUNTER, F.SYD_ERR_DEVICE]⟩]

/-- The RT block. -/
def regsRT : List RegInfo := [
  ⟨.RT_DRAM_CFG, .rt, 0x0, 1, 8, 1, true, false,
    [F.RT_DRAM_CFG_MODE]⟩,
  ⟨.RT_PCMAP, .rt, 0x8, 1, 8, 1, false, false,
    [F.RT_PCMAP_SPARE1_FOR, F.RT_PCMAP_SPARE0_FOR]⟩,
  ⟨.RT_PC_HEALTH, .rt, 0x10, 1, 8, 1, false, false,
    [F.RT_PC_HEALTH_FAILED]⟩,
  ⟨.RT_REFWIN, .rt, 0x100, 16, 16, 2, true, false,
    [F.RT_REFWIN_CLASSMASK, F.RT_REFWIN_LEN, F.RT_REFWIN_START]⟩,
  ⟨.RT_REF_STATUS, .rt, 0x200, 1, 8, 1, false, false,
    [F.RT_REF_STATUS_FORCED, F.RT_REF_STATUS_ISSUED]⟩,
  ⟨.RT_DRAM_ERR, .rt, 0x210, 1, 8, 1, false, false,
    [F.RT_DRAM_ERR_VALID, F.RT_DRAM_ERR_MORE, F.RT_DRAM_ERR_CODE, F.RT_DRAM_ERR_PATH, F.RT_DRAM_ERR_BEAT]⟩,
  ⟨.RT_DRAM_ERR_ADDR, .rt, 0x218, 1, 8, 1, false, false,
    [F.RT_DRAM_ERR_ADDR_ADDR]⟩,
  ⟨.RT_DRAM_CE_COUNT, .rt, 0x220, 1, 8, 1, false, false,
    [F.RT_DRAM_CE_COUNT_COUNT]⟩,
  ⟨.RT_ACC_CE_COUNT, .rt, 0x228, 1, 8, 1, false, false,
    [F.RT_ACC_CE_COUNT_COUNT]⟩,
  ⟨.RT_WRAISE, .rt, 0x300, 1, 8, 1, false, true,
    [F.RT_WRAISE_RAISE]⟩,
  ⟨.RT_WPOLICY, .rt, 0x308, 1, 8, 1, true, true,
    [F.RT_WPOLICY_MAXRAISE, F.RT_WPOLICY_INC, F.RT_WPOLICY_ACTION]⟩,
  ⟨.RT_CKPT_CFG, .rt, 0x310, 1, 8, 1, true, true,
    [F.RT_CKPT_CFG_RATE, F.RT_CKPT_CFG_HOST, F.RT_CKPT_CFG_MODE, F.RT_CKPT_CFG_PERIOD]⟩,
  ⟨.RT_CKPT_PEER, .rt, 0x318, 1, 8, 1, true, true,
    [F.RT_CKPT_PEER_MEMBER, F.RT_CKPT_PEER_BUDDY]⟩,
  ⟨.RT_CKPT_GROUP, .rt, 0x320, 2, 8, 1, true, true,
    [F.RT_CKPT_GROUP_DEVICE3, F.RT_CKPT_GROUP_DEVICE2, F.RT_CKPT_GROUP_DEVICE1, F.RT_CKPT_GROUP_DEVICE0]⟩,
  ⟨.RT_CKPT_HOST, .rt, 0x330, 1, 8, 1, true, true,
    [F.RT_CKPT_HOST_RKEY, F.RT_CKPT_HOST_QP]⟩,
  ⟨.RT_CKPT_HOSTADDR, .rt, 0x338, 1, 8, 1, true, true,
    [F.RT_CKPT_HOSTADDR_ADDR]⟩,
  ⟨.RT_ACC_CFG, .rt, 0x400, 1, 8, 1, true, false,
    [F.RT_ACC_CFG_FENCE_THRESH, F.RT_ACC_CFG_QUIET_LIMIT]⟩,
  ⟨.RT_PIPEMAP, .rt, 0x408, 1, 8, 1, false, false,
    [F.RT_PIPEMAP_SPARE1_FOR, F.RT_PIPEMAP_SPARE0_FOR]⟩,
  ⟨.RT_PIPE_HEALTH, .rt, 0x410, 1, 8, 1, false, false,
    [F.RT_PIPE_HEALTH_FAILED]⟩,
  ⟨.RT_ACC_ERR, .rt, 0x418, 1, 8, 1, false, false,
    [F.RT_ACC_ERR_VALID, F.RT_ACC_ERR_MORE, F.RT_ACC_ERR_CODE, F.RT_ACC_ERR_ATTR, F.RT_ACC_ERR_DETAIL, F.RT_ACC_ERR_REGION, F.RT_ACC_ERR_UNIT, F.RT_ACC_ERR_DEVICE]⟩,
  ⟨.RT_ACC_ERR_ADDR, .rt, 0x420, 1, 8, 1, false, false,
    [F.RT_ACC_ERR_ADDR_ADDR]⟩,
  ⟨.RT_ACC_ERR_WHEN, .rt, 0x428, 1, 8, 1, false, false,
    [F.RT_ACC_ERR_WHEN_BEAT]⟩,
  ⟨.RT_PIPE_MISMATCH, .rt, 0x500, 34, 8, 1, false, false,
    [F.RT_PIPE_MISMATCH_COUNT]⟩,
  ⟨.RT_STEP_STATUS, .rt, 0x700, 1, 8, 1, false, false,
    [F.RT_STEP_STATUS_RESIDUE, F.RT_STEP_STATUS_OVF, F.RT_STEP_STATUS_NF, F.RT_STEP_STATUS_UNCLEAN]⟩,
  ⟨.RT_CKPT_AREA, .rt, 0x800, 1, 8, 1, true, false,
    [F.RT_CKPT_AREA_BASE]⟩,
  ⟨.RT_CKPT_SET, .rt, 0x808, 1, 8, 1, true, false,
    [F.RT_CKPT_SET_GLEN, F.RT_CKPT_SET_MLEN]⟩,
  ⟨.RT_CKPT_STATUS, .rt, 0x810, 1, 8, 1, false, false,
    [F.RT_CKPT_STATUS_BUSY, F.RT_CKPT_STATUS_LATE, F.RT_CKPT_STATUS_FAULT, F.RT_CKPT_STATUS_NEXT_SLOT, F.RT_CKPT_STATUS_LAST_DONE]⟩,
  ⟨.RT_RGN_CFG, .rt, 0x1000, 128, 8, 1, true, false,
    [F.RT_RGN_CFG_EN, F.RT_RGN_CFG_COUNT, F.RT_RGN_CFG_BASE]⟩,
  ⟨.RT_RGN_STAT, .rt, 0x2000, 128, 64, 1, false, false,
    [F.RT_RGN_STAT_DUE_OFS, F.RT_RGN_STAT_OUTFMT, F.RT_RGN_STAT_W, F.RT_RGN_STAT_OVERCOUNT, F.RT_RGN_STAT_INCOMPLETE, F.RT_RGN_STAT_WMISMATCH, F.RT_RGN_STAT_RESIDUE, F.RT_RGN_STAT_OVF, F.RT_RGN_STAT_NF, F.RT_RGN_STAT_STATE]⟩,
  ⟨.RT_RGN_EXPECT, .rt, 0x2008, 128, 64, 1, false, false,
    [F.RT_RGN_EXPECT_EXPECT]⟩,
  ⟨.RT_RGN_RES, .rt, 0x2010, 128, 64, 1, false, false,
    [F.RT_RGN_RES_FR, F.RT_RGN_RES_RR]⟩,
  ⟨.RT_RGN_OPENBEAT, .rt, 0x2018, 128, 64, 1, false, false,
    [F.RT_RGN_OPENBEAT_BEAT]⟩,
  ⟨.RT_RGN_OUT, .rt, 0x2020, 128, 64, 1, false, false,
    [F.RT_RGN_OUT_OUTADDR]⟩,
  ⟨.RT_RGN_DONE, .rt, 0x2028, 128, 64, 1, false, false,
    [F.RT_RGN_DONE_DONE_EN, F.RT_RGN_DONE_DONE_CREF]⟩,
  ⟨.RT_STOREMAP, .rt, 0x4000, 512, 8, 1, false, false,
    [F.RT_STOREMAP_VALID, F.RT_STOREMAP_LINE]⟩,
  ⟨.RT_CNT_S, .rt, 0xF00000, 128, 64, 1, false, false,
    [F.RT_CNT_S_S]⟩,
  ⟨.RT_CNT_C, .rt, 0xF00008, 128, 64, 1, false, false,
    [F.RT_CNT_C_C]⟩,
  ⟨.RT_CNT_VAL, .rt, 0xF00010, 128, 64, 1, false, false,
    [F.RT_CNT_VAL_VALUE]⟩,
  ⟨.RT_CNT_WAIT, .rt, 0xF00018, 128, 64, 1, false, false,
    [F.RT_CNT_WAIT_REMOTE_COUNT, F.RT_CNT_WAIT_LOCAL]⟩,
  ⟨.RT_CNT_LAST, .rt, 0xF00020, 128, 64, 1, false, false,
    [F.RT_CNT_LAST_CYCLE, F.RT_CNT_LAST_UNIT, F.RT_CNT_LAST_VALID, F.RT_CNT_LAST_DEVICE]⟩,
  ⟨.RT_CNT_LASTBEAT, .rt, 0xF00028, 128, 64, 1, false, false,
    [F.RT_CNT_LASTBEAT_BEAT]⟩,
  ⟨.RT_SY_ERR, .rt, 0xF02000, 1, 8, 1, false, false,
    [F.RT_SY_ERR_VALID, F.RT_SY_ERR_MORE, F.RT_SY_ERR_CODE, F.RT_SY_ERR_UNIT, F.RT_SY_ERR_COUNTER, F.RT_SY_ERR_DEVICE]⟩]

/-- The LK block. -/
def regsLK : List RegInfo := [
  ⟨.LK_CFG, .lk, 0x0, 1, 8, 1, false, false,
    [F.LK_CFG_DIRN, F.LK_CFG_DIM, F.LK_CFG_EN]⟩,
  ⟨.LK_LANEMAP, .lk, 0x8, 1, 8, 1, false, false,
    [F.LK_LANEMAP_SPARE_FOR]⟩,
  ⟨.LK_LANE_CFG, .lk, 0x10, 1, 8, 1, false, false,
    [F.LK_LANE_CFG_SER_LIMIT]⟩,
  ⟨.LK_STATUS, .lk, 0x18, 1, 8, 1, false, false,
    [F.LK_STATUS_RETRAINS, F.LK_STATUS_SPARE_IN_USE, F.LK_STATUS_AUTO_SPARED, F.LK_STATUS_DOWN_CAUSE, F.LK_STATUS_STATE]⟩,
  ⟨.LK_FAR, .lk, 0x20, 1, 8, 1, false, false,
    [F.LK_FAR_VALID, F.LK_FAR_DIRN, F.LK_FAR_DIM, F.LK_FAR_PHYS]⟩,
  ⟨.LK_LANE_HEALTH, .lk, 0x28, 1, 8, 1, false, false,
    [F.LK_LANE_HEALTH_FAILED]⟩,
  ⟨.LK_HOPLAT, .lk, 0x30, 1, 8, 1, false, false,
    [F.LK_HOPLAT_HOP_PS]⟩,
  ⟨.LK_ERR, .lk, 0x38, 1, 8, 1, false, false,
    [F.LK_ERR_VALID, F.LK_ERR_MORE, F.LK_ERR_CODE, F.LK_ERR_KIND, F.LK_ERR_SRC_UNIT, F.LK_ERR_SRC_DEV]⟩,
  ⟨.LK_ERR_WHEN, .lk, 0x40, 1, 8, 1, false, false,
    [F.LK_ERR_WHEN_BEAT]⟩,
  ⟨.LK_CNT_UNCORR, .lk, 0x48, 1, 8, 1, false, false,
    [F.LK_CNT_UNCORR_COUNT]⟩,
  ⟨.LK_CNT_CRC, .lk, 0x50, 1, 8, 1, false, false,
    [F.LK_CNT_CRC_COUNT]⟩,
  ⟨.LK_CNT_REPLAY, .lk, 0x58, 1, 8, 1, false, false,
    [F.LK_CNT_REPLAY_COUNT]⟩,
  ⟨.LK_CNT_TXDATA, .lk, 0x60, 1, 8, 1, false, false,
    [F.LK_CNT_TXDATA_COUNT]⟩,
  ⟨.LK_CNT_RXDATA, .lk, 0x68, 1, 8, 1, false, false,
    [F.LK_CNT_RXDATA_COUNT]⟩,
  ⟨.LK_CNT_CWAIT, .lk, 0x70, 1, 8, 1, false, false,
    [F.LK_CNT_CWAIT_COUNT]⟩,
  ⟨.LK_LANE_SER, .lk, 0x100, 9, 8, 1, false, false,
    [F.LK_LANE_SER_LAST, F.LK_LANE_SER_CURRENT]⟩,
  ⟨.LK_TOPO, .lk, 0x8000, 1, 8, 1, true, true,
    [F.LK_TOPO_NDIM, F.LK_TOPO_PHYS, F.LK_TOPO_SELF]⟩,
  ⟨.LK_DIMSIZE, .lk, 0x8008, 1, 8, 1, true, true,
    [F.LK_DIMSIZE_S4, F.LK_DIMSIZE_S3, F.LK_DIMSIZE_S2, F.LK_DIMSIZE_S1, F.LK_DIMSIZE_S0]⟩,
  ⟨.LK_ALIAS, .lk, 0x8100, 64, 8, 1, false, true,
    [F.LK_ALIAS_VALID, F.LK_ALIAS_PHYS, F.LK_ALIAS_LOGICAL]⟩]

/-- The EN block. -/
def regsEN : List RegInfo := [
  ⟨.EN_PORT_STATUS, .en, 0x0, 1, 8, 1, false, false,
    [F.EN_PORT_STATUS_QPS, F.EN_PORT_STATUS_TIME_LOCKED, F.EN_PORT_STATUS_INTAKE_BUSY, F.EN_PORT_STATUS_PCS_LOCK, F.EN_PORT_STATUS_LINK_UP]⟩,
  ⟨.EN_CNT_RXFRAME, .en, 0x100, 1, 8, 1, false, false,
    [F.EN_CNT_RXFRAME_COUNT]⟩,
  ⟨.EN_CNT_RXDROP, .en, 0x108, 1, 8, 1, false, false,
    [F.EN_CNT_RXDROP_COUNT]⟩,
  ⟨.EN_CNT_FEC_CORR, .en, 0x110, 1, 8, 1, false, false,
    [F.EN_CNT_FEC_CORR_COUNT]⟩,
  ⟨.EN_CNT_FEC_UNCORR, .en, 0x118, 1, 8, 1, false, false,
    [F.EN_CNT_FEC_UNCORR_COUNT]⟩,
  ⟨.EN_CNT_INTAKE_DROP, .en, 0x120, 1, 8, 1, false, false,
    [F.EN_CNT_INTAKE_DROP_COUNT]⟩,
  ⟨.EN_CNT_INTAKE_BYTES, .en, 0x128, 1, 8, 1, false, false,
    [F.EN_CNT_INTAKE_BYTES_COUNT]⟩,
  ⟨.EN_CNT_CNP_TX, .en, 0x130, 1, 8, 1, false, false,
    [F.EN_CNT_CNP_TX_COUNT]⟩,
  ⟨.EN_CNT_CNP_RX, .en, 0x138, 1, 8, 1, false, false,
    [F.EN_CNT_CNP_RX_COUNT]⟩,
  ⟨.EN_CNT_ICP, .en, 0x140, 1, 8, 1, false, false,
    [F.EN_CNT_ICP_COUNT]⟩,
  ⟨.EN_CNT_NOTCMD, .en, 0x148, 1, 8, 1, false, false,
    [F.EN_CNT_NOTCMD_COUNT]⟩,
  ⟨.EN_WIN, .en, 0x1000, 16, 16, 2, false, false,
    [F.EN_WIN_EN, F.EN_WIN_RD, F.EN_WIN_WR, F.EN_WIN_LSIG, F.EN_WIN_CIDX, F.EN_WIN_RKEY, F.EN_WIN_LEN, F.EN_WIN_BASE]⟩]

/-- The PW block. -/
def regsPW : List RegInfo := [
  ⟨.PW_BUDGET, .pw, 0x0, 1, 8, 1, false, false,
    [F.PW_BUDGET_BUDGET]⟩,
  ⟨.PW_CEIL, .pw, 0x8, 1, 8, 1, false, false,
    [F.PW_CEIL_TEMP_CEIL, F.PW_CEIL_TILE_CEIL]⟩,
  ⟨.PW_FLOOR, .pw, 0x10, 1, 8, 1, true, false,
    [F.PW_FLOOR_FLOOR]⟩,
  ⟨.PW_STATUS, .pw, 0x18, 1, 8, 1, false, false,
    [F.PW_STATUS_WINDOW, F.PW_STATUS_K, F.PW_STATUS_K_BUDGET, F.PW_STATUS_K_PROT]⟩,
  ⟨.PW_POWER, .pw, 0x20, 1, 8, 1, false, false,
    [F.PW_POWER_MEAN_10US, F.PW_POWER_MEAN_1MS]⟩,
  ⟨.PW_TEMP, .pw, 0x28, 1, 8, 1, false, false,
    [F.PW_TEMP_MAX]⟩,
  ⟨.PW_SWALLOW, .pw, 0x40, 4, 8, 1, false, false,
    [F.PW_SWALLOW_COUNT]⟩,
  ⟨.PW_ERR, .pw, 0x80, 1, 8, 1, false, false,
    [F.PW_ERR_VALID, F.PW_ERR_MORE, F.PW_ERR_CODE, F.PW_ERR_ITEM, F.PW_ERR_WINDOW]⟩]

/-- The RS block. -/
def regsRS : List RegInfo := [
  ⟨.RS_CAUSE, .rs, 0x0, 1, 8, 1, false, false,
    [F.RS_CAUSE_DETAIL, F.RS_CAUSE_OFF_REASON, F.RS_CAUSE_CAUSE]⟩,
  ⟨.RS_CAUSE_BEAT, .rs, 0x8, 1, 8, 1, false, false,
    [F.RS_CAUSE_BEAT_BEAT]⟩,
  ⟨.RS_STRAPS, .rs, 0x10, 1, 8, 1, false, false,
    [F.RS_STRAPS_SMB_ADDR, F.RS_STRAPS_RST_MODE]⟩,
  ⟨.RS_BOOT, .rs, 0x18, 1, 8, 1, false, false,
    [F.RS_BOOT_PHASE]⟩,
  ⟨.RS_QUIET_ROWS, .rs, 0x20, 2, 8, 1, false, false,
    [F.RS_QUIET_ROWS_ROWS]⟩,
  ⟨.RS_QUIET_OTHER, .rs, 0x30, 1, 8, 1, false, false,
    [F.RS_QUIET_OTHER_PORTS, F.RS_QUIET_OTHER_LINKS, F.RS_QUIET_OTHER_RVES]⟩,
  ⟨.RS_US_STATUS, .rs, 0x40, 1, 8, 1, false, false,
    [F.RS_US_STATUS_THERM, F.RS_US_STATUS_TRIP_SRC, F.RS_US_STATUS_STBY_REFUSED, F.RS_US_STATUS_TRIP, F.RS_US_STATUS_VIN_UV, F.RS_US_STATUS_VIN_OV, F.RS_US_STATUS_AUX_UV, F.RS_US_STATUS_LEAK, F.RS_US_STATUS_ABSENT, F.RS_US_STATUS_MARGIN_LOW]⟩,
  ⟨.RS_RTC, .rs, 0x48, 1, 8, 1, false, false,
    [F.RS_RTC_SECONDS, F.RS_RTC_SUB]⟩,
  ⟨.RS_RTC_ALARM, .rs, 0x50, 1, 8, 1, false, false,
    [F.RS_RTC_ALARM_EN, F.RS_RTC_ALARM_ALARM]⟩,
  ⟨.RS_STANDBY, .rs, 0x58, 1, 8, 1, false, false,
    [F.RS_STANDBY_ENTER]⟩,
  ⟨.RS_WDOG, .rs, 0x60, 1, 8, 1, false, false,
    [F.RS_WDOG_COUNT]⟩]

/-- The SC block. -/
def regsSC : List RegInfo := [
  ⟨.SC_FW_STATUS, .sc, 0x0, 1, 8, 1, false, false,
    [F.SC_FW_STATUS_SVN_FLOOR, F.SC_FW_STATUS_LAST, F.SC_FW_STATUS_OWNER, F.SC_FW_STATUS_LOCK, F.SC_FW_STATUS_LATE, F.SC_FW_STATUS_FALLBACK, F.SC_FW_STATUS_ACTIVE, F.SC_FW_STATUS_RECORDS, F.SC_FW_STATUS_STATE]⟩,
  ⟨.SC_FW_SCHED, .sc, 0x8, 1, 8, 1, false, false,
    [F.SC_FW_SCHED_VALID, F.SC_FW_SCHED_ACT_BEAT]⟩,
  ⟨.SC_MEAS, .sc, 0x100, 7, 64, 6, false, false,
    [F.SC_MEAS_VALUE]⟩,
  ⟨.SC_RPMC, .sc, 0x300, 4, 8, 1, false, false,
    [F.SC_RPMC_COUNT]⟩]

/-- The registers of a block. -/
def Block.regs : Block → List RegInfo
  | .tl => regsTL
  | .sp => regsSP
  | .mx => regsMX
  | .xt => regsXT
  | .syt => regsSYT
  | .xd => regsXD
  | .es => regsES
  | .syd => regsSYD
  | .rt => regsRT
  | .lk => regsLK
  | .en => regsEN
  | .pw => regsPW
  | .rs => regsRS
  | .sc => regsSC
  | .spr => []

end Sys2Proof.Machine
end

