-- ==== Sys2Proof/Machine/State.lean ====
section
/-! DEFINITION. The state of the block as plain data: every register field (by field key, see Ops.lean) and
every buffer, queue, counter and mode the spec gives it. -/

namespace Sys2Proof.Machine

/-- Why a step stops with a fault. -/
inductive Fault where
  /-- A command names a tile, die, link, port, queue pair, entry or place of a unit that Tables 1.3, 1.6 and 1.8 do not
  give: raised by any meaning whose operand is out of range. Safe: the hardware has no such unit. -/
  | noSuchUnit
  deriving DecidableEq, Repr

/-- Why a command has no meaning. -/
inductive Refusal where
  /-- Raised by an arm of Dispatch.lean only: no meaning is written for the command. Safe. -/
  | notModelled (mnemonic : String)
  /-- Raised by IEEE_1149_1_ACCESS: an instruction of the test port other than BYPASS and IDCODE on an
  unlocked device acts on the debug unit, whose behaviour the spec does not give (R413). Safe. -/
  | debugUnit
  deriving DecidableEq, Repr

/-! ## Configuration and time -/

/-- Run states of the device (Table 12.4). -/
inductive RunState where
  | idle | loaded | armed | running | held | draining | stopped | faulted
  deriving DecidableEq, Repr

/-- A commit that passed its checks (R36). -/
structure Commit where
  target  : Nat
  tag     : Nat
  /-- Outside segments: a target-1 commit whose beat boundary has been reached (R33). -/
  reached : Bool
  /-- The commit set: field key and value. -/
  set     : SMap Nat
  deriving DecidableEq, Repr

/-- What a freeze waits for. -/
inductive FreezeKind where
  | due
  | clearing
  deriving DecidableEq, Repr

/-- A freeze issued and not yet released (R51, R54, R58). -/
structure Freeze where
  /-- The cycle it holds back. -/
  cycle : Nat
  kind  : FreezeKind
  /-- Hold cause charged while nothing else is unmet (R61). -/
  cause : Nat
  deriving DecidableEq, Repr

/-- The escapement (R46 to R60). -/
structure Esc where
  /-- The segment of the current beat has started and not ended. -/
  segOn    : Bool
  /-- The beat was adopted and its segment has not started. -/
  due0     : Bool
  /-- The segment of the current beat has ended. -/
  ended    : Bool
  /-- Tile-clock edges delivered to the tiles since reset (R2, R435). -/
  tc       : Nat
  /-- Segment cycle delivered next. -/
  next     : Nat
  /-- The present tile-clock edge was delivered to the tiles (R52, R394, R435). -/
  live     : Bool
  /-- Segment length L. -/
  len      : Nat
  /-- Segment class of the current beat (R336). -/
  cls      : Nat
  /-- Tile-clock edge of the adoption of the current beat. -/
  adopted  : Nat
  /-- Freezes issued: the head is in effect when `frozen` is some, the rest wait (R54). -/
  freezes  : List Freeze
  /-- The first rc edge of the freeze in effect (Table 2.4). -/
  frozen   : Option Nat
  /-- Tile-clock edge at which an issued release delivers (R53). -/
  resume   : Option Nat
  /-- The Tiles group was found satisfied for the clearing point in effect (R58). -/
  tilesOk  : Bool
  /-- The last release was forced (R61). -/
  forced   : Bool
  /-- Due cycles checked in this segment (R51). -/
  dueDone  : List Nat
  /-- Boundaries checked in this segment (R48). -/
  bndDone  : List Nat
  /-- Clearing points decided in this segment (R58). -/
  decided  : List Nat
  /-- rc edge at which a commit hold began (R35). -/
  hold     : Option Nat
  /-- rc edge last charged, plus 1 (R61). -/
  charged  : Nat
  /-- Locally ready for the current beat (R47). -/
  ready    : Bool
  /-- Tile-clock edge at which it became so (R294). -/
  readyAt  : Nat
  /-- The clearing of the segment end of the current beat has taken place (R59). -/
  cleared  : Bool
  /-- Moved tiles whose image is still to be copied (R311). -/
  moved    : List Nat
  /-- Hold cause of the entry that was unmet last while the freeze in effect stands (R61). -/
  cause    : Nat
  /-- Beat of the last segment whose cycle L was delivered (R232). -/
  lastEnd  : Option Nat
  deriving DecidableEq, Repr

/-- Reference edges and the beat tree (R40 to R45). -/
structure Beat where
  /-- Held REF_TGL of REF_LINK; none until the first word after a commit or training (R40). -/
  held      : Option Bool
  /-- REF_TGL this device sends, toggled at each accepted edge (Table 2.1). -/
  tgl       : Bool
  /-- rc edge of the last accepted edge. -/
  lastEdge  : Option Nat
  /-- NOHOLD = 0 was registered in the interval since the last accepted edge (R42). -/
  noHoldLow : Bool
  /-- rc edge at which domain ready for the current beat was registered. -/
  domReady  : Option Nat
  /-- Last beat word received on each link. -/
  words     : SMap W32
  /-- Links that gave a word with UP_VALID = 1 since the last commit of ES_BEAT_CFG (R44). -/
  heard     : List Nat
  /-- rc edge from which REF_TIMEOUT counts (R40). -/
  refFrom   : Nat
  /-- A rising edge of BEAT_IN has come since the last rc edge (R430). -/
  pinEdge   : Bool
  /-- Edges of REF_LINK that have come since the last rc edge (R42). -/
  linkEdges : Nat
  /-- A reset reached the escapement and no commit of ES_BEAT_CFG followed: beat words carry neither VALID (R374). -/
  mute      : Bool
  deriving DecidableEq, Repr

/-! ## Sync counters -/

/-- A sync counter with its last signaller (R63, R72). -/
structure Counter where
  s     : Nat
  c     : Nat
  valid : Bool
  dev   : Nat
  unit  : Nat
  beat  : Nat
  cycle : Nat
  /-- Tile-clock edge of that signal, plus 1 (R69). -/
  edge  : Nat
  deriving DecidableEq, Repr

/-- A signal that reached its counter in the present cycle (R69); `done`: it was applied as it came. -/
structure SigOp where
  key  : Nat
  n    : Nat
  unit : Nat
  dev  : Nat
  done : Bool
  deriving DecidableEq, Repr

/-- A CONS that reaches its counter in the present cycle (R69). -/
structure ConsOp where
  key  : Nat
  n    : Nat
  unit : Nat
  dev  : Nat
  deriving DecidableEq, Repr

/-- A pending WAIT or WAITC (R69). -/
structure Waiter where
  /-- Unit identifier (Table 2.15). -/
  unit    : Nat
  /-- The counter (see Ops.lean). -/
  key     : Nat
  /-- WAITC. -/
  consume : Bool
  amt     : Nat
  deriving DecidableEq, Repr

/-! ## Tiles -/

/-- Core states (R100). -/
inductive CoreState where
  | reset | waiting | run | boundWait | segmentEnd | parkedErr
  deriving DecidableEq, Repr

/-- An active LOOP (R85). -/
structure Loop where
  /-- Word address of the first body word. -/
  start  : Nat
  len    : Nat
  remain : Nat
  deriving DecidableEq, Repr

/-! Every cycle of a tile's work is a count of delivered tile-clock edges (`Esc.tc`), so that work claimed before L goes on
past it (R435). -/

/-- The word to which work in progress belongs (R98): its address, its segment cycle and its slot B. -/
structure WordRef where
  pc   : Nat
  seg  : Nat
  slot : Nat
  deriving DecidableEq, Repr

/-- A store of a store group (R110): its word, its issue cycle, offset and bytes. -/
structure StoreItem where
  ref  : WordRef
  cyc  : Nat
  off  : Nat
  data : List Byte
  deriving DecidableEq, Repr

/-- A store group of the gather buffer (R110). -/
structure StoreGroup where
  /-- Global row. -/
  row    : Nat
  /-- Issue cycle of the store that opened it. -/
  opened : Nat
  /-- Its stores, oldest first. -/
  items  : List StoreItem
  /-- Written in the present cycle; it is freed when the cycle ends. -/
  done   : Bool
  deriving DecidableEq, Repr

/-- A load entry of the gather buffer (R110). -/
structure LoadEntry where
  row    : Nat
  opened : Nat
  deriving DecidableEq, Repr

/-- A core load on its way to its bank access (R108). -/
structure CoreLoad where
  ref  : WordRef
  cyc  : Nat
  off  : Nat
  /-- Bytes: 64 for LDV. -/
  n    : Nat
  /-- Destination register, and SZ of an LDS; none for LDV. -/
  rd   : Nat
  sz   : Option Nat
  deriving DecidableEq, Repr

/-- An STV on its way to its banks (R107). -/
structure WideStore where
  ref  : WordRef
  cyc  : Nat
  off  : Nat
  data : List Byte
  deriving DecidableEq, Repr

/-- A tile slot claimed (R107); `mx`: a matrix-unit read (R151). -/
structure Claim where
  cyc  : Nat
  bank : Nat
  mx   : Bool
  deriving DecidableEq, Repr

/-- What a memory operation does (R112). -/
inductive MemOpKind where
  | fill (size : Nat)
  | copy
  | accw (ty : Nat) (sr : Bool)
  deriving DecidableEq, Repr

/-- A memory operation issued and not complete (R113). -/
structure MemOp where
  kind    : MemOpKind
  dst     : Nat
  src     : Nat
  len     : Nat
  pattern : W64
  csig    : Bool
  cidx    : Nat
  /-- FENCE.W count and issue order of the tile (R195). -/
  epoch   : Nat
  seq     : Nat
  /-- Issue cycle, rows done, and the source row read for a row whose source shares its bank (R113). -/
  cyc     : Nat
  row     : Nat
  half    : Option (List (Byte × Bool))
  deriving DecidableEq, Repr

/-- Power state of a bank (R117). -/
inductive BankState where
  | on
  | off
  /-- WAKING since this delivered tc (R118). -/
  | waking (since : Nat)
  deriving DecidableEq, Repr

/-- A WAIT or WAITC that stalls its word (R90). -/
structure WaitWord where
  word    : W64
  key     : Nat
  consume : Bool
  amt     : Nat
  /-- Cycle from which it stalls. -/
  since   : Nat
  /-- Cycle in which a request that is met lets the word issue (Table 2.8). -/
  ready   : Option Nat
  deriving DecidableEq, Repr

/-- A stationary buffer (R126): operand type, K-groups, and the bytes read so far in the order of R151. -/
structure StatBuf where
  valid    : Bool
  mt       : Nat
  ng       : Nat
  data     : List Byte
  /-- Cycle of the last read of the MLD that filled it. -/
  lastRead : Nat
  deriving DecidableEq, Repr

/-- Kind of an accumulator (R141). -/
inductive AccKind where
  | fp32 | bf16 | int32
  deriving DecidableEq, Repr

/-- An accumulator of 64 × 32 elements (R126). -/
structure Acc where
  /-- Kind that the operations issued so far leave (R140, R141). -/
  kind      : AccKind
  /-- Kind of the elements it holds now. -/
  held      : AccKind
  /-- Matrix class of Table 11.9 of its latest MMA, in table order. -/
  cls       : Nat
  /-- Nonzero codes, element (i, j) at 32 × i + j. -/
  elems     : SMap Nat
  /-- Last-issue cycle of its latest MMA (R152). -/
  lastIssue : Option Nat
  /-- Latest drain read cycle (R152). -/
  lastDrain : Option Nat
  deriving DecidableEq, Repr

/-- An MMA that is outstanding until its last-issue cycle has passed (R152). -/
structure MmaOut where
  last : Nat
  buf  : Nat
  deriving DecidableEq, Repr

/-- An MLD whose rows are still being read (R151): cycle and global row of each, in list order. -/
structure MldJob where
  buf    : Nat
  reads  : List (Nat × Nat)
  filler : Bool
  /-- No later MLD has replaced the content of its buffer (R141). -/
  live   : Bool
  deriving DecidableEq, Repr

/-- An MMA in progress (R151, R152): its slot word, the reads to come, the bytes read so far, and the start cycles of the
K-groups to come. -/
structure MmaJob where
  word   : Nat
  reads  : List (Nat × Nat)
  data   : List Byte
  starts : List Nat
  filler : Bool
  deriving DecidableEq, Repr

/-- An MDRAIN in progress (R154): its slot word, base, pitch, drain-read cycle, first write cycle, the accumulator as the drain
read found it, and with SR the number of its first draw (R149). -/
structure DrainJob where
  word   : Nat
  base   : Nat
  pitch  : Nat
  readAt : Nat
  first  : Nat
  snap   : Option (AccKind × SMap Nat)
  filler : Bool
  draw0  : Nat
  deriving DecidableEq, Repr

/-- A filler queue entry: a copy of its 64-byte descriptor (R261). -/
structure Filler where
  words : List W64
  /-- Passes completed. -/
  done  : Nat
  deriving DecidableEq, Repr

/-- The matrix unit of a tile (R126, R147, R150). -/
structure Matrix where
  buf0     : StatBuf
  buf1     : StatBuf
  acc0     : Acc
  acc1     : Acc
  outs     : List MmaOut
  mlds     : List MldJob
  mmas     : List MmaJob
  drains   : List DrainJob
  /-- Last-issue cycle of the latest MMA on the array. -/
  lastMma  : Option Nat
  /-- Last write cycle of the latest MDRAIN. -/
  drainEnd : Option Nat
  /-- Key of the generator, and the step number at the last reseed (R147). -/
  key      : Nat
  step     : Nat
  filler   : List Filler
  /-- The pass of the head entry in progress: the cycle at which it ends (R263). -/
  passEnd  : Option Nat
  /-- First cycle from which the next pass may begin. -/
  passFrom : Nat
  deriving DecidableEq, Repr

/-- A fetch-engine descriptor (Table 6.7). -/
structure Desc where
  src     : Nat
  dst     : Nat
  mode    : Nat
  sstride : Int
  nlines  : Nat
  line    : Nat
  cidx    : Nat
  csig    : Bool
  lidx    : Nat
  lsig    : Nat
  mstride : Nat
  mcount  : Nat
  redw    : Int
  dtype   : Nat
  stype   : Nat
  dstride : Int
  /-- Scratchpad offset it was read from. -/
  off     : Nat
  /-- Issue cycle of its FETCH, and delivered tc by then (R192). -/
  cyc     : Nat
  tc      : Nat
  epoch   : Nat
  seq     : Nat
  deriving DecidableEq, Repr

/-- A READ_REQ outstanding (R182). -/
structure ReadOut where
  tag   : Nat
  /-- The descriptor, by its place in the tile's issue order, and which of its pieces. -/
  seq   : Nat
  piece : Nat
  addr  : Nat
  len   : Nat
  /-- rc edge of issue (R191). -/
  sent  : Nat
  deriving DecidableEq, Repr

/-- A write packet, or the copies of a multicast payload, issued and not acknowledged (R175, R180). -/
structure WriteOut where
  tag   : Nat
  seq   : Nat
  /-- System address of each copy. -/
  addrs : List Nat
  /-- ACKs still to come. -/
  left  : Nat
  deriving DecidableEq, Repr

/-- A descriptor that has started and is not complete (R189). -/
structure Flight where
  desc    : Desc
  /-- Pieces issued; with the own scratchpad as source, lines whose read has been queued. -/
  issued  : Nat
  /-- Read data by piece that waits for its unit (BS16) or for its order (ACCUM), or by line of the own scratchpad. -/
  parked  : SMap (List Byte)
  /-- Units used so far: pieces, groups of BS16 blocks, or lines of the own scratchpad. -/
  landed  : Nat
  /-- Own-scratchpad landings that wait in the landing buffer. -/
  waiting : Nat
  /-- Every packet has been issued: the descriptor has left the queue. -/
  sentAll : Bool
  deriving DecidableEq, Repr

/-- A multicast round (R180). -/
structure McRound where
  seq     : Nat
  /-- Target tiles in ascending order. -/
  targets : List Nat
  /-- Scratchpad offset at every target. -/
  off     : Nat
  stype   : Nat
  dtype   : Nat
  data    : List Byte
  /-- Landing counter index of each target, when LSIG is set. -/
  lsig    : Nat
  lidx    : Nat
  /-- Targets granted so far. -/
  granted : Nat
  /-- TAG of the RESERVE that waits for its GRANT. -/
  tag     : Nat
  deriving DecidableEq, Repr

/-- The fetch engine of a tile (R182). -/
structure Fetch where
  /-- Descriptors not started, oldest first. -/
  queue   : List Desc
  flights : List Flight
  reads   : List ReadOut
  writes  : List WriteOut
  mc      : Option McRound
  /-- Rounds of the multicast that have not begun. -/
  mcTodo  : List McRound
  nextTag : Nat
  deriving DecidableEq, Repr

/-- A signal held back by FENCE.W or SIG.R (R195, R196). -/
structure HeldSig where
  epoch : Nat
  seq   : Nat
  /-- SIG.R. -/
  rel   : Bool
  cref  : W32
  n     : Nat
  dev   : Nat
  deriving DecidableEq, Repr

/-- Write and signal order of one issuer (R193 to R196). -/
structure Order where
  /-- FENCE.W operations issued. -/
  epoch : Nat
  /-- FENCE.W operations released. -/
  done  : Nat
  /-- Next place in the issue order. -/
  seq   : Nat
  held  : List HeldSig
  deriving DecidableEq, Repr

/-- A packetised access that waits in a landing buffer (R109). -/
structure Landing where
  /-- Scratchpad offset of the first byte still to be accessed, and the bytes still to be written. -/
  off  : Nat
  data : List Byte
  /-- Accumulate mode: type code of Table 4.4. -/
  acc  : Option Nat
  /-- Requester KIND of SP_ERR (Table 4.8). -/
  kind : Nat
  /-- A READ_REQ: the packet, how many bytes are still to be read, and those read. -/
  read : Option Packet
  want : Nat
  got  : List Byte
  /-- Landing signal: counter and increment. -/
  sig  : Option (Nat × Nat)
  /-- The ACK to send once it is written. -/
  ack  : Option Packet
  /-- Own descriptor it belongs to. -/
  seq  : Option Nat
  /-- Rows of the landing buffer that hold data of an own descriptor; its other rows are in the response buffer (Table 6.6). -/
  held : Nat
  /-- A read out of the own scratchpad: which line of that descriptor. -/
  piece : Option Nat
  /-- Source of the landing signal: unit and device. -/
  unit : Nat
  dev  : Nat
  deriving DecidableEq, Repr

/-- One tile: core, scratchpad, matrix unit, fetch engine (chapters 3 to 6). -/
structure Tile where
  core     : CoreState
  pc       : Nat
  sstep    : Nat
  loop     : Option Loop
  /-- TL_STATUS.UNCLEAN. -/
  unclean  : Bool
  /-- Beat number of its current segment (TL_BEAT). -/
  beat     : Nat
  sreg     : SMap W64
  vreg     : SMap (BitVec 512)
  /-- Cycle in which the next word can issue at the earliest. -/
  cyc      : Nat
  /-- What has been done in the present cycle: 0 a stall is counted, 1 a row of a memory operation, 2 the instruction read
  port's slot, 8 + g a tile-slot write of row g. -/
  did      : List Nat
  /-- Cycle at which the latest write of each register is ready (R82). -/
  sready   : SMap Nat
  vready   : SMap Nat
  /-- The word whose slot B is still to be performed, with its issue cycle and word address. -/
  bWord    : Option W64
  bCyc     : Nat
  bPc      : Nat
  /-- The checks of its slot B are recorded already, with errors of slot A (R98). -/
  bTold    : Bool
  /-- Values of scalar registers that slot A of that word replaced (R81). -/
  overlay  : SMap W64
  wait     : Option WaitWord
  /-- A core entered by R101 within a segment begins after this boundary index. -/
  startAt  : Option Nat
  /-- Rows in the fetch buffer and in the loop buffer (R87). -/
  fetchRows : List Nat
  loopRows  : List Nat
  /-- First slot of the instruction read port since the last taken transfer or BOUND (R105). -/
  fetchAt   : Nat
  /-- Scratchpad bytes, at (bank × 1,032 + physical row) × 32 + byte. -/
  mem      : SMap Byte
  /-- Bytes whose parity is bad. -/
  badPar   : SMap Bool
  /-- Bytes written in the present cycle as they stood at its start, with their parity state (R111). -/
  old      : SMap (Option (Byte × Bool))
  banks    : SMap BankState
  groups   : List StoreGroup
  loads    : List LoadEntry
  claims   : List Claim
  coreLds  : List CoreLoad
  wides    : List WideStore
  memops   : List MemOp
  landing  : List Landing
  /-- Landing-buffer rows granted to multicast rounds, and queued RESERVE packets (R180). -/
  granted  : Nat
  reserves : List Packet
  matrix   : Matrix
  fetch    : Fetch
  order    : Order
  /-- Transfers done of each exchange entry in this segment (R164). -/
  xDone    : SMap Nat
  /-- Banks whose exchange slot is taken in the present cycle (R109). -/
  xUse     : List Nat
  /-- Packetised bytes of the present cycle through the exchange port: written and read (R105), and written by TRANSPOSE (R190). -/
  xIn      : Nat
  xOut     : Nat
  xTrans   : Nat
  /-- Completion signals to come: cycle and exchange entry (R165). -/
  xSig     : List (Nat × Nat)
  deriving DecidableEq, Repr

/-- A stationary buffer with no MLD, and an accumulator of +0 (R141). -/
def StatBuf.empty : StatBuf := { valid := false, mt := 0, ng := 1, data := [], lastRead := 0 }
def Acc.zero : Acc := { kind := .fp32, held := .fp32, cls := 0, elems := [], lastIssue := none, lastDrain := none }

/-- A tile that its reset leaves (R77, R100, R120, R141). -/
def Tile.fresh : Tile :=
  { core := .reset, pc := 0, sstep := 0, loop := none, unclean := false, beat := 0, sreg := [], vreg := []
    cyc := 0, did := [], sready := [], vready := [], bWord := none, bCyc := 0, bPc := 0, bTold := false, overlay := []
    wait := none, startAt := none, fetchRows := [], loopRows := [], fetchAt := 0, mem := [], badPar := [], old := []
    banks := [], groups := [], loads := [], claims := [], coreLds := [], wides := [], memops := [], landing := []
    granted := 0, reserves := []
    matrix :=
      { buf0 := .empty, buf1 := .empty, acc0 := .zero, acc1 := .zero, outs := [], mlds := [], mmas := [], drains := [], lastMma := none, drainEnd := none, key := 0, step := 0
        filler := [], passEnd := none, passFrom := 0 }
    fetch := { queue := [], flights := [], reads := [], writes := [], mc := none, mcTodo := [], nextTag := 0 }
    order := ⟨0, 0, 0, []⟩, xDone := [], xUse := [], xIn := 0, xOut := 0, xTrans := 0, xSig := [] }

/-- A row on a lane slot (R159): where it was driven and its bytes. -/
structure Drive where
  /-- Physical position; 17 is the row port. -/
  pos  : Nat
  data : List Byte
  deriving DecidableEq, Repr

/-- An error on its way to the Crown's error log (R317). -/
structure ErrNote where
  /-- 0 corrected, 1 step-recoverable, 2 unit-fatal, 3 device-fatal. -/
  cls  : Nat
  /-- Counted by a MORE bit without detail. -/
  lost : Bool
  disc : Bool
  /-- BLOCK of Table 10.6. -/
  block : Nat
  code : Nat
  unit : Nat
  inst : Nat
  phys : Nat
  beat : Nat
  info : Nat
  /-- Errors that its record represents. -/
  count : Nat
  deriving DecidableEq, Repr

/-! ## Root dies (chapters 7, 8) -/

/-- States of a root vector engine (R239). -/
inductive RveState where
  | reset | run | endWait | parked | permute
  deriving DecidableEq, Repr

/-- A root vector engine (R238 to R249). Its status words, buffer bases and mailbox are the control line of the
store. -/
structure Rve where
  st     : RveState
  /-- The state that PERMUTE returns to (R259). -/
  back   : RveState
  pc     : Nat
  x      : SMap W64
  z      : SMap (BitVec 8192)
  /-- Instruction memory, 32,768 words. -/
  imem   : SMap W64
  /-- CUR and SKIP of control-line word 0 (R252). -/
  cur    : Nat
  skip   : Bool
  /-- Spare groups in force: SPARE0_FOR and SPARE1_FOR as last applied at a clearing (R249). -/
  spare0 : Nat
  spare1 : Nat
  /-- LANE_FAILED (R249). -/
  laneFailed : Nat
  /-- How many of the next vector instructions each physical lane group performs wrongly (R249). Like bad bits of a
  memory, this is a condition of the hardware that no command makes. -/
  laneBad : SMap Nat
  /-- Logical group and beat of each mismatch since MISMATCH was cleared (R249). -/
  mism   : List (Nat × Nat)
  /-- A WAIT or WAITC in progress: counter, consume, amount. -/
  wait   : Option (Nat × Bool × Nat)
  /-- An END that waits for its earlier writes (R239). -/
  ending : Bool
  order  : Order
  /-- The root die's own copies of words 1 (a captured error), 5 (MISMATCH) and 12 (PERMUTE) of the control line (R240). -/
  err    : Nat
  mismBits : Nat
  perm   : Nat
  /-- The root core cycle from which the next instruction may issue, counted as `coreSlot` counts them (R246). -/
  cyc    : Nat
  /-- Scalar registers that READC of an own region counter writes, and the root core cycle from which each is read (R71). -/
  late   : List (Nat × Nat)
  deriving DecidableEq, Repr

/-- What a root die's outstanding packet belongs to. -/
inductive RootOp where
  /-- Release of region i (R229, R230). -/
  | release (i : Nat)
  /-- XLD into xD from its byte `sh` on, at word `epc` (R245). -/
  | load (rd sh epc : Nat)
  /-- A write of the root program at word `epc`, at its place in the issue order (R247). -/
  | write (epoch seq epc : Nat)
  /-- A packet of a PERMUTE round (R259). -/
  | permute
  /-- A packet of the checkpoint engine (chapter 10). -/
  | checkpoint
  /-- Piece `k` of a RESTORE (R315). -/
  | restore (k : Nat)
  deriving DecidableEq, Repr

/-- A packet of a root die that waits for its ACK or READ_RSP. -/
structure RootOut where
  tag  : Nat
  op   : RootOp
  addr : Nat
  len  : Nat
  deriving DecidableEq, Repr

/-- A checkpoint of a root die (R303 to R308); whether one is in progress is RT_CKPT_STATUS.BUSY. -/
structure Ckpt where
  /-- Step number, slot, RAISE and index of the checkpoint. -/
  step   : Nat
  slot   : Nat
  raise  : Nat
  index  : Nat
  /-- Bytes XORed into the parity window of the slot. -/
  xored  : Nat
  /-- RDMA WRITE messages to host storage not acknowledged. -/
  host   : Nat
  /-- The headers that go to other devices and to host storage have been sent (R307). -/
  hdrs   : Bool
  /-- The parity window met an uncorrectable word (R308). -/
  xbad   : Bool
  /-- Starts of the master range and of the gather range that are copied (R303). -/
  mb     : Nat
  gb     : Nat
  /-- Pieces of 256 bytes that have been copied. -/
  pos    : Nat
  /-- The rc edge from which the engine may send again (R305). -/
  next   : Nat
  deriving DecidableEq, Repr

/-- What an access that waits in a root die's request queue is for (R204, R208). -/
inductive DramOp where
  /-- A WRITE or READ_REQ packet. -/
  | packet (p : Packet)
  /-- Bytes that the release of region `i` writes into the own stack (R229). -/
  | release (i : Nat) (d : List Byte)
  /-- Bytes that a PERMUTE round sends to system address `dst` (R259). -/
  | permute (dst : Nat)
  /-- What is left of piece `k` of a RESTORE that lies on this device, which is read line by line: whether a word read was
  uncorrectable, and the bytes read (R315). -/
  | restore (k : Nat) (bad : Bool) (got : List Byte)
  deriving DecidableEq, Repr

/-- An access to `len` bytes from DRAM address `addr`. -/
structure DramReq where
  addr : Nat
  len  : Nat
  op   : DramOp
  deriving DecidableEq, Repr

/-- A root die: its stack's refresh, its accumulation store and regions, its vector engine. -/
structure Root where
  /-- Refresh debt of each path (R208). -/
  debt   : SMap Int
  /-- rc edge at which the refresh that occupies a path ends (R208). -/
  refEnd : SMap Nat
  /-- Paths whose forced refresh waits for the access in progress (R209). -/
  forced : List Nat
  /-- How many of the next tries of a transfer on each path fail its CRC, and the transfers in succession that
  failed it (R202). Like bad bits of a memory, the failing tries are a condition of the hardware that no command makes. -/
  crcBad : SMap Nat
  crcRun : SMap Nat
  /-- Tile-clock edge at which the retries that delay the access in progress on a path are over (R202). -/
  retry  : SMap Nat
  /-- Accesses that entered the request queue and wait for their path, oldest first (R204, R208). -/
  reqs   : List DramReq
  /-- Next line each segment's scrub visits (R207). -/
  scrub  : SMap Nat
  /-- Records by physical place: (slice × 8,208 + line) × 16 + record. A line with a zero mark lists none. -/
  store  : SMap (BitVec 128)
  /-- Bad words of the store, at 2 × place + half: 1 correctable, 2 uncorrectable (R214). -/
  storeBad : SMap Nat
  /-- Pipeline residues, at region × 32 + pipeline (R218). -/
  rr     : SMap Nat
  /-- rc edge of the last packet resolved for a region, or of its OPEN (R232). -/
  quiet  : SMap Nat
  /-- Tile-clock edge of the last add, and the groups of 8 pipelines that added in it, as bits (R396). -/
  pipes  : Nat × Nat
  rve    : Rve
  outs   : List RootOut
  nextTag : Nat
  ckpt   : Ckpt
  deriving DecidableEq, Repr

/-- An RVE that reset leaves (R239). -/
def Rve.fresh : Rve :=
  { st := .reset, back := .reset, pc := 0, x := [], z := [], imem := [], cur := 0, skip := false, spare0 := 0x3F, spare1 := 0x3F
    laneFailed := 0, laneBad := [], mism := [], wait := none, ending := false, order := ⟨0, 0, 0, []⟩
    err := 0, mismBits := 0, perm := 0, cyc := 0, late := [] }

/-- A root die that reset leaves (R208, R233). -/
def Root.fresh : Root :=
  { debt := [], refEnd := [], forced := [], crcBad := [], crcRun := [], retry := [], reqs := [], scrub := [], store := [], storeBad := [], rr := [], quiet := [], pipes := (0, 0), rve := .fresh, outs := []
    nextTag := 0, ckpt := ⟨0, 0, 0, 0, 0, 0, false, false, 0, 0, 0, 0⟩ }

/-- An entry of a PERMUTE table (Table 8.7). -/
structure PermEntry where
  src   : Nat
  dst   : Nat
  len   : Nat
  round : Nat
  deriving DecidableEq, Repr

/-- A PERMUTE accepted (R258, R259). -/
structure Permute where
  b0      : Nat
  rounds  : Nat
  entries : List PermEntry
  /-- Root dies that have finished the round of the current beat. -/
  finished : List Nat
  deriving DecidableEq, Repr

/-! ## Links (chapter 9) -/

/-- How a packet reached this device: link, stream there, and the link's session (R274, R280). -/
structure Arrival where
  link    : Nat
  stream  : Nat
  session : Nat
  deriving DecidableEq, Repr

/-- A DATA flit kept for replay (R272), with the packets whose flits lie in it and their arrivals. -/
structure HeldFlit where
  seq     : Nat
  stream  : Nat
  payload : List Byte
  pkts    : List (Packet × Option Arrival)
  /-- The first of them began in an earlier flit. -/
  cont    : Bool
  deriving DecidableEq, Repr

/-- A packet queued for a stream of a link: its bytes that have not entered a DATA flit. -/
structure TxPkt where
  pkt  : Packet
  left : List Byte
  /-- How it arrived; none for a packet of this device. -/
  src  : Option Arrival
  deriving DecidableEq, Repr

/-- The session of one link (R269 to R275). -/
structure Link where
  /-- Packets queued, by stream. -/
  txq      : SMap (List TxPkt)
  /-- Flit times each stream with ready packet flits has waited (R270). -/
  waited   : SMap Nat
  txSeq    : Nat
  replay   : List HeldFlit
  /-- Held flits still to be sent again. -/
  resend   : List HeldFlit
  rxExp    : Nat
  /-- Asked for a replay and not yet given the expected flit (R271). -/
  asking   : Bool
  /-- A REPLAY_REQ is to be sent. -/
  sendReq  : Bool
  /-- Flit times since the last REPLAY_REQ, at most 64. -/
  reqAge   : Nat
  /-- REPLAY_REQ received in succession without ACK advancing (R273). -/
  reqs     : Nat
  /-- Packet flits sent and not returned, and the last CR_TOTAL, by stream (R274). -/
  unret    : SMap Nat
  crSeen   : SMap Nat
  /-- Packet flits freed in the receive buffer, by stream, and received bytes of a packet not yet whole. -/
  rxFreed  : SMap Nat
  rxBytes  : SMap (List Byte)
  crNext   : Nat
  /-- RETRAIN attempts that failed in succession (Table 9.6). -/
  attempts : Nat
  /-- A commit has changed LK_LANEMAP, since the last training, to another value than SPARE_IN_USE (R286). -/
  mapNew   : Bool
  /-- The far receiver's lane map, which this end transmits by (R266). -/
  txMap    : Nat
  /-- Sessions begun since reset (R282). -/
  session  : Nat
  /-- The flit last put on the wire. -/
  wire     : Option LinkFlit
  /-- Bits of flits that have entered no codeword yet, as a number, and how many (R267). -/
  encBits  : Nat
  encLen   : Nat
  /-- The last codeword sent: the symbols of each physical lane, 0 to 8, in their order (R266, R267). -/
  lanes    : List (List Nat)
  deriving DecidableEq, Repr

/-- A link whose session is empty. -/
def Link.fresh : Link :=
  { txq := [], waited := [], txSeq := 0, replay := [], resend := [], rxExp := 0, asking := false, sendReq := false, reqAge := 64
    reqs := 0, unret := [], crSeen := [], rxFreed := [], rxBytes := [], crNext := 0, attempts := 0, mapNew := false
    txMap := 0xF, session := 0, wire := none, encBits := 0, encLen := 0, lanes := [] }

/-! ## The job (chapter 11) -/

/-- A due entry (Table 2.3). -/
structure Due where
  cycle : Nat
  cref  : Nat
  value : Nat
  cause : Nat
  deriving DecidableEq, Repr

/-- A power window (Table 11.10). -/
structure Window where
  /-- Its byte offset in the image. -/
  off     : Nat
  start   : Nat
  nMat    : List Nat
  nFetch  : Nat
  dramBw  : List Nat
  pipeGrp : List Nat
  rve     : Nat
  deriving DecidableEq, Repr

/-- A segment class of the loaded job (R326). -/
structure SegClass where
  /-- Byte offset of L_c in the image. -/
  off     : Nat
  len     : Nat
  bounds  : List Nat
  clear   : List Bool
  dues    : List Due
  windows : List Window
  deriving DecidableEq, Repr

/-- A TILE section (Table 11.2). -/
structure TileSec where
  tile  : Nat
  plen  : Nat
  img   : Nat
  entry : Nat
  deriving DecidableEq, Repr

/-- A ROOT section: the root die and the five addresses it gives. -/
structure RootSec where
  root : Nat
  entry : Nat
  mb0  : Nat
  mb1  : Nat
  gb0  : Nat
  gb1  : Nat
  deriving DecidableEq, Repr

/-- An INTAKE section (R337). -/
structure IntakeSec where
  /-- Byte offset in the image. -/
  off    : Nat
  stream : Nat
  port   : Nat
  bytes  : Nat
  deriving DecidableEq, Repr

/-- What the device keeps of the loaded image (R326, R338). -/
structure Job where
  profile   : Nat
  classId   : Nat
  /-- Masks of the class descriptor (Table 11.5). -/
  rows16    : Nat
  roots     : Nat
  eth       : Nat
  links     : Nat
  minBudget : Nat
  /-- Segment class of each position of an attempt. -/
  seq       : List Nat
  classes   : List SegClass
  period    : Nat
  holdBudget : Nat
  depth     : Nat
  hopMax    : Nat
  rootCycles : List Nat
  alloc     : Nat
  tiles     : List TileSec
  rootSecs  : List RootSec
  /-- Open records applied at arming (Table 7.7): root die and record. -/
  opens     : List (Nat × List Byte)
  /-- Byte offsets in the image: of the open records, and of the CLASS, TIMING and POWER sections. -/
  openOffs  : List Nat
  offClass  : Nat
  offTiming : Nat
  offPower  : Nat
  intake    : List IntakeSec
  hash      : List Byte
  deriving DecidableEq, Repr

/-! ## Restore (chapter 10) -/

/-- A RESTORE that reads parts on other devices or in host storage (R314, R315): a long command. -/
structure Restore where
  /-- Source, lost member, holder and step of the command. -/
  source : Nat
  lost   : Nat
  holder : Nat
  step   : Nat
  /-- Reading headers (false) or data (true). -/
  data   : Bool
  /-- Answers still to come, and bytes read so far by piece number. -/
  left   : Nat
  got    : SMap (List Byte)
  /-- Pieces whose answer carried FAULT, or whose read failed. -/
  bad    : List Nat
  deriving DecidableEq, Repr

/-! ## Ethernet (chapter 12) -/

/-- What a port or the sideband has sent to the outside (log entry 26). -/
inductive Sent where
  /-- An ICP reply or Chime: 0 and 1 port, 2 sideband; destination; the message. -/
  | icp (via dst : Nat) (msg : List Byte)
  | arpReply (p : Nat) (target : W32)
  | neighborAdvert (p : Nat) (target : BitVec 128)
  | echoReply (p : Nat) (v6 : Bool) (dst ident : Nat) (data : List Byte)
  /-- RoCEv2 acknowledgement of a queue pair (nak 0), or a NAK: 1 sequence error, 2 remote access, 3 invalid
  request, 4 remote operational error, 5 receiver not ready. -/
  | roceAck (q psn nak : Nat)
  | cnp (q : Nat)
  | readResponse (q psn : Nat) (data : List Byte)
  | rdmaWrite (q psn rkey va : Nat) (data : List Byte)
  | rdmaRead (q psn rkey va len : Nat)
  /-- An ICP reply in a SEND (R349). -/
  | send (q psn : Nat) (msg : List Byte)
  /-- An SPDM or MCTP control answer on the sideband, from its message type on. -/
  | mctp (msg : List Byte)
  deriving DecidableEq, Repr

/-- An MCTP packet of the 64-byte baseline transmission unit (R369). -/
structure MctpPkt where
  som  : Bool
  eom  : Bool
  seq  : Nat
  body : List Byte
  deriving DecidableEq, Repr

/-- How an item of `Sent` goes out. -/
inductive Wire where
  /-- A frame of a port: source MAC, VLAN tag of the port (0: none), and DF of an IPv4 packet (R341, R342). -/
  | frame (p : Nat) (mac : BitVec 48) (vlan : W16) (df : Bool)
  | sideband (pkts : List MctpPkt)
  deriving DecidableEq, Repr

/-- An ICP command as it arrived: where from, over what, and its bytes; over MCTP type 0x05 the SPDM request alone. -/
structure QCmd where
  src : Nat
  via : Nat
  raw : List Byte
  deriving DecidableEq, Repr

/-- An RDMA WRITE message on its way to DRAM (R346). -/
structure Intake where
  qp    : Nat
  /-- Window of the port. -/
  win   : Nat
  /-- DRAM address of its first byte, and its whole length. -/
  addr  : Nat
  len   : Nat
  /-- Payload received and not yet sent toward DRAM, and its DRAM address. -/
  next  : Nat
  buf   : List Byte
  /-- Every packet of the message has arrived. -/
  whole : Bool
  /-- WRITE packets sent and not applied: tag and bytes. -/
  outs  : List (Nat × Nat)
  /-- A WRITE packet of it was answered with FAULT. -/
  bad   : Bool
  deriving DecidableEq, Repr

/-- An RDMA READ that is served (R348). -/
structure EthRead where
  qp   : Nat
  psn  : Nat
  /-- DRAM address of the first byte. -/
  va   : Nat
  /-- READ_REQ pieces not yet sent: address and length. -/
  todo : List (Nat × Nat)
  /-- READ_REQ sent and unanswered: tag, piece and length. -/
  outs : List (Nat × Nat × Nat)
  /-- Data by piece, and how many pieces there are. -/
  got  : SMap (List Byte)
  n    : Nat
  /-- The first piece that holds an uncorrectable word, or was refused. -/
  bad  : Option Nat
  deriving DecidableEq, Repr

/-- An Ethernet port (R341 to R351). -/
structure Port where
  /-- Addresses and VLAN set and the port enabled (Table 13.5). -/
  up      : Bool
  ipv4    : W32
  ipv6    : BitVec 128
  vlan    : W16
  intake  : List Intake
  reads   : List EthRead
  nextTag : Nat
  deriving DecidableEq, Repr

/-- A requester operation of a queue pair: its PSN, the root die (8: a SEND of an ICP reply), and whether it is a read of a
restore. -/
structure RdmaOp where
  psn  : Nat
  root : Nat
  read : Option Nat
  deriving DecidableEq, Repr

/-- A queue pair (R343). -/
structure Qp where
  conn    : Bool
  err     : Bool
  port    : Nat
  rqpn    : W32
  raddr   : BitVec 128
  sendPsn : Nat
  expPsn  : Nat
  /-- A sequence-error NAK was sent and the expected packet has not come (R343, R347). -/
  nakked  : Bool
  /-- The RDMA WRITE message in progress: bytes still to come. -/
  msgLeft : Nat
  /-- Receive buffers taken by SENDs (R349). -/
  rx      : List (List Byte)
  ops     : List RdmaOp
  /-- Send rate: num ÷ (20 × 2^halvings) of line rate (R344). -/
  num     : Nat
  halvings : Nat
  /-- rc edges of the last CNP sent and of the last halving, and of the last congestion event, plus 1. -/
  cnpAt   : Nat
  halfAt  : Nat
  quietAt : Nat
  deriving DecidableEq, Repr

/-! ## Crown, flash and security (chapters 10, 12, 14) -/

/-- A record of the error log (Table 10.6). -/
structure LogRec where
  seq   : Nat
  cls   : Nat
  lost  : Bool
  disc  : Bool
  block : Nat
  code  : Nat
  unit  : Nat
  inst  : Nat
  phys  : Nat
  count : Nat
  beat  : Nat
  info  : Nat
  deriving DecidableEq, Repr

/-- The capability record (Table 11.7) but its constants. -/
structure Cap where
  rows16     : Nat
  roots      : Nat
  eth        : Nat
  links      : Nat
  rowsSpared : Nat
  banksDry   : Nat
  minPaths   : Nat
  minPipes   : Nat
  minGroups  : Nat
  linksSpared : Nat
  slicesDry  : Nat
  updated    : Nat
  deriving DecidableEq, Repr

/-- The settings record (R407). -/
structure Settings where
  fmt       : Nat
  ipv4      : SMap W32
  /-- None listed: the link-local address formed from the MAC. -/
  ipv6      : SMap (BitVec 128)
  vlan      : SMap W16
  /-- IEEE 1588 source and domain. -/
  ptp       : Option (Nat × Nat)
  budget    : Nat
  tileCeil  : Nat
  tempCeil  : Nat
  floor     : Nat
  /-- Watchdog period in rc (R368). -/
  watchdog  : Nat
  rowLimit  : Nat
  lineLimit : Nat
  tileLimit : Nat
  deriving DecidableEq, Repr

/-- The repair record (R407). -/
structure Repair where
  fmt    : Nat
  /-- Row maps and spare maps by field key, where they differ from the reset values. -/
  maps   : SMap Nat
  /-- Control-line spare fields of each root die, SPARE0_FOR + 64 × SPARE1_FOR. -/
  groups : SMap Nat
  /-- Consecutive attempts with a fault of each physical tile (Table 10.4). -/
  faults : SMap Nat
  /-- Units out of service: kind of RETURN_TO_SERVICE and instance. -/
  failed : List (Nat × Nat)
  cap    : Cap
  deriving DecidableEq, Repr

/-- The owner record (R407). -/
structure Owner where
  /-- FORMAT of the record. -/
  fmt  : Nat
  /-- Empty: no owner. -/
  key  : List Byte
  /-- The owner command key under the wrap key. -/
  cmd  : List Byte
  lock : Bool
  gen  : Nat
  deriving DecidableEq, Repr

/-- The signed records of one half, with generation and HMAC-SHA-384 tag (R407). -/
structure Half where
  gen      : Nat
  tag      : BitVec 384
  settings : Settings
  repair   : Repair
  owner    : Owner
  deriving DecidableEq, Repr

/-- One copy of the boot record: the slot last activated, and the CRC-32 that the copy carries (Table 14.1). -/
structure BootCopy where
  active : Nat
  crc    : Nat
  deriving DecidableEq, Repr

/-- A flash write that waits for the supply margin (R390). -/
inductive FlashWait where
  /-- ACTIVE names a slot. -/
  | active (i : Nat)
  /-- A counter rises by `n`. -/
  | raise (k n : Nat)
  /-- A slot becomes empty. -/
  | empty (i : Nat)
  /-- Both halves come again from the mirror (R409). -/
  | rebuild
  deriving DecidableEq, Repr

/-- The module flash and the secure flash (Tables 14.1, 14.2); the identity region, which nothing writes, is Config.pufHelper
and Config.certChain. -/
structure Flash where
  boot0    : BootCopy
  boot1    : BootCopy
  /-- Bundles of slot 0 and 1. -/
  slot0    : SMap Byte
  slot1    : SMap Byte
  half0    : Half
  half1    : Half
  mirror   : Half
  rpmc     : SMap Nat
  /-- The slot whose bundle is recorded as verified (R416). -/
  verified : Option Nat
  log      : List LogRec
  deriving DecidableEq, Repr

/-- A reply that the Crown keeps (R357). -/
structure CacheEntry where
  /-- Source of the command, and its whole message. -/
  src   : Nat
  msg   : List Byte
  reply : List Byte
  deriving DecidableEq, Repr

/-- Chime settings (R365). -/
structure Chime where
  on     : Bool
  dst    : BitVec 128
  udp    : W16
  port   : Nat
  n      : Nat
  base   : Nat
  seq    : Nat
  missed : Nat
  /-- Chime beat adopted and not yet sent. -/
  due    : Option Nat
  /-- Errors by class since the previous Chime, and the power samples since it: sum and number. -/
  errs   : List Nat
  sum    : Nat
  count  : Nat
  deriving DecidableEq, Repr

/-- The Crown (R352 to R358, R367, R368) and what its SRAM holds. -/
structure Crown where
  cache    : List CacheEntry
  queue    : List QCmd
  /-- Opcode of the long command in progress, 0 for none, and the command that waits for its reply (R358). -/
  long     : Nat
  longCmd  : Option QCmd
  /-- A block reset in progress, whose command is `longCmd`: the block, and when it is complete, in tc, root core cycles or rc as
  the block has it (Table 13.6). -/
  blockBusy : Option (Nat × Nat)
  restore  : Option Restore
  floor    : Nat
  log      : List LogRec
  logSeq   : Nat
  /-- Errors by class since boot (HEALTH). -/
  counts   : List Nat
  chime    : Chime
  /-- Working copies of the signed records; `dirty`: a write is deferred (R390). -/
  settings : Settings
  repair   : Repair
  owner    : Owner
  dirty    : Bool
  /-- The records have been read from flash since the Crown started. -/
  loaded   : Bool
  /-- The owner command key in the clear (R352). -/
  cmdKey   : BitVec 384
  /-- Flash log records deferred, and other flash writes deferred. -/
  logWait  : List LogRec
  flashWait : List FlashWait
  /-- SP_ERR PARITY, DATA_PARITY or FETCH_PARITY of physical tiles in this attempt (Table 10.4). -/
  faulty   : List Nat
  /-- Beats before which the attempts since the last poll round ended, oldest first (R309). -/
  attemptEnds : List Nat
  /-- What the Crown's health table and the hardware health state disagreed on at the last clearing: code, kind and unit,
  or 3 and the key and value of a map field (R318). -/
  differ   : List (Nat × Nat × Nat)
  /-- The clearing whose comparison the Crown made last: beat, cycle and count of Table 2.14. -/
  clearSeen : List Nat
  /-- Correctable errors of store lines, at (root die × 32 + slice) × 8,192 + line (R214). -/
  lineErrs : SMap Nat
  /-- Logical tile, bank and bank row of persistent-image rows to rewrite once their map is live (R309). -/
  rewrite  : List (Nat × Nat × Nat)
  /-- rc edge of the last watchdog restart, and edges of expiries within 10 s. -/
  wdFrom   : Nat
  wdExp    : List Nat
  /-- rc edge at which a requested device reset is due (R373). -/
  resetAt  : Option Nat
  /-- Boot ended in READY since this firmware started (R404). -/
  ready    : Bool
  /-- Bytes of the bundle received, and its length (R416). -/
  staged   : Nat
  stageLen : Nat
  /-- Running slot (R403). -/
  slot     : Nat
  /-- Override beats: cause, first beat, number (R397). -/
  overs    : SMap (Nat × Nat)
  /-- IEEE 1588 time: seconds, nanoseconds, locked (R351). -/
  secs     : Nat
  nanos    : Nat
  locked   : Bool
  /-- SPDM: how many of VERSION, CAPABILITIES and ALGORITHMS are exchanged; the messages of these three, of digests and
  certificates, and of measurements not yet signed (log entry 60). -/
  spdm     : Nat
  vca      : List Byte
  script   : List Byte
  mlog     : List Byte
  /-- MCTP endpoint identifier. -/
  eid      : Nat
  deriving DecidableEq, Repr

/-! ## Reset, power and the Regulator (chapter 13) -/

/-- A source of reset in compatibility mode: rc edge C at which it arose, rc edge E at which it ended, its cause and detail
(Table 13.4). -/
structure Armed where
  c      : Nat
  e      : Nat
  cause  : Nat
  detail : Nat
  deriving DecidableEq, Repr

/-- The reset sequencer and understory state beyond the RS_ registers. -/
structure Sequencer where
  /-- Domains in reset: 1 Crown, 2 link layer, 3 ring logic, 4 root dies, 5 to 8 tile dies, 9 escapement. -/
  held    : List Nat
  /-- rc edge of T0 of the release in progress; none while it is not known (Table 13.2). -/
  t0      : Option Nat
  /-- rc edge of T0 of the last reset that reached the tile dies (R394). -/
  clk0    : Nat
  /-- The release in progress restarts the Crown alone (R376, R417). -/
  only    : Bool
  /-- The cause that was latched last is in the Crown's log (R375). -/
  logged  : Bool
  /-- rc edge from which a PLL is waited for (R378). -/
  pllFrom : Option Nat
  /-- Compatibility mode: the rc edge at which the device stops driving RESET_N low (Table 13.4). -/
  drive   : Option Nat
  /-- Compatibility mode: a source whose reset is to be asserted (Table 13.4). -/
  arm     : Option Armed
  /-- The rc edge at which RESET_N is known to have read low last, while its release is awaited (R373, R379, R428). -/
  pinLow  : Option Nat
  /-- The rc edge, the eighth of a low pulse, at which RESET_N last became a source (R379, R380). -/
  pinFrom : Option Nat
  /-- The main rails are on. -/
  main    : Bool
  /-- rc edge at which standby begins (R387). -/
  standby : Option Nat
  /-- The auxiliary rail is good. -/
  aux     : Bool
  /-- Condition of the latched trip still present. -/
  trip    : Bool
  /-- SECONDS and SUB that RS_RTC takes at the next crystal edge, as one number (R384). -/
  rtc     : Option Nat
  /-- An activation has taken place, and the Crown's restart follows (R417). -/
  restart : Bool
  deriving DecidableEq, Repr

/-- The Regulator (R391 to R397). -/
structure Regulator where
  /-- Samples of module power, newest first, at most 1,000. -/
  power   : List Nat
  /-- Tile-clock edge of the last droop of a die, plus 1, while it lasts. Sources 0 to 3 tile dies, 4 to 11 root dies. -/
  droop   : SMap Nat
  /-- Dies above 100 °C that have not fallen below 97 °C since: 0 to 3 tile dies, 4 to 11 root dies, 12 to 15 ring dies. -/
  hot     : List Nat
  /-- rc edge of the last sample over BUDGET or TEMP_CEIL, plus 1. -/
  overAt  : Nat
  /-- rc edge since which k_b is at its top and the mean over BUDGET, plus 1. -/
  fullAt  : Nat
  /-- BUDGET_OVER has been recorded for that time. -/
  told    : Bool
  /-- DRAM traffic of the last 1,200 fc, newest first: delivered tile cycle, stack and bytes (R396). -/
  traffic : List (Nat × Nat × Nat)
  deriving DecidableEq, Repr

/-! ## Packets under way (R172 to R180) -/

/-- A place that flits pass. Buffers of Table 6.6, with their instance: 0 row port inbound (tile), 1 tile landing buffer, where
flits stay until their packet is decoded (tile), 2 crossbar input of a row
port (die × 24 + row), 3 crossbar input of a die-to-die port (die × 2 + port − 26), 4 root request queue, 5 root port return
buffer (root die), 6 ring port inbound (die). Without credit: 8 a ring segment ((ring die reached × 2 + direction) × 2 + buffer
class), 9 a tile's exchange port, 11 a root die, 12 a unit or a link on a ring die, 13 a crossbar that copies (die). -/
structure Spot where
  buf  : Nat
  inst : Nat
  deriving DecidableEq, Repr

/-- A transit packet on its way over ring segments (R281): how it arrived, none for a packet of this device, and the dimension and
class of its last hop. -/
structure Via where
  src  : Option Arrival
  last : Option (Nat × Nat)
  deriving DecidableEq, Repr

/-- A packet under way inside the device (R177). -/
structure Transit where
  pkt    : Packet
  /-- The places on its way so far, with the flits now in each. -/
  way    : List (Spot × Nat)
  /-- Flits that have reached the destination. -/
  got    : Nat
  /-- Copies that the first crossbar makes of a multicast payload (R180). -/
  copies : List Packet
  /-- A packet bound for a link of another ring die. -/
  via    : Option Via
  deriving DecidableEq, Repr

/-- What a flit takes for one fc, `k` from the first of the present cycle on (R13, R21, R160, R170). -/
inductive SlotUse where
  /-- A tile's exchange port drives a lane slot, or samples one an fc after it was driven (R159). -/
  | drive (t k : Nat)
  | sample (t k : Nat)
  /-- A lane slot: tile die, row, direction and track. -/
  | lane (die row dir track k : Nat)
  /-- An output track of a crossbar port. -/
  | track (die port track k : Nat)
  /-- The flit with TRANSPOSE bytes that a fetch engine sends in a cycle (R190). -/
  | trans (t : Nat)
  /-- A row port's input track into the crossbar, or a 32-byte share of a root or ring port into it (Table 1.5). -/
  | into (die port share k : Nat)
  /-- A 32-byte share of a ring segment (R13), by the place that stands for it. -/
  | seg (inst share k : Nat)
  deriving DecidableEq, Repr

/-! ## The block -/

/-- The whole state of the block. -/
structure State where
  /-- Commands that wait, oldest first. -/
  pending  : List Instr
  /-- Tile-clock edges since the reference clock started; six to one rc (R46). -/
  edge     : Nat
  /-- Live register fields that differ from their reset values, by field key. -/
  regs     : SMap Nat
  /-- Staging copies of the dirty fields (R31). -/
  staged   : SMap Nat
  /-- W1C fields that hardware has set in the present cycle (Table 0.5). -/
  w1cSets  : List Nat
  commit   : Option Commit
  run      : RunState
  esc      : Esc
  job      : Option Job
  bt       : Beat
  /-- The current beat is marked unclean (R294). -/
  unclean  : Bool
  /-- The next beat is marked unclean (R294). -/
  uncleanNext : Bool
  counters : SMap Counter
  /-- Signals of the present cycle, as they came (R69). -/
  sigOps   : List SigOp
  /-- CONS operations of the present cycle, in order of unit and device; they follow its signals (R69). -/
  consOps  : List ConsOp
  waiters  : List Waiter
  /-- Shadow counts of region counters, S and C, by tile die and counter (R71). -/
  shadows  : SMap (Nat × Nat)
  tiles    : SMap Tile
  /-- Rows driven into lane slots in this segment (R159). -/
  lanes    : SMap (List Drive)
  /-- Rows on crossbar output tracks in this segment (R168). -/
  xout     : SMap (List Byte)
  /-- Packets issued or arrived and not yet decoded at their destination, oldest first. -/
  net      : List Transit
  /-- Credits in use, by buffer (Table 6.6). -/
  credits  : SMap Nat
  /-- What flits have taken of lane slots, crossbar tracks, ports and ring segments in the present cycle, and in the fc after it
  (R13, R21, R160, R170). -/
  slotUse  : List SlotUse
  roots    : SMap Root
  /-- DRAM bytes, at (stack × 32 + segment) × 2^30 + byte (R201). -/
  dram     : SMap Byte
  /-- Bad 64-bit words of DRAM, at byte place / 8: 1 correctable, 2 uncorrectable (R206). -/
  dramBad  : SMap Nat
  permute  : Option Permute
  /-- Start beat of ARM (R339) and beat of STOP (R363). -/
  armBeat  : Nat
  stopBeat : Option Nat
  /-- rc edge of the last refresh interval, plus 1, and of the last reset that reached the root dies (R208). -/
  refTick  : Nat
  refFrom  : Nat
  /-- Tile-clock edge at which the clearing of a tile row's scratchpads ends, by die × 24 + row (R120). -/
  clearEnd : SMap Nat
  links    : SMap Link
  /-- Errors not yet taken by the Crown's poll round (R367). -/
  errs     : List ErrNote
  /-- Ethernet ports and queue pairs. -/
  ports    : SMap Port
  qps      : SMap Qp
  /-- What the ports and the sideband have sent, oldest first (log entry 26). -/
  sent     : List Sent
  /-- The same items as they go out, one for each (R342, R369). -/
  wires    : List Wire
  crown    : Crown
  flash    : Flash
  seqr     : Sequencer
  reg      : Regulator
  /-- The instruction that the test port holds (R413). -/
  tap      : JtagOp
  /-- How many free values have been drawn (log entry 7). -/
  freeCtr  : Nat
  deriving DecidableEq, Repr

/-- The escapement outside a run. -/
def Esc.fresh : Esc :=
  { segOn := false, due0 := false, ended := false, tc := 0, next := 0, len := 0, cls := 0, adopted := 0, live := false, freezes := []
    frozen := none, resume := none, tilesOk := false, forced := false, dueDone := [], bndDone := []
    decided := [], hold := none, charged := 0, ready := false, readyAt := 0, cleared := false, moved := [], cause := 0, lastEnd := none }

/-- The beat logic after reset. -/
def Beat.fresh : Beat :=
  { held := none, tgl := false, lastEdge := none, noHoldLow := false, domReady := none, words := [], heard := []
    refFrom := 0, pinEdge := false, linkEdges := 0, mute := true }

/-- A port that reset leaves. -/
def Port.fresh : Port := { up := false, ipv4 := 0, ipv6 := 0, vlan := 0, intake := [], reads := [], nextTag := 0 }

/-- A queue pair that is not connected. -/
def Qp.fresh : Qp :=
  { conn := false, err := false, port := 0, rqpn := 0, raddr := 0, sendPsn := 0, expPsn := 0, nakked := false
    msgLeft := 0, rx := [], ops := [], num := 20, halvings := 0, cnpAt := 0, halfAt := 0, quietAt := 0 }

/-- The record of a device with every unit in service (log entry 10). -/
def Cap.full : Cap :=
  { rows16 := 2 ^ 96 - 1, roots := 255, eth := 3, links := 2 ^ 24 - 1, rowsSpared := 0, banksDry := 0, minPaths := 2
    minPipes := 2, minGroups := 2, linksSpared := 0, slicesDry := 0, updated := 0 }

/-- Defaults of the settings record (R408). -/
def Settings.default : Settings :=
  { fmt := 1, ipv4 := [], ipv6 := [], vlan := [], ptp := none, budget := 180000, tileCeil := 256, tempCeil := 1520
    floor := 192, watchdog := 10000000, rowLimit := 2, lineLimit := 2, tileLimit := 3 }

/-- A repair record with no repair. -/
def Repair.fresh : Repair := { fmt := 1, maps := [], groups := [], faults := [], failed := [], cap := .full }

/-- No owner. -/
def Owner.none : Owner := { fmt := 1, key := [], cmd := [], lock := false, gen := 0 }

/-- Entries of a map as numbers. -/
def pairNums (l : List (Nat × Nat)) : List Nat := l.length :: l.flatMap (fun e => [e.1, e.2])

/-- The content of a settings record. -/
def Settings.nums (x : Settings) : List Nat :=
  [x.fmt, x.budget, x.tileCeil, x.tempCeil, x.floor, x.watchdog, x.rowLimit, x.lineLimit, x.tileLimit]
    ++ pairNums (x.ipv4.map (fun e => (e.1, e.2.toNat))) ++ pairNums (x.ipv6.map (fun e => (e.1, e.2.toNat)))
    ++ pairNums (x.vlan.map (fun e => (e.1, e.2.toNat))) ++ pairNums (x.ptp.toList)

/-- The content of a repair record. -/
def Repair.nums (x : Repair) : List Nat :=
  [x.fmt, x.cap.rows16, x.cap.roots, x.cap.eth, x.cap.links, x.cap.rowsSpared, x.cap.banksDry, x.cap.minPaths,
    x.cap.minPipes, x.cap.minGroups, x.cap.linksSpared, x.cap.slicesDry, x.cap.updated]
    ++ pairNums x.maps ++ pairNums x.groups ++ pairNums x.faults ++ pairNums x.failed

/-- The content of an owner record. -/
def Owner.nums (x : Owner) : List Nat :=
  [x.fmt, x.gen, (if x.lock then 1 else 0), x.key.length, x.cmd.length] ++ x.key.map (·.toNat) ++ x.cmd.map (·.toNat)

/-- The tag of a half: HMAC-SHA-384 under the record key over everything else in it (R407). -/
def Half.mac (h : Half) : BitVec 384 :=
  Config.hmac384 Config.recordKey (Config.recordBytes 8 (h.gen :: h.settings.nums ++ h.repair.nums ++ h.owner.nums))

/-- The half with the tag that its content takes. -/
def Half.sealed (h : Half) : Half := { h with tag := h.mac }

/-- A half of generation `g` as the factory leaves it. -/
def Half.factory (g : Nat) : Half := Half.sealed { gen := g, tag := 0, settings := .default, repair := .fresh, owner := .none }

/-- The flash as the factory leaves it (log entry 10). -/
def Flash.factory : Flash :=
  { boot0 := ⟨0, 0xD202EF8D⟩, boot1 := ⟨0, 0xD202EF8D⟩, slot0 := SMap.writeList 0 0 Config.factoryBundle [], slot1 := []
    half0 := .factory 0, half1 := .factory 0, mirror := .factory 0, rpmc := [], verified := .none, log := [] }

/-- No Chime settings. -/
def Chime.off : Chime :=
  { on := false, dst := 0, udp := 0, port := 0, n := 64, base := 0, seq := 0, missed := 0, due := .none, errs := [0, 0, 0, 0], sum := 0
    count := 0 }

/-- The Crown after reset: nothing read from flash yet. -/
def Crown.fresh : Crown :=
  { cache := [], queue := [], long := 0, longCmd := .none, blockBusy := .none, restore := .none, floor := 0, log := [], logSeq := 0, counts := [0, 0, 0, 0]
    chime := .off, settings := .default, repair := .fresh, owner := .none, dirty := false, loaded := false, cmdKey := 0, logWait := [], flashWait := [], faulty := []
    attemptEnds := [], differ := [], clearSeen := [], lineErrs := [], rewrite := []
    wdFrom := 0, wdExp := [], resetAt := .none, ready := false, staged := 0, stageLen := 0, slot := 0, overs := []
    secs := 0, nanos := 0, locked := false, spdm := 0, vca := [], script := [], mlog := []
    eid := 0 }

/-- Every main domain in reset at a first power-on (log entry 11). -/
def Sequencer.powerOn : Sequencer :=
  { held := [1, 2, 3, 4, 5, 6, 7, 8, 9], t0 := some 0, clk0 := 0, only := false, logged := false, pllFrom := .none, drive := .none, arm := .none, pinLow := .none, pinFrom := .none, main := true
    standby := .none, aux := true, trip := false, rtc := .none, restart := false }

/-- The Regulator after reset. -/
def Regulator.fresh : Regulator := { power := [], droop := [], hot := [], overAt := 0, fullAt := 0, told := false, traffic := [] }

/-- The machine right after reset. -/
def State.reset : State :=
  { pending := [], edge := 0, regs := [], staged := [], w1cSets := [], commit := none, run := .idle, esc := .fresh, job := none
    bt := .fresh, unclean := false, uncleanNext := false, counters := [], sigOps := [], consOps := [], waiters := [], shadows := []
    tiles := [], lanes := [], xout := [], net := [], credits := [], slotUse := [], roots := []
    dram := [], dramBad := [], permute := none, armBeat := 0, stopBeat := none, refTick := 0, refFrom := 0, clearEnd := [], links := [], errs := []
    ports := [], qps := [], sent := [], wires := [], crown := .fresh, flash := .factory, seqr := .powerOn, reg := .fresh, tap := .idcode
    freeCtr := 0 }

end Sys2Proof.Machine
end

