-- ==== Sys2Proof/Machine/Ops.lean ====
section
/-! DEFINITION. The named operations over registers, units, time, sync counters and packets that every meaning
is written over. -/

namespace Sys2Proof.Machine

/-- The outcome of a command. -/
abbrev Out := Host.Outcome State Fault Refusal

/-- A command on a unit that exists has its effect; on one that does not, it faults (log entry 3). -/
def guardUnit (ok : Bool) (s : State) : Out := if ok then .next s else .fault .noSuchUnit

/-! ## Register fields -/

/-- The key of a field: word address of instance `i`, index `j`, and bit place. -/
def RegField.key (f : RegField) (i j : Nat) : Nat :=
  (f.block.base + i * f.block.stride + f.off + j * f.stride) * 64 + f.lo

/-- The live value of a field. -/
def State.fld (s : State) (f : RegField) (i j : Nat) : Nat := s.regs.read f.reset (f.key i j)

/-- Set the live value of a field to the low bits of `v`; a W1C bit that is set is kept in mind until the cycle ends. -/
def State.setFld (s : State) (f : RegField) (i j v : Nat) : State :=
  { s with regs := s.regs.write f.reset (f.key i j) (v % 2 ^ f.width)
           w1cSets := if f.acc = .w1c ∧ v ≠ 0 then f.key i j :: s.w1cSets else s.w1cSets }

/-- Set a counting field, which is never W1C. -/
def State.putFld (s : State) (f : RegField) (i j v : Nat) : State :=
  { s with regs := s.regs.write f.reset (f.key i j) (v % 2 ^ f.width) }

/-- Add to a counting field; it wraps. -/
def State.addFld (s : State) (f : RegField) (i j n : Nat) : State := s.putFld f i j (s.fld f i j + n)

/-- Add to a counting field that saturates. -/
def State.satFld (s : State) (f : RegField) (i j n : Nat) : State :=
  s.putFld f i j (satAdd f.width (s.fld f i j) n)

/-- Set several fields of one instance. -/
def State.setFlds (s : State) (i j : Nat) (l : List (RegField × Nat)) : State :=
  l.foldl (fun s p => s.setFld p.1 i j p.2) s

/-! ## Time -/

/-- rc edges so far (R46). -/
def State.rc (s : State) : Nat := s.edge / 6
/-- Whether the present tile-clock edge coincides with an rc edge. -/
def State.atRc (s : State) : Bool := s.edge % 6 == 0
/-- The beat number (R41). -/
def State.beat (s : State) : Nat := s.fld F.ES_BEAT_NUM_BEAT 0 0
/-- Own device number, SELF (R276). -/
def State.self (s : State) : Nat := s.fld F.LK_TOPO_SELF 0 0
/-- Tile-clock edge `j` of 256 is swallowed at rate `k` (R394). -/
def swallows (k j : Nat) : Bool := decide (j % 256 * k / 256 < (j % 256 + 1) * k / 256)

/-- Budget term k_b (R393). -/
def State.kBudget (s : State) : Nat := s.fld F.PW_STATUS_K_BUDGET 0 0

/-- Timing profile in force; 1 where no job is loaded (R83). -/
def State.profile (s : State) : Nat := if s.fld F.ES_JOB_INFO_PROFILE 0 0 = 2 then 2 else 1
/-- The delivered segment cycle of now (R72, TL_CYCLE): the one to be delivered next where the present edge is not
delivered. -/
def State.cycleNow (s : State) : Nat := if s.esc.live then s.esc.next - 1 else s.esc.next
/-- A segment cycle is being delivered to the tiles. -/
def State.ticking (s : State) : Bool := s.esc.segOn && s.esc.live
/-- Cycle recorded with an error: 0xFFFF_FFFF outside a segment (Table 4.9). -/
def State.errCycle (s : State) : Nat := if s.esc.segOn then s.cycleNow else 0xFFFFFFFF
/-- Cycle recorded with a signal (R72). -/
def State.sigCycle (s : State) : Nat := if s.esc.segOn then s.cycleNow % 65536 else 0xFFFF
/-- A run is under way (R32). -/
def State.inRun (s : State) : Bool :=
  match s.run with
  | .armed | .running | .held | .draining => true
  | _ => false

/-- The device counts as being at a clearing continuously (R33). -/
def State.idleRun (s : State) : Bool :=
  match s.run with
  | .idle | .loaded | .armed | .stopped => true
  | _ => false

/-- Draw a free value (log entry 7). -/
def State.draw (s : State) : Nat × State := (Config.free s.freeCtr, { s with freeCtr := s.freeCtr + 1 })

/-! ## What leaves the device (R342, R369) -/

/-- A message cut into MCTP packets of 64 bytes. -/
def mctpPackets (msg : List Byte) : List MctpPkt :=
  let n := max 1 ((msg.length + 63) / 64)
  (upFrom 0 n).map (fun k => ⟨k == 0, k + 1 == n, k % 4, (msg.drop (64 * k)).take 64⟩)

/-- An IPv4 address mapped into IPv6. -/
def mapped4 (a : Nat) : Bool := a / 2 ^ 32 == 0xFFFF

/-- How an item goes out: over a port with the port's MAC and VLAN tag, an IPv4 packet with DF set; over the sideband in
packets, an ICP message behind type 0x7F and the enterprise number, most significant byte first (log entry 60). -/
def State.wireOf (s : State) (x : Sent) : Wire :=
  let frame (p : Nat) (df : Bool) : Wire := .frame p (Config.mac p) (s.ports.read Port.fresh p).vlan df
  let qp (q : Nat) : Wire := let y := s.qps.read Qp.fresh q; frame y.port (mapped4 y.raddr.toNat)
  match x with
  | .icp via dst msg =>
    if via < 2 then frame via (mapped4 (dst / 65536))
    else .sideband (mctpPackets ([0x7F] ++ (toBytes Config.enterprise.toNat 4).reverse ++ msg))
  | .arpReply p _ | .neighborAdvert p _ => frame p false
  | .echoReply p v6 _ _ _ => frame p !v6
  | .roceAck q _ _ | .cnp q | .readResponse q _ _ | .rdmaWrite q _ _ _ _ | .rdmaRead q _ _ _ _ | .send q _ _ => qp q
  | .mctp msg => .sideband (mctpPackets msg)

/-- Something leaves a port or the sideband. -/
def State.emit (s : State) (x : Sent) : State := { s with sent := s.sent ++ [x], wires := s.wires ++ [s.wireOf x] }

/-! ## Tiles -/

def State.tile (s : State) (t : Nat) : Tile := s.tiles.read Tile.fresh t
def State.setTile (s : State) (t : Nat) (x : Tile) : State := { s with tiles := s.tiles.write Tile.fresh t x }
def State.updTile (s : State) (t : Nat) (f : Tile → Tile) : State := s.setTile t (f (s.tile t))

def State.root (s : State) (r : Nat) : Root := s.roots.read Root.fresh r
def State.setRoot (s : State) (r : Nat) (x : Root) : State := { s with roots := s.roots.write Root.fresh r x }
def State.updRoot (s : State) (r : Nat) (f : Root → Root) : State := s.setRoot r (f (s.root r))
def State.rve (s : State) (r : Nat) : Rve := (s.root r).rve
def State.updRve (s : State) (r : Nat) (f : Rve → Rve) : State := s.updRoot r (fun x => { x with rve := f x.rve })

def State.link (s : State) (n : Nat) : Link := s.links.read Link.fresh n
def State.setLink (s : State) (n : Nat) (x : Link) : State := { s with links := s.links.write Link.fresh n x }
def State.updLink (s : State) (n : Nat) (f : Link → Link) : State := s.setLink n (f (s.link n))

/-- Tile die, row and column of a logical tile (Table 1.6). -/
def tileDie (t : Nat) : Nat := t / 384
def tileRow (t : Nat) : Nat := t % 384 / 16
def tileCol (t : Nat) : Nat := t % 16

/-- FENCED_POS and FENCED_POS2 of a row (Table 1.15). -/
def State.fencedPos (s : State) (die row : Nat) : Nat := s.fld F.XC_ROWMAP_FENCED_POS die row
def State.fencedPos2 (s : State) (die row : Nat) : Nat := s.fld F.XC_ROWMAP_FENCED_POS2 die row

/-- The positions of a row in its logical map, ascending (R14). -/
def mapPositions (f g : Nat) : List Nat := (upFrom 0 17).filter (fun p => p != f && (g == 0x1F || p != g))

/-- Physical position of a logical tile; none for a column that does not exist (R14, R15). -/
def State.physOf (s : State) (t : Nat) : Option Nat :=
  (mapPositions (s.fencedPos (tileDie t) (tileRow t)) (s.fencedPos2 (tileDie t) (tileRow t)))[tileCol t]?

/-- Number of the physical tile: (die × 24 + row) × 17 + position. -/
def physIndex (die row pos : Nat) : Nat := (die * 24 + row) * 17 + pos

/-- The physical tile under a logical number. -/
def State.physTile (s : State) (t : Nat) : Nat :=
  physIndex (tileDie t) (tileRow t) ((s.physOf t).getD 17)

/-! ## Unclean marks and error records -/

/-- Mark the step unclean (R294): the current beat up to and including the edge at which it is locally ready, then the
next. -/
def State.markUnclean (s : State) : State :=
  if (s.esc.ready && s.esc.readyAt != s.edge) || s.idleRun then { s with uncleanNext := true } else { s with unclean := true }

/-- A tile marks the step unclean, and shows it (TL_STATUS.UNCLEAN, Table 3.11). -/
def State.tileUnclean (s : State) (t : Nat) : State := s.markUnclean.updTile t (fun x => { x with unclean := true })

/-- Put an error on its way to the Crown's log. -/
def State.note (s : State) (e : ErrNote) : State := { s with errs := s.errs ++ [e] }

/-- A capture register: fills it when VALID is clear, else sets MORE and leaves the count to the Crown's
error log (R98, R317). -/
def State.capture (s : State) (valid more : RegField) (i : Nat) (l : List (RegField × Nat)) (e : ErrNote) :
    State :=
  if s.fld valid i 0 = 1 then (s.setFld more i 0 1).note { e with lost := true }
  else ((s.setFlds i 0 l).setFld valid i 0 1).note e

/-- A step-recoverable error note of a block (Table 10.6). -/
def State.errNote (s : State) (block code unit inst info : Nat) : ErrNote :=
  { cls := 1, lost := false, disc := false, block := block, code := code, unit := unit, inst := inst, phys := 0
    beat := s.beat, info := info, count := 1 }

/-- An error note of a tile's block, with its PHYS field (Table 10.6). -/
def State.tileNote (s : State) (block code unit t info : Nat) : ErrNote :=
  { s.errNote block code unit t info with
    phys := tileDie t * 1024 + tileRow t * 32 + (s.physOf t).getD 0 }

/-! ## Sync counters (R63 to R72) -/

def Counter.fresh : Counter := ⟨0, 0, false, 0, 0, 0, 0, 0⟩

/-- Keys of the counters of a tile, of the device and of a region. -/
def tileCtr (t i : Nat) : Nat := t * 64 + i
def devCtr (i : Nat) : Nat := 0x20000 + i
def rgnCtr (r i : Nat) : Nat := 0x30000 + r * 128 + i

def State.ctr (s : State) (k : Nat) : Counter := s.counters.read Counter.fresh k
def State.setCtr (s : State) (k : Nat) (c : Counter) : State :=
  { s with counters := s.counters.write Counter.fresh k c }

/-- S − C. -/
def State.value (s : State) (k : Nat) : Nat := (s.ctr k).s - (s.ctr k).c

/-- The counter a CREF names; none for a reserved CREF (R65, Table 2.6). `self`: the issuing tile. -/
def crefKey (self : Option Nat) (w : Nat) : Option Nat :=
  if bits w 31 30 = 0 then
    if bits w 28 27 != 0 || bits w 15 8 != 0 || bits w 7 6 != 0 then none
    else if bit w 29 then self.map (fun t => tileCtr t (bits w 5 0))
    else if bits w 26 16 < 1536 then some (tileCtr (bits w 26 16) (bits w 5 0)) else none
  else if bits w 31 30 = 1 then
    if bits w 29 8 != 0 then none else some (devCtr (bits w 7 0))
  else if bits w 31 30 = 2 then
    if bits w 29 19 != 0 || bits w 15 8 != 0 || bit w 7 then none
    else some (rgnCtr (bits w 18 16) (bits w 6 0))
  else none

/-- The CREF that names a counter. -/
def keyCref (k : Nat) : Nat :=
  if k < 0x20000 then k / 64 * 65536 + k % 64
  else if k < 0x30000 then 2 ^ 30 + (k - 0x20000)
  else 2 ^ 31 + (k - 0x30000) / 128 * 65536 + (k - 0x30000) % 128

/-- Record an underrun (1) or overflow (2) in SY_ERR of the counter's block (R70). -/
def State.syErr (s : State) (k code unit dev : Nat) : State :=
  let l (c u x d : RegField) := [(c, code), (u, unit), (x, if k < 0x20000 then k % 64 else if k < 0x30000 then k - 0x20000 else (k - 0x30000) % 128), (d, dev)]
  (if k < 0x20000 then
    s.capture F.SY_ERR_VALID F.SY_ERR_MORE (k / 64)
      (l F.SY_ERR_CODE F.SY_ERR_UNIT F.SY_ERR_COUNTER F.SY_ERR_DEVICE) (s.tileNote 5 code unit (k / 64) k)
  else if k < 0x30000 then
    s.capture F.SYD_ERR_VALID F.SYD_ERR_MORE 0
      (l F.SYD_ERR_CODE F.SYD_ERR_UNIT F.SYD_ERR_COUNTER F.SYD_ERR_DEVICE) (s.errNote 5 code unit 0 k)
  else
    s.capture F.RT_SY_ERR_VALID F.RT_SY_ERR_MORE ((k - 0x30000) / 128)
      (l F.RT_SY_ERR_CODE F.RT_SY_ERR_UNIT F.RT_SY_ERR_COUNTER F.RT_SY_ERR_DEVICE)
      (s.errNote 5 code unit ((k - 0x30000) / 128) k)).markUnclean

/-- In R69's order of one cycle, a signal of `unit` and `dev` comes before the one that the counter records last. -/
def State.sigBefore (s : State) (c : Counter) (unit dev : Nat) : Bool :=
  c.edge == s.edge + 1 && (decide (unit < c.unit) || (unit == c.unit && decide (dev < c.dev)))

/-- The counter with `n` signalled, and its last signaller (R72). -/
def State.signalled (s : State) (c : Counter) (n unit dev : Nat) : Counter :=
  { c with s := c.s + n, valid := true, dev := dev, unit := unit, beat := s.beat, cycle := s.sigCycle, edge := s.edge + 1 }

/-- SIG (Table 2.7): S ← S + n, its last signaller (R72) in the order of R69. One that would overflow (R64) as it comes is decided
when the cycle ends, with the other signals of its counter in their order (log entry 115). -/
def State.applySig (s : State) (k n unit dev : Nat) : State :=
  let c := s.ctr k
  let fits := decide (c.s + n < 2 ^ 48)
  if n = 0 then s
  else
    { (if !fits then s
       else if s.sigBefore c unit dev then s.setCtr k { c with s := c.s + n }
       else s.setCtr k (s.signalled c n unit dev)) with sigOps := s.sigOps ++ [⟨k, n, unit, dev, fits⟩] }

/-- Signals in ascending order of unit and device (R69). -/
def insertSig (x : SigOp) : List SigOp → List SigOp
  | [] => [x]
  | y :: ys => if x.unit < y.unit || (x.unit == y.unit && decide (x.dev < y.dev)) then x :: y :: ys else y :: insertSig x ys

/-- A signal in its turn: an overflow is logged and not performed (R64, R70). -/
def State.sigTurn (s : State) (x : SigOp) : State :=
  let c := s.ctr x.key
  if c.s + x.n < 2 ^ 48 then s.setCtr x.key (s.signalled c x.n x.unit x.dev) else s.syErr x.key 2 x.unit x.dev

/-- The signals `ops` of counter `k` in one cycle, one of which overflows: all of them again, in the order of R69. -/
def State.resignal (s : State) (ops : List SigOp) (k : Nat) : State :=
  let mine := ops.filter (fun x => x.key == k)
  let added := ((mine.filter (·.done)).map (·.n)).foldl (· + ·) 0
  let c := s.ctr k
  (mine.foldl (fun l x => insertSig x l) []).foldl State.sigTurn (s.setCtr k { c with s := c.s - added })

/-- The signals of the cycle are settled: where one overflowed, which is performed goes by unit and device (R69). -/
def State.settleSigs (s : State) : State :=
  (((s.sigOps.filter (fun x => !x.done)).map (·.key)).eraseDups).foldl (fun s' k => s'.resignal s.sigOps k) { s with sigOps := [] }

/-- CONS (Table 2.7): C ← C + n when that does not exceed S; otherwise an underrun (R70). S stays below 2^48, so a C that
would overflow exceeds S: DESIGN CHOICE (log entry 115), one that would do both is logged as the underrun. -/
def State.applyCons (s : State) (k n unit dev : Nat) : State :=
  let c := s.ctr k
  if c.c + n ≤ c.s then s.setCtr k { c with c := c.c + n } else s.syErr k 1 unit dev

/-- CONS operations in ascending order of unit and device (R69). -/
def insertCons (x : ConsOp) : List ConsOp → List ConsOp
  | [] => [x]
  | y :: ys => if x.unit < y.unit || (x.unit == y.unit && decide (x.dev < y.dev)) then x :: y :: ys else y :: insertCons x ys

/-- A CONS is issued: it takes its turn when the present cycle ends, after every signal of the cycle (R69, log entry 115). -/
def State.queueCons (s : State) (k n unit : Nat) : State :=
  { s with consOps := insertCons ⟨k, n, unit, s.self⟩ s.consOps }

/-- The CONS operations of the cycle take effect. -/
def State.applyConsOps (s : State) : State :=
  s.consOps.foldl (fun s x => s.applyCons x.key x.n x.unit x.dev) { s with consOps := [] }

/-- Levelling (R296). -/
def State.level (s : State) (k : Nat) : State := let c := s.ctr k; s.setCtr k { c with c := c.s }

/-- Read the shadow of a region counter on a tile die: it follows the root die's own count by a lag the spec
leaves open, never ahead and never back (R71; the catch-up is a free value, log entry 7). -/
def State.readShadow (s : State) (die k : Nat) : Nat × Nat × State :=
  let c := s.ctr k
  let (s0, c0) := s.shadows.read (0, 0) (die * 1024 + (k - 0x30000))
  let (a, s1) := s.draw
  let (b, s2) := s1.draw
  let s' := min c.s s0 + a % (c.s - min c.s s0 + 1)
  let c' := min c.c c0 + b % (c.c - min c.c c0 + 1)
  (s', c', { s2 with shadows := s2.shadows.write (0, 0) (die * 1024 + (k - 0x30000)) (s', c') })

/-- Waiters sorted into ascending unit identifier (R69). -/
def insertWaiter (w : Waiter) : List Waiter → List Waiter
  | [] => [w]
  | x :: xs => if w.unit < x.unit then w :: x :: xs else x :: insertWaiter w xs

/-- Latency class of a counter for a tile: 0 own tile, 1 same die, 2 other die, 3 device, 4 region. -/
def ctrClass (t k : Nat) : Nat :=
  if k < 0x20000 then (if k / 64 = t then 0 else if tileDie (k / 64) = tileDie t then 1 else 2)
  else if k < 0x30000 then 3 else 4

/-- Table 2.8 in tc (Table 3.5). -/
def ctrLatency (t k : Nat) : Nat :=
  match ctrClass t k with
  | 0 => 1
  | 1 => 8
  | 2 => 12
  | 3 => 6
  | _ => 10

/-! ## Packets (Table 6.4) -/

/-- A system address (R30). -/
def sysAddr (dev addr : Nat) : Nat := dev * 2 ^ 48 + addr

/-- A buffer of Table 6.6 by instance and channel. -/
def creditKey (buf inst : Nat) (vc : Nat) : Nat := (buf * 8192 + inst % 8192) * 2 + vc

/-- Flits of a buffer by channel (Table 6.6): 0 row port inbound, 1 tile landing buffer, 2 crossbar input per row port,
3 crossbar input per die-to-die port, 4 root request queue, 5 root port return buffer, 6 ring port inbound, 7
fetch-engine response buffer. 0: the table gives the channel no credit. -/
def bufferFlits (buf vc : Nat) : Nat :=
  match buf, vc with
  | 0, _ => 4
  | 1, 0 => 16
  | 2, 0 => 32
  | 2, _ => 16
  | 3, 0 => 128
  | 3, _ => 64
  | 4, 0 => 512
  | 5, 1 => 256
  | 6, 0 => 256
  | 6, _ => 128
  | 7, 1 => 512
  | _, _ => 0

/-- Where a unit puts its packets into the device: 0 a tile's fetch engine or core and 2 its scratchpad, both by its exchange port,
5 a root die, 13 a die crossbar, 14 a row port, 6 a ring die. -/
def sourceSpot (buf inst : Nat) : Spot :=
  match buf with
  | 0 | 2 => ⟨9, inst⟩
  | 5 => ⟨11, inst⟩
  | 13 | 14 => ⟨buf, inst⟩
  | _ => ⟨12, inst⟩

/-- A unit puts a packet into the device: its flits stand at the unit (R177). -/
def State.send (s : State) (buf inst : Nat) (p : Packet) : State :=
  { s with net := s.net ++ [⟨p, [(sourceSpot buf inst, p.flits)], 0, [], none⟩] }

/-- Flits of a packet in the landing buffer of its tile, where they stay until it is decoded (Table 6.6). -/
def Transit.inLanding (x : Transit) : Nat := ((x.way.filter (fun e => e.1.buf == 1)).map (·.2)).foldl (· + ·) 0

/-- Every flit of the packet has reached the destination. -/
def Transit.whole (x : Transit) : Bool := x.got + x.inLanding == x.pkt.flits

/-- The packet of the pool that a packet command decodes: a transit packet is none (R281). -/
def Transit.isPkt (x : Transit) (p : Packet) : Bool := decide (x.pkt = p) && x.via.isNone

/-- The credits of a landing buffer that the flits of a packet hold return. -/
def Transit.freeLanding (x : Transit) (c : SMap Nat) : SMap Nat :=
  x.way.foldl (fun c e =>
    if e.1.buf = 1 then c.write 0 (creditKey 1 e.1.inst 0) (c.read 0 (creditKey 1 e.1.inst 0) - e.2) else c) c

/-- A packet leaves the pool, and the landing buffer, when it is decoded. -/
def State.take (s : State) (p : Packet) : State :=
  { s with net := dropFirst (fun x => x.isPkt p && x.whole) s.net
           credits := match s.net.find? (fun x => x.isPkt p && x.whole) with
             | some x => x.freeLanding s.credits
             | none => s.credits }

/-- Unit kinds of Table 2.15. -/
def unitId (kind n : Nat) : Nat := kind * 4096 + n

/-- The answer to a write packet (R175). -/
def ackOf (p : Packet) (self status : Nat) : Packet :=
  mkPacket { dest := sysAddr p.srcDev 0, unit := p.srcUnit, dev := self, kind := 7, vc := 1, tag := p.tag, status := status }

/-- The answer to a READ_REQ (R175). -/
def rspOf (p : Packet) (self status : Nat) (data : List Byte) : Packet :=
  mkPacket { dest := sysAddr p.srcDev 0, unit := p.srcUnit, dev := self, kind := 4, vc := 1, tag := p.tag
             status := status, len := data.length, payload := data }

/-! ## Signals out of a unit -/

/-- A signal leaves its issuer (R176): applied where the counter is the issuer's own, else a SIGNAL packet. -/
def State.emitSig (s : State) (unit : Nat) (rel : Bool) (own : Option Nat) (cref : Nat) (n dev buf inst : Nat) :
    State :=
  let k := crefKey own cref
  if dev = s.self && (match k, own with
      | some k, some t => decide (k < 0x20000) && k / 64 == t
      | _, _ => false) then s.applySig (k.getD 0) n unit s.self
  else
    s.send buf inst (mkPacket { dest := sysAddr dev 0, unit := unit, dev := s.self, kind := 5, rel := rel
                                cref := match k with | some k => keyCref k | none => cref
                                n := n })

end Sys2Proof.Machine
end

