-- ==== Sys2Proof/Machine/Operands.lean ====
section
/-! DEFINITION. Operand forms of the tile's instruction words (Tables 3.1 to 3.4, R79 to R83, R112, R138):
fields, what is illegal or reserved, sources, destinations and latencies. -/

namespace Sys2Proof.Machine

/-- Slot A of a word (R78). -/
def slotA (w : W64) : Nat := wbits w 31 0
/-- Slot B of a word. -/
def slotB (w : W64) : Nat := wbits w 63 32

/-! ## Fields of a slot (Table 3.2) -/

def fOp (x : Nat) : Nat := bits x 31 26
def fRd (x : Nat) : Nat := bits x 25 21
def fRa (x : Nat) : Nat := bits x 20 16
def fRb (x : Nat) : Nat := bits x 15 11
def fFn (x : Nat) : Nat := bits x 10 0
def fImm (x : Nat) : Nat := bits x 15 0
def fCond (x : Nat) : Nat := bits x 15 13
def fQ (x : Nat) : Nat := bits x 17 16
def fRemote (x : Nat) : Bool := bit x 10
def fIdx (x : Nat) : Nat := bits x 25 20
def fLen (x : Nat) : Nat := bits x 6 0
def fSz (x : Nat) : Nat := bits x 15 13
def fTy (x : Nat) : Nat := bits x 10 8
def fFnLo (x : Nat) : Nat := bits x 7 0

/-- Sign-extended IMM16. -/
def immS (x : Nat) : Int := signed 16 x
def off13 (x : Nat) : Int := signed 13 x
def off26 (x : Nat) : Int := signed 26 x

/-! ## Illegal words and reserved fields (R80) -/

/-- Slot A codes of Table 3.3. -/
def knownA (op : Nat) : Bool :=
  op ≤ 6 || (0x10 ≤ op && op ≤ 0x1B) || (0x20 ≤ op && op ≤ 0x27) || op == 0x30 || op == 0x31

/-- Slot B codes of Table 3.4. -/
def knownB (op : Nat) : Bool :=
  op ≤ 4 || op == 6 || op == 7 || op == 8 || (0x10 ≤ op && op ≤ 0x19) || (0x30 ≤ op && op ≤ 0x33)

/-- Slot A is illegal (R80). -/
def illegalA (x : Nat) : Bool :=
  !knownA (fOp x) ||
  match fOp x with
  | 0x02 => fCond x > 5
  | 0x10 => fFn x > 0x0D
  | 0x15 => bits x 10 9 == 3
  | 0x16 => fFn x > 2
  | 0x17 => fFn x > 3
  | _ => false

/-- Slot A has a reserved field (R80, R85, R88, R90). -/
def reservedA (x : Nat) : Bool :=
  match fOp x with
  | 0x00 | 0x06 | 0x27 => bits x 25 0 != 0
  | 0x03 | 0x30 => fRd x != 0 || fRb x != 0 || fFn x != 0
  | 0x05 => fRa x != 0 || bits x 15 7 != 0 || fLen x < 1 || fLen x > 64
  | 0x15 => fRb x != 0 || bits x 8 6 != 0
  | 0x18 => fRa x != 0
  | 0x19 => bits x 20 18 != 0
  | 0x1A => fRa x != 0 || bits x 15 10 != 0
  | 0x1B => fRd x != 0 || bits x 15 10 != 0
  | 0x20 | 0x21 => bits x 9 0 != 0 || (!fRemote x && fRb x != 0)
  | 0x22 | 0x23 | 0x24 => bits x 9 0 != 0 || fRemote x
  | 0x25 => bits x 9 0 != 0 || fRemote x || fRa x != 0 || fRb x % 2 == 1 || fRb x < 2
  | 0x26 => bits x 19 16 != 0
  | 0x31 => fRa x != 0 || fRb x != 0 || fFn x != 0
  | _ => false

/-- Slot B is illegal (R80, R93, Table 3.6). -/
def illegalB (x : Nat) : Bool :=
  !knownB (fOp x) ||
  match fOp x with
  | 0x01 => fSz x == 7
  | 0x02 => fSz x > 3
  | 0x10 => fFnLo x > 0x0A || fFnLo x == 7 || fTy x == 3 || fTy x == 4 || (fFnLo x ≥ 8 && fTy x ≤ 2)
  | 0x11 => fTy x == 3 || fTy x == 4
  | 0x12 => fFnLo x > 3
  | 0x13 => fFnLo x > 4
  | 0x16 => fFnLo x > 2 || fTy x == 3 || fTy x == 4
  | _ => false

/-- Slot B has a reserved field that keeps the whole word from being performed (R80, R112), the FN bits that a matrix operation
leaves unused among them; its register fields are checked under R139 (log entry 44). DESIGN CHOICE (log entry 114): FN[2] of a VCVT between equal lane widths selects
nothing and is not held to be zero. -/
def reservedB (x : Nat) : Bool :=
  match fOp x with
  | 0x00 => bits x 25 0 != 0
  | 0x06 => bits x 3 2 != 0
  | 0x07 => bits x 3 0 != 0
  | 0x08 => bit x 3 || bits x 1 0 == 3 || (bit x 2 && bits x 1 0 != 1)
  | 0x11 | 0x14 | 0x17 => fFnLo x != 0
  | 0x13 => fTy x != 0
  | 0x15 => bits x 1 0 != 0
  | 0x18 => fFnLo x != 0 || fRb x != 0
  | 0x19 => bits x 7 6 != 0
  | 0x30 => bits x 4 0 != 0
  | 0x32 => bits x 5 0 != 0
  | 0x33 => bits x 10 0 != 0
  | _ => false

/-- Error codes a slot raises at decode: 1 ILLEGAL, 2 RESERVED_FIELD. -/
def errA (x : Nat) : Option Nat := if illegalA x then some 1 else if reservedA x then some 2 else none
def errB (x : Nat) : Option Nat := if illegalB x then some 1 else if reservedB x then some 2 else none

/-! ## Sources and destinations (R81, R82) -/

/-- s0 is never a dependency (R77). -/
def noZero (l : List Nat) : List Nat := l.filter (fun r => r != 0)

/-- Scalar registers slot A reads. -/
def srcA (x : Nat) : List Nat :=
  match fOp x with
  | 0x02 => noZero [fRd x, fRa x]
  | 0x10 | 0x16 | 0x17 => noZero [fRa x, fRb x]
  | 0x03 | 0x11 | 0x12 | 0x13 | 0x14 | 0x15 | 0x1B | 0x30 => noZero [fRa x]
  | 0x05 => noZero [fRd x]
  | 0x19 => noZero [fRd x]
  | 0x20 | 0x21 => noZero [fRd x, fRa x, if fRemote x then fRb x else 0]
  | 0x22 | 0x23 | 0x24 => noZero [fRd x, fRa x]
  | 0x25 => noZero [fRd x]
  | _ => []

/-- Scalar registers slot A writes. -/
def dstA (x : Nat) : List Nat :=
  match fOp x with
  | 0x04 => [31]
  | 0x10 | 0x11 | 0x12 | 0x13 | 0x14 | 0x15 | 0x16 | 0x17 | 0x18 | 0x19 | 0x1A | 0x31 => noZero [fRd x]
  | 0x25 => [fRb x, fRb x + 1]
  | _ => []

/-- Scalar registers slot B reads. -/
def srcB (x : Nat) : List Nat :=
  match fOp x with
  | 0x01 | 0x03 | 0x04 => noZero [fRa x]
  | 0x33 => noZero [fRd x]
  | 0x02 => noZero [fRd x, fRa x]
  | 0x06 | 0x07 | 0x08 => noZero [fRd x, fRa x, fRb x]
  | 0x18 => noZero [fRa x]
  | 0x30 | 0x32 => noZero [fRd x, fRa x]
  | 0x31 => noZero [fRd x, fRa x, if bits x 3 2 == 0 then 0 else fRb x]
  | _ => []

/-- Scalar registers slot B writes. -/
def dstB (x : Nat) : List Nat :=
  match fOp x with
  | 0x01 | 0x19 => noZero [fRd x]
  | _ => []

/-- One-operand vector operations. -/
def unaryB (x : Nat) : Bool :=
  match fOp x with
  | 0x10 => fFnLo x == 5 || fFnLo x == 6
  | 0x13 => fFnLo x == 4
  | 0x15 | 0x16 | 0x19 => true
  | _ => false

/-- Vector registers slot B reads. -/
def vsrcB (x : Nat) : List Nat :=
  match fOp x with
  | 0x04 => [fRd x]
  | 0x11 | 0x14 => [fRa x, fRb x, fRd x]
  | 0x15 => if tyWidth (fTy x) < tyWidth (bits x 7 5) then [fRa x, fRd x] else [fRa x]
  | 0x10 | 0x12 | 0x13 | 0x16 | 0x17 | 0x19 => if unaryB x then [fRa x] else [fRa x, fRb x]
  | _ => []

/-- Vector registers slot B writes. -/
def vdstB (x : Nat) : List Nat :=
  match fOp x with
  | 0x03 | 0x10 | 0x11 | 0x12 | 0x13 | 0x14 | 0x15 | 0x16 | 0x17 | 0x18 => [fRd x]
  | _ => []

/-! ## Latencies (Table 3.5) -/

/-- Latency of a slot A result; READ's depends on the counter and is given by the caller. -/
def latA (x readLat : Nat) : Nat :=
  match fOp x with
  | 0x16 => 3
  | 0x17 => 20
  | 0x1A => 2
  | 0x25 => readLat
  | _ => 1

/-- Latency of a slot B result under a profile. -/
def latB (x prof : Nat) : Nat :=
  match fOp x with
  | 0x01 | 0x03 | 0x16 => if prof = 2 then 5 else 6
  | 0x10 => if fFnLo x = 2 then (if prof = 2 then 3 else 4) else 2
  | 0x11 => if prof = 2 then 3 else 4
  | 0x15 => 3
  | _ => 2

/-- Penalty P of a taken transfer. -/
def penalty (prof : Nat) : Nat := if prof = 2 then 6 else 7

/-- Offset A from issue to the earliest access (R107, Table 5.5). -/
def accessOff (prof : Nat) : Nat := if prof = 2 then 2 else 3

/-! ## Register reads and writes of a tile (R77) -/

/-- A scalar register: s0 reads as zero. -/
def Tile.s (x : Tile) (r : Nat) : W64 := if r = 0 then 0 else x.sreg.read 0 r
/-- Slot B reads what its partner replaced (R81). -/
def Tile.sOld (x : Tile) (r : Nat) : W64 := if r = 0 then 0 else x.overlay.read (x.sreg.read 0 r) r
/-- A vector register. -/
def Tile.v (x : Tile) (r : Nat) : BitVec 512 := x.vreg.read 0 r

/-- Slot A writes a scalar register, ready at `ready`; a write to s0 is discarded. -/
def Tile.putA (x : Tile) (r : Nat) (v : W64) (ready : Nat) : Tile :=
  if r = 0 then x
  else { x with sreg := x.sreg.write 0 r v, sready := x.sready.write 0 r ready,
                overlay := x.overlay.put r (x.sreg.read 0 r) }

/-- Slot B writes a scalar register. -/
def Tile.putB (x : Tile) (r : Nat) (v : W64) (ready : Nat) : Tile :=
  if r = 0 then x else { x with sreg := x.sreg.write 0 r v, sready := x.sready.write 0 r ready }

/-- Slot B writes a vector register. -/
def Tile.putV (x : Tile) (r : Nat) (v : BitVec 512) (ready : Nat) : Tile :=
  { x with vreg := x.vreg.write 0 r v, vready := x.vready.write 0 r ready }

/-- First cycle from `x0` in which the registers of a word allow its issue (R82). -/
def Tile.ready (x : Tile) (w : W64) (prof readLat x0 : Nat) : Nat :=
  let a := slotA w
  let b := slotB w
  let la := latA a readLat
  let lb := latB b prof
  let e := (srcA a ++ srcB b).foldl (fun e r => max e (x.sready.read 0 r)) x0
  let e := (vsrcB b).foldl (fun e r => max e (x.vready.read 0 r)) e
  let e := (dstA a).foldl (fun e r => max e (x.sready.read 0 r + 1 - la)) e
  let e := (dstB b).foldl (fun e r => max e (x.sready.read 0 r + 1 - lb)) e
  (vdstB b).foldl (fun e r => max e (x.vready.read 0 r + 1 - lb)) e

/-! ## Lanes -/

/-- Lane `i` of width `w` of a vector register (R77). -/
def lane (w : Nat) (v : BitVec 512) (i : Nat) : Nat := v.toNat >>> (w * i) % 2 ^ w

/-- A vector register from its lanes. -/
def ofLanes (w : Nat) (l : List Nat) : BitVec 512 :=
  BitVec.ofNat 512 (l.foldr (fun x acc => x % 2 ^ w + 2 ^ w * acc) 0)

/-- Lane count of a width. -/
def laneCount (w : Nat) : Nat := 512 / w

/-- The lanes of a vector register. -/
def lanes (w : Nat) (v : BitVec 512) : List Nat := (upFrom 0 (laneCount w)).map (lane w v)

end Sys2Proof.Machine
end

