-- ==== Sys2Proof/Machine/Flags.lean ====
section
/-! DEFINITION. Conditions and error flags: branch and lane conditions (R88, R92), and the capture registers of a
tile's core, scratchpad, matrix unit and fetch engine (R98, Tables 4.13, 5.14, 6.21) and of a die crossbar
(Table 6.22). -/

namespace Sys2Proof.Machine

/-- COND of BCC and of the RVE (Table 3.3). -/
def condHolds (c : Nat) (a b : W64) : Bool :=
  match c with
  | 0 => a == b
  | 1 => a != b
  | 2 => a.slt b
  | 3 => !a.slt b
  | 4 => a.ult b
  | 5 => !a.ult b
  | _ => false

/-- A lane comparison of a type: 0 EQ, 1 LT, 2 LE, 3 NE (R92); NaN is unordered. -/
def laneCmp (ty c a b : Nat) : Bool :=
  match tyFmt ty with
  | some f =>
    let x := f.decode a
    let y := f.decode b
    match c with
    | 0 => x.eq y
    | 1 => x.lt y
    | 2 => x.lt y || x.eq y
    | _ => !x.eq y
  | none =>
    let x := signed (tyWidth ty) a
    let y := signed (tyWidth ty) b
    match c with
    | 0 => x == y
    | 1 => decide (x < y)
    | 2 => decide (x ≤ y)
    | _ => x != y

/-- An error of a tile's core (R98): code, slot, slot word, INFO, word address and cycle. -/
structure CoreErr where
  code : Nat
  slot : Nat
  word : Nat
  info : Nat
  deriving DecidableEq, Repr

/-- What a core error leaves in the capture registers of its tile. -/
def State.coreFlds (s : State) (pc cyc : Nat) (e : CoreErr) : List (RegField × Nat) :=
  [(F.TL_ERR_STATUS_CODE, e.code), (F.TL_ERR_STATUS_SLOT, e.slot), (F.TL_ERR_STATUS_SLOTWORD, e.word),
   (F.TL_ERR_PC_PC, pc), (F.TL_ERR_INFO_INFO, e.info), (F.TL_ERR_WHEN_BEAT, s.beat), (F.TL_ERR_WHEN_CYCLE, cyc)]

/-- Record one core error (R98). -/
def State.coreErr (s : State) (t pc cyc : Nat) (e : CoreErr) : State :=
  let s := (s.tileUnclean t).satFld F.TL_ERR_COUNT_COUNT t 0 1
  s.capture F.TL_ERR_STATUS_VALID F.TL_ERR_STATUS_MORE t (s.coreFlds pc cyc e) (s.tileNote 1 e.code (unitId 0 t) t e.info)

/-- The error captured by tile `t` is one of slot A, or a transfer out of range, of the word that issued in segment cycle `cyc`
of this beat, and its code is above `code` (R98). -/
def State.outranked (s : State) (t cyc code : Nat) : Bool :=
  let c := s.fld F.TL_ERR_STATUS_CODE t 0
  s.fld F.TL_ERR_STATUS_VALID t 0 == 1 && s.fld F.TL_ERR_WHEN_BEAT t 0 == s.beat % 2 ^ 32
    && s.fld F.TL_ERR_WHEN_CYCLE t 0 == cyc % 2 ^ 32 && s.fld F.TL_ERR_STATUS_SLOT t 0 == 0 && (c == 9 || c == 0x12) && decide (code < c)

/-- An error that slot B of a word finds after its issue (R98): one with a lower code than the captured error of the same word
takes its place, and that one becomes the further error. -/
def State.lateErr (s : State) (t pc cyc : Nat) (e : CoreErr) : State :=
  if s.outranked t cyc e.code then
    let old := s.fld F.TL_ERR_STATUS_CODE t 0
    let s := (((s.tileUnclean t).satFld F.TL_ERR_COUNT_COUNT t 0 1).setFlds t 0 (s.coreFlds pc cyc e)).setFld F.TL_ERR_STATUS_MORE t 0 1
    let was (n : ErrNote) : Bool := n.block == 1 && n.inst == t && n.code == old && n.beat == s.beat && !n.lost
    ({ s with errs := s.errs.map (fun n => if was n then { n with lost := true } else n) }).note
      { s.tileNote 1 e.code (unitId 0 t) t e.info with lost := !s.errs.any was }
  else s.coreErr t pc cyc e

/-- Errors in one word: the lower code is captured, the others count as further errors (R98). -/
def insertErr (e : CoreErr) : List CoreErr → List CoreErr
  | [] => [e]
  | x :: xs => if e.code < x.code then e :: x :: xs else x :: insertErr e xs

/-- Record the errors of one word. -/
def State.coreErrs (s : State) (t pc cyc : Nat) (l : List CoreErr) : State :=
  (l.foldr insertErr []).foldl (fun s e => s.coreErr t pc cyc e) s

/-- Record an error of the scratchpad (Table 4.13): code, requester KIND, offset, bank, row. -/
def State.spErr (s : State) (t code kind off bank row : Nat) : State :=
  let s := (s.tileUnclean t).satFld F.SP_ERR_COUNT_COUNT t 0 1
  s.capture F.SP_ERR_VALID F.SP_ERR_MORE t
    [(F.SP_ERR_CODE, code), (F.SP_ERR_KIND, kind), (F.SP_ERR_OFFSET, off), (F.SP_ERR_BANK, bank),
     (F.SP_ERR_ROW, row), (F.SP_ERR_WHEN_BEAT, s.beat), (F.SP_ERR_WHEN_CYCLE, s.errCycle)]
    (s.tileNote 2 code (unitId 0 t) t off)

/-- Count a parity error of a row in SP_ROWERR (Table 4.11). -/
def State.rowErr (s : State) (t bank row : Nat) : State :=
  let idx := upFrom 0 4
  match idx.find? (fun i => s.fld F.SP_ROWERR_VALID t i == 1 && s.fld F.SP_ROWERR_BANK t i == bank
      && s.fld F.SP_ROWERR_ROW t i == row) with
  | some i => s.satFld F.SP_ROWERR_COUNT t i 1
  | none =>
    match idx.find? (fun i => s.fld F.SP_ROWERR_VALID t i == 0) with
    | some i => s.setFlds t i [(F.SP_ROWERR_VALID, 1), (F.SP_ROWERR_COUNT, 1), (F.SP_ROWERR_BANK, bank),
        (F.SP_ROWERR_ROW, row)]
    | none => s.addFld F.SP_ROWERR_OVF_COUNT t 0 1

/-- Record an error of the matrix unit (Table 5.14). -/
def State.mxErr (s : State) (t code : Nat) (filler : Bool) (pc cyc : Nat) : State :=
  let s := (s.tileUnclean t).satFld F.MX_ERR_COUNT_COUNT t 0 1
  s.capture F.MX_ERR_VALID F.MX_ERR_MORE t
    [(F.MX_ERR_CODE, code), (F.MX_ERR_FILLER, b2n filler), (F.MX_ERR_PC, pc), (F.MX_ERR_WHEN_BEAT, s.beat),
     (F.MX_ERR_WHEN_CYCLE, cyc)] (s.tileNote 3 code (unitId 0 t) t pc)

/-- Record an error of the fetch engine (Table 6.21). -/
def State.feErr (s : State) (t code mode desc addr : Nat) : State :=
  let s := (s.tileUnclean t).satFld F.XC_FE_ERR_COUNT_COUNT t 0 1
  s.capture F.XC_FE_ERR_VALID F.XC_FE_ERR_MORE t
    [(F.XC_FE_ERR_CODE, code), (F.XC_FE_ERR_MODE, mode), (F.XC_FE_ERR_DESC, desc), (F.XC_FE_ERR_ADDR_ADDR, addr),
     (F.XC_FE_ERR_WHEN_BEAT, s.beat), (F.XC_FE_ERR_WHEN_CYCLE, s.errCycle)]
    (s.tileNote 4 code (unitId 1 t) t addr)

/-- Record an error of a die crossbar (Table 6.22): FLIT_CHECK and MALFORMED mark the step unclean, ORPHAN does
not. A packet decoded before any die crossbar (`d` = 4) goes to the Crown's error log (R172). -/
def State.xbErr (s : State) (d port code : Nat) (p : Packet) : State :=
  let s := if code = 2 then s else s.markUnclean
  let note := { s.errNote 4 code p.srcUnit d p.dest with cls := if code = 2 then 0 else 1 }
  if d < 4 then
    s.capture F.XC_XB_ERR_VALID F.XC_XB_ERR_MORE d
      [(F.XC_XB_ERR_CODE, code), (F.XC_XB_ERR_KIND, p.kind), (F.XC_XB_ERR_PORT, port),
       (F.XC_XB_ERR_SRC_UNIT, p.srcUnit), (F.XC_XB_ERR_SRC_DEV, p.srcDev)] note
  else s.note note

end Sys2Proof.Machine
end

