-- ==== Sys2Proof/Machine/Scratchpad.lean ====
section
/-! DEFINITION. The tile scratchpad (chapter 4): banks, rows, the row map, reads and writes by each kind of
requester, parity and bank power. -/

namespace Sys2Proof.Machine

/-- Bytes of a scratchpad (R104). -/
def spSize : Nat := 0x180000

/-- Bank and bank row of a global row (R106). -/
def spMap (mode g : Nat) : Nat × Nat :=
  if mode = 1 then (g / 1024, g % 1024) else ((g + 7 * (g / 48)) % 48, g / 48)

/-- Bank and bank row of a global row of tile `t`. -/
def State.bankOf (s : State) (t g : Nat) : Nat × Nat := spMap (s.fld F.SP_CFG_MODE t 0) g

/-- The eight entries of a bank's row map (Table 4.12). -/
def rowmapFields : List RegField :=
  [F.SP_ROWMAP_LO_ENTRY0, F.SP_ROWMAP_LO_ENTRY1, F.SP_ROWMAP_LO_ENTRY2, F.SP_ROWMAP_LO_ENTRY3,
   F.SP_ROWMAP_HI_ENTRY4, F.SP_ROWMAP_HI_ENTRY5, F.SP_ROWMAP_HI_ENTRY6, F.SP_ROWMAP_HI_ENTRY7]

/-- The spare that the highest valid entry naming row `q` gives, starting at entry `i` (R122). -/
def spareFor (q : Nat) : Nat → List Nat → Option Nat
  | _, [] => none
  | i, e :: es =>
    match spareFor q (i + 1) es with
    | some k => some k
    | none => if bit e 15 && bits e 9 0 == q then some i else none

/-- Row map entries of a bank of a physical tile. -/
def State.rowmap (s : State) (phys bank : Nat) : List Nat := rowmapFields.map (fun f => s.fld f phys bank)

/-- Physical row, 0 to 1,031, of a bank row of tile `t` (R122). -/
def State.physRow (s : State) (t bank q : Nat) : Nat :=
  match spareFor q 0 (s.rowmap (s.physTile t) bank) with
  | some k => 1024 + k
  | none => q

/-- Key of byte 0 of a physical row. -/
def rowKey (bank prow : Nat) : Nat := (bank * 1032 + prow) * 32

/-- Key of byte 0 of global row `g` of tile `t`. -/
def State.spKey (s : State) (t g : Nat) : Nat :=
  let (b, q) := s.bankOf t g
  rowKey b (s.physRow t b q)

/-- Whether global row `g` lies in a bank that is ON. -/
def State.rowOn (s : State) (t g : Nat) : Bool := (s.tile t).banks.read .on (s.bankOf t g).1 == .on

/-- The 32 bytes of a global row as the bank holds them. -/
def State.rowBytes (s : State) (t g : Nat) : List Byte := (s.tile t).mem.readList 0 (s.spKey t g) 32

/-- Byte `o` of the scratchpad as the bank holds it; zero in a bank that is not ON (R119). -/
def State.spByte (s : State) (t o : Nat) : Byte :=
  if s.rowOn t (o / 32) then (s.tile t).mem.read 0 (s.spKey t (o / 32) + o % 32) else 0

/-- Whether byte `o` fails parity. -/
def State.spBad (s : State) (t o : Nat) : Bool :=
  s.rowOn t (o / 32) && (s.tile t).badPar.read false (s.spKey t (o / 32) + o % 32)

/-- Byte `o` as it stood at the start of the present cycle, and whether it fails parity (R111); zero in a bank that is not
ON (R119). -/
def State.spAt (s : State) (t o : Nat) : Byte × Bool :=
  if s.rowOn t (o / 32) then
    let q := s.tile t
    let k := s.spKey t (o / 32) + o % 32
    (q.old.read none k).getD (q.mem.read 0 k, q.badPar.read false k)
  else (0, false)

/-- `n` bytes from offset `o` as they stood at the start of the present cycle. -/
def State.spAtBytes (s : State) (t o n : Nat) : List Byte := (upFrom o n).map (fun a => (s.spAt t a).1)

/-- `n` bytes from offset `o`. -/
def State.spBytes (s : State) (t o n : Nat) : List Byte := (upFrom o n).map (s.spByte t)

/-- The global rows that bytes `o` to `o + n − 1` lie in. -/
def rowsOf (o n : Nat) : List Nat := if n = 0 then [] else upFrom (o / 32) ((o + n - 1) / 32 - o / 32 + 1)

/-- Record what a whole-row read of row `g` by requester KIND `kind` finds: a bank that is not ON (R119) or, where `bad` holds,
a parity failure (R121). DESIGN CHOICE (log entry 128): SP_ERR.OFFSET is the offset of the row's first byte. -/
def State.readFound (s : State) (t kind g : Nat) (bad : Bool) : State :=
  let (b, q) := s.bankOf t g
  if !s.rowOn t g then s.spErr t 3 kind (g * 32) b q
  else if bad then (s.spErr t 1 kind (g * 32) b q).rowErr t b q
  else s

/-- A read of row `g` as it stood at the start of the present cycle. -/
def State.readCheck (s : State) (t kind g : Nat) : State :=
  s.readFound t kind g ((upFrom (g * 32) 32).any (fun a => (s.spAt t a).2))

/-- A read of whole rows by requester KIND `kind`: `n` bytes from `o`, with what the read records. -/
def State.spRead (s : State) (t kind o n : Nat) : List Byte × State :=
  (s.spAtBytes t o n, (rowsOf o n).foldl (fun s g => s.readCheck t kind g) s)

/-- A write that lands on a row held in the fetch or loop buffer is CODE_WRITE (R87). -/
def State.codeWrite (s : State) (t g : Nat) : State :=
  let x := s.tile t
  if x.fetchRows.contains g || (x.loop.isSome && x.loopRows.contains g) then
    s.coreErr t x.pc s.cycleNow ⟨0x0B, 0, 0, g * 32⟩
  else s

/-- Put one byte with its parity state. -/
def Tile.putByte (x : Tile) (k : Nat) (b : Byte) (bad : Bool) : Tile :=
  { x with mem := x.mem.write 0 k b, badPar := x.badPar.write false k bad
           old := match x.old.read none k with
             | some _ => x.old
             | none => x.old.write none k (some (x.mem.read 0 k, x.badPar.read false k)) }

/-- Write bytes of one row: `ent` lists byte index, value and whether its parity bit is bad (COPY, R114). In a
bank that is not ON the write is discarded and recorded (R119), with the offset of the row's first byte (DESIGN CHOICE of log
entry 128); a core store (KIND 0) is recorded by the core. -/
def State.writeRow (s : State) (t kind g : Nat) (ent : List (Nat × Byte × Bool)) : State :=
  let (b, q) := s.bankOf t g
  if !s.rowOn t g then
    if kind = 0 then s else s.spErr t 2 kind (g * 32) b q
  else
    let k := s.spKey t g
    (s.updTile t (fun x => ent.foldl (fun x e => x.putByte (k + e.1) e.2.1 e.2.2) x)).codeWrite t g

/-- The entries of bytes `d`, the first at offset `o`, that fall in row `g`. -/
def rowEntries (o g : Nat) (d : List Byte) : List (Nat × Byte × Bool) :=
  ((upFrom o d.length).zip d).filterMap (fun p => if p.1 / 32 = g then some (p.1 % 32, p.2, false) else none)

/-- Write bytes from offset `o` with fresh parity. -/
def State.spWrite (s : State) (t kind o : Nat) (d : List Byte) : State :=
  (rowsOf o d.length).foldl (fun s g => s.writeRow t kind g (rowEntries o g d)) s

/-- Element size of an accumulate type: 0 FP32, 1 BF16, 2 INT32 (Table 4.4). -/
def accSize (ty : Nat) : Nat := if ty = 1 then 2 else 4

/-- One accumulate in the bank (R115): the sum of destination and source. -/
def accAdd (ty : Nat) (r : Round) (d x : Nat) : Nat :=
  match ty with
  | 0 => fadd fp32 r d x
  | 1 => fadd bf16 r d x
  | _ => (d + x) % 2 ^ 32

/-- Roundings of `n` accumulated elements: draws of stream `sr` in their order, or to nearest even (R115, R147, R149). -/
def State.accRounds (s : State) (t : Nat) (sr : Option Nat) (n : Nat) : List Round × State :=
  match sr with
  | some st =>
    let n0 := s.fld F.MX_SR_DRAWS_DRAWN t st
    ((upFrom n0 n).map (fun k => .stoch (srDraw (s.tile t).matrix.key st k)), s.setFld F.MX_SR_DRAWS_DRAWN t st (n0 + n))
  | none => (List.replicate n .near, s)

/-- Sums of destination and source elements, each with its rounding. -/
def accList (add : Round → Nat → Nat → Nat) : List Round → List Nat → List Nat → List Nat
  | r :: rs, d :: ds, x :: xs => add r d x :: accList add rs ds xs
  | _, _, _ => []

/-- Elements of `n` bytes each. -/
def elemsOf (n : Nat) (d : List Byte) : List Nat := (chunks n d.length d).map ofBytes

/-- Accumulate-mode write of source elements at offset `o`, `n` bytes a destination element, with the roundings `rs` (R115):
each destination row is read as it stands, after an exchange-slot write of the cycle (Table 4.3), and its parity is that of the
bytes read (R121). -/
def State.spAccumWith (s : State) (t kind n : Nat) (rs : List Round) (add : Round → Nat → Nat → Nat) (o : Nat)
    (xs : List Nat) : State :=
  let len := n * xs.length
  let s0 := (rowsOf o len).foldl (fun s g =>
    if s.rowOn t g then s.readFound t kind g ((upFrom (g * 32) 32).any (s.spBad t)) else s) s
  s0.spWrite t kind o ((accList add rs (elemsOf n (s0.spBytes t o len)) xs).flatMap (fun v => toBytes v n))

/-- Accumulate-mode write of source bytes of the destination's type in ascending address, drawing in that order (R115, R149). -/
def State.spAccum (s : State) (t kind ty : Nat) (sr : Option Nat) (o : Nat) (d : List Byte) : State :=
  let xs := elemsOf (accSize ty) d
  let (rs, s) := s.accRounds t sr xs.length
  s.spAccumWith t kind (accSize ty) rs (accAdd ty) o xs

/-- The byte that a store wrote at offset `o`. -/
def StoreItem.byte (i : StoreItem) (o : Nat) : Option Byte := if i.off ≤ o then i.data[o - i.off]? else none

/-- The store overlay (R110): the byte at `o` that the stores issued before cycle `x` left in store groups that are not yet
written. -/
def Tile.overlayByte (q : Tile) (x o : Nat) : Option Byte :=
  ((q.groups.flatMap (·.items)).filterMap (fun i => if i.cyc < x then i.byte o else none)).getLast?

/-- What a core load of cycle `x` finds in bytes `o` to `o + n − 1`: data, and the errors it records: OFF_BANK in a bank that
is not ON (R119), DATA_PARITY where a byte it returns fails parity (R121). -/
def State.coreLoad (s : State) (t x o n : Nat) : List Byte × List Nat × State :=
  let q := s.tile t
  let d := (upFrom o n).map (fun a => (q.overlayByte x a).getD (s.spAt t a).1)
  let off := (rowsOf o n).any (fun g => !s.rowOn t g)
  let bad := (upFrom o n).filter (fun a => (q.overlayByte x a).isNone && (s.spAt t a).2)
  let rows := (rowsOf o n).filter (fun g => bad.any (fun a => a / 32 == g))
  (d, (if off then [0x08] else []) ++ (if bad.isEmpty then [] else [0x09]),
    rows.foldl (fun s g => let (b, q) := s.bankOf t g; s.rowErr t b q) s)

/-- The banks that rows of offset `o`, `n` bytes, lie in. -/
def State.banksOf (s : State) (t o n : Nat) : List Nat := (rowsOf o n).map (fun g => (s.bankOf t g).1)

/-- Whether a claim holds bank `b` in cycle `c` (R107). -/
def Tile.claimed (x : Tile) (c b : Nat) : Bool := x.claims.any (fun k => k.cyc == c && k.bank == b)

/-- The end of cycle `c`: claims of later cycles, and load entries not yet freed, remain (R110). -/
def Tile.endCycle (x : Tile) (c a : Nat) : Tile :=
  { x with claims := x.claims.filter (fun k => decide (c < k.cyc))
           loads := x.loads.filter (fun e => decide (c < e.opened + 3 + a))
           groups := x.groups.filter (fun g => !g.done), did := [], old := [], xUse := [], xIn := 0, xOut := 0, xTrans := 0 }

/-- The mark in `did` of a row that the tile slot has written. -/
def tookRow (g : Nat) : Nat := 8 + g

end Sys2Proof.Machine
end

