-- ==== Sys2Proof/Machine/Registers.lean ====
section
/-! DEFINITION. Configuration and status space (R22, R27 to R32, R434): decoding a live-view address, reading a
register from the state it shows, writing its fields under their access codes, and staging. -/

namespace Sys2Proof.Machine

/-- Base of the live view and of the staging view (Table 1.7, R28). -/
def liveBase : Nat := 0x00F000000000
def stagingOff : Nat := 0x000800000000

/-- A block range of Table 1.8. -/
structure BlockRange where
  block : Block
  count : Nat
  size  : Nat

/-- Table 1.8. The Crown's block has no register. -/
def blockRanges : List BlockRange := [
  ⟨.tl, 1536, 0x2000⟩, ⟨.sp, 1536, 0x2000⟩, ⟨.mx, 1536, 0x2000⟩, ⟨.xt, 1536, 0x2000⟩, ⟨.syt, 1536, 0x2000⟩,
  ⟨.xd, 4, 0x100000⟩, ⟨.es, 1, 0x100000⟩, ⟨.syd, 1, 0x100000⟩, ⟨.rt, 8, 0x1000000⟩, ⟨.lk, 24, 0x10000⟩,
  ⟨.en, 2, 0x100000⟩, ⟨.pw, 1, 0x100000⟩, ⟨.rs, 1, 0x100000⟩, ⟨.sc, 1, 0x100000⟩]

/-- Instance and offset of an address in a block range. -/
def BlockRange.locate (b : BlockRange) (a : Nat) : Option (Nat × Nat) :=
  if a < b.block.base then none
  else
    let d := a - b.block.base
    let i := if b.block.stride = 0 then 0 else d / b.block.stride
    let o := if b.block.stride = 0 then d else d % b.block.stride
    if i < b.count && o < b.size then some (i, o) else none

/-- A word of a register: the register, its block instance, its index and its word. -/
structure RegAt where
  info : RegInfo
  inst : Nat
  idx  : Nat
  word : Nat
  deriving DecidableEq, Repr

/-- Index and word of a block offset in a register's range. -/
def RegInfo.locate (r : RegInfo) (inst off : Nat) : Option RegAt :=
  if off < r.off || (r.only0 && inst != 0) then none
  else
    let d := off - r.off
    let j := d / r.stride
    let w := d % r.stride / 8
    if j < r.count && w < r.words then some ⟨r, inst, j, w⟩ else none

/-- The register word at a live-view address; none for a reserved hole (R27, R434). -/
def regAt (a : Nat) : Option RegAt :=
  blockRanges.findSome? (fun b =>
    (b.locate a).bind (fun p => b.block.regs.findSome? (fun r => r.locate p.1 p.2)))

/-- A tile block of a column that its row does not have is a hole (R15). -/
def State.instOk (s : State) (x : RegAt) : Bool :=
  match x.info.block with
  | .tl | .sp | .mx | .xt | .syt => (s.physOf x.inst).isSome
  | _ => true

/-- The register word at a live-view address of this device. -/
def State.regAt (s : State) (a : Nat) : Option RegAt :=
  (Machine.regAt (a / 8 * 8)).bind (fun x => if s.instOk x then some x else none)

/-- Fields in one word of a register. -/
def RegAt.fields (x : RegAt) : List RegField :=
  x.info.fields.filter (fun f => f.off == x.info.off + 8 * x.word)

/-- The row map belongs to the physical tile (R312). -/
def State.fieldInst (s : State) (f : RegField) (i : Nat) : Nat := if f.block = .spr then s.physTile i else i

/-- Fields as stored, put together. -/
def State.storedWord (s : State) (x : RegAt) : Nat :=
  x.fields.foldl (fun a f => a + s.fld f (s.fieldInst f x.inst) x.idx * 2 ^ f.lo) 0

/-- A bit set as a number. -/
def maskOf (n : Nat) (p : Nat → Bool) : Nat := (upFrom 0 n).foldl (fun a i => if p i then a + 2 ^ i else a) 0

/-- TL_STATUS.STATE (R100). -/
def CoreState.code : CoreState → Nat
  | .reset => 0 | .waiting => 1 | .run => 2 | .boundWait => 3 | .segmentEnd => 4 | .parkedErr => 5

/-- Table 5.9. -/
def AccKind.code : AccKind → Nat
  | .fp32 => 0 | .bf16 => 1 | .int32 => 2

/-- Register windows read only while the core stands (R103). -/
def CoreState.windowOpen : CoreState → Bool
  | .reset | .waiting | .segmentEnd | .parkedErr => true
  | _ => false

/-- Occupied fetch-engine queue entries (R182). -/
def Fetch.queued (f : Fetch) : Nat := f.queue.length + (f.flights.filter (fun x => !x.sentAll)).length

/-- Fields of SY_CNT_WAIT (Table 2.19): waiters of the counter's own unit by kind, the due check of the freeze in effect
while its entry is unmet, and the others. -/
def State.waitWord (s : State) (k : Nat) : Nat :=
  let ws := s.waiters.filter (fun w => w.key == k)
  let own (w : Waiter) : Bool :=
    (k < 0x20000 && w.unit == k / 64) || (k ≥ 0x30000 && w.unit == unitId 3 ((k - 0x30000) / 128))
  let seen : Nat :=
    if k < 0x30000 then s.value k
    else
      let v := s.shadows.read (0, 0) ((k - 0x30000) / 128 / 2 * 1024 + (k - 0x30000))
      v.1 - v.2
  let due := s.esc.frozen.isSome && s.esc.resume.isNone
    && s.esc.freezes.any (fun f => f.cycle == s.esc.next && decide (f.kind = .due))
    && (match s.job.bind (fun j => j.classes[s.esc.cls]?) with
      | some c => c.dues.any (fun d => d.cycle == s.esc.next && crefKey none d.cref == some k && decide (seen < d.value))
      | none => false)
  b2n (k < 0x20000 && ws.any (fun w => own w && !w.consume))
    + 2 * b2n (k < 0x20000 && ws.any (fun w => own w && w.consume))
    + 32 * b2n due + 64 * b2n (k ≥ 0x30000 && ws.any own)
    + 2 ^ 32 * min (ws.filter (fun w => !own w)).length 0xFFFF

/-- Word `w` of the debug record of a counter (R75). -/
def State.ctrWord (s : State) (k w : Nat) : Nat :=
  let c := s.ctr k
  match w with
  | 0 => c.s
  | 1 => c.c
  | 2 => c.s - c.c
  | 3 => s.waitWord k
  | 4 => c.cycle * 2 ^ 48 + c.unit * 2 ^ 32 + b2n c.valid * 2 ^ 31 + c.dev
  | 5 => c.beat
  | _ => 0

/-- MX_STATUS but NONFINITE (Table 5.9). -/
def Matrix.status (m : Matrix) (now : Nat) : Nat :=
  let b (x : StatBuf) : Nat := if x.valid then x.mt + 8 + (x.ng - 1) * 16 else 0
  b m.buf0 + b m.buf1 * 64 + m.acc0.kind.code * 2 ^ 14 + m.acc1.kind.code * 2 ^ 16
    + min (m.outs.filter (fun o => decide (now ≤ o.last))).length 2 * 2 ^ 18

/-- XC_FE_STATUS (Table 6.14). -/
def Tile.feStatus (x : Tile) : Nat :=
  min x.fetch.queued 8 + 16 * b2n (x.fetch.flights.any (fun f => !f.sentAll))
    + 256 * x.fetch.reads.length + 2 ^ 16 * (x.fetch.writes.length % 2 ^ 16)
    + 2 ^ 32 * b2n (decide (x.order.done < x.order.epoch)) + 2 ^ 33 * b2n x.fetch.mc.isSome

/-- The registers of a tile that its state computes. TL_CYCLE reads 0 outside a segment: DESIGN CHOICE (log entry 114). -/
def State.tileView (s : State) (x : RegAt) : Option Nat :=
  let t := x.inst
  let q := s.tile t
  match x.info.name with
  | .TL_ID => some (s.self * 2 ^ 48 + b2n Config.steppingB0 * 2 ^ 36 + s.fld F.ES_JOB_INFO_PROFILE 0 0 * 2 ^ 32
      + (s.physOf t).getD 0 * 2 ^ 16 + t)
  | .TL_PC => some q.pc
  | .TL_STATUS => some (q.sstep % 65536 * 2 ^ 32 + 32 * b2n q.loop.isSome + 16 * b2n q.unclean + q.core.code)
  | .TL_CYCLE => some (if s.esc.segOn then s.cycleNow % 2 ^ 32 else 0)
  | .TL_BEAT => some q.beat
  | .TL_LOOP => some (match q.loop with | some l => l.len * 2 ^ 32 + l.remain | none => 0)
  | .TL_SREG => some (if q.core.windowOpen then (q.s x.idx).toNat else 0)
  | .TL_VREG => some (if q.core.windowOpen then (q.v x.idx).toNat >>> (64 * x.word) % 2 ^ 64 else 0)
  | .SP_BANKSTATE => some (maskOf 48 (fun b => q.banks.read .on b == .on))
  | .SP_BANKWAKE => some (maskOf 48 (fun b => match q.banks.read .on b with | .waking _ => true | _ => false))
  | .SP_MEMOP => some q.memops.length
  | .MX_SR_STEP => some q.matrix.step
  | .MX_STATUS => some (q.matrix.status s.esc.tc + s.storedWord x)
  | .XC_FE_STATUS => some q.feStatus
  | _ => none

/-- Words of the counter records (R75). -/
def State.ctrView (s : State) (x : RegAt) : Option Nat :=
  match x.info.name with
  | .SY_CNT_S => some (s.ctrWord (tileCtr x.inst x.idx) 0)
  | .SY_CNT_C => some (s.ctrWord (tileCtr x.inst x.idx) 1)
  | .SY_CNT_VAL => some (s.ctrWord (tileCtr x.inst x.idx) 2)
  | .SY_CNT_WAIT => some (s.ctrWord (tileCtr x.inst x.idx) 3)
  | .SY_CNT_LAST => some (s.ctrWord (tileCtr x.inst x.idx) 4)
  | .SY_CNT_LASTBEAT => some (s.ctrWord (tileCtr x.inst x.idx) 5)
  | .SYD_CNT_S => some (s.ctrWord (devCtr x.idx) 0)
  | .SYD_CNT_C => some (s.ctrWord (devCtr x.idx) 1)
  | .SYD_CNT_VAL => some (s.ctrWord (devCtr x.idx) 2)
  | .SYD_CNT_WAIT => some (s.ctrWord (devCtr x.idx) 3)
  | .SYD_CNT_LAST => some (s.ctrWord (devCtr x.idx) 4)
  | .SYD_CNT_LASTBEAT => some (s.ctrWord (devCtr x.idx) 5)
  | .RT_CNT_S => some (s.ctrWord (rgnCtr x.inst x.idx) 0)
  | .RT_CNT_C => some (s.ctrWord (rgnCtr x.inst x.idx) 1)
  | .RT_CNT_VAL => some (s.ctrWord (rgnCtr x.inst x.idx) 2)
  | .RT_CNT_WAIT => some (s.ctrWord (rgnCtr x.inst x.idx) 3)
  | .RT_CNT_LAST => some (s.ctrWord (rgnCtr x.inst x.idx) 4)
  | .RT_CNT_LASTBEAT => some (s.ctrWord (rgnCtr x.inst x.idx) 5)
  | _ => none

/-- The live value of a register word (Table 0.5): write-only fields read as zero. -/
def State.liveWord (s : State) (x : RegAt) : Nat :=
  match s.tileView x with
  | some v => v
  | none =>
    match s.ctrView x with
    | some v => v
    | none => s.storedWord x

/-- Read the 8-byte word at a live-view address; none for a hole. -/
def State.readLive (s : State) (a : Nat) : Option Nat := (s.regAt a).map s.liveWord

/-- Staging copy of a field: what was staged, else its live value (R31). -/
def State.stagedFld (s : State) (f : RegField) (i j : Nat) : Nat :=
  s.staged.read (s.fld f i j) (f.key i j)

/-- Read in the staging view: staging copies of RWS fields, zero elsewhere (R28). -/
def State.readStaged (s : State) (a : Nat) : Option Nat :=
  (s.regAt a).map (fun x => x.fields.foldl (fun v f =>
    if f.acc = .rws then v + s.stagedFld f (s.fieldInst f x.inst) x.idx * 2 ^ f.lo else v) 0)

/-- A write to an RWS field (R31, R32): refused for a run-locked field during a run, else staged and dirty. -/
def State.stage (s : State) (locked : Bool) (f : RegField) (i j v : Nat) : State :=
  if locked && s.inRun then s.setFld F.ES_CFG_STATUS_LOCKED_WRITE 0 0 1
  else { s with staged := s.staged.put (f.key i j) (v % 2 ^ f.width) }

/-- A write of the staging copies in a register word. -/
def State.stageWord (s : State) (x : RegAt) (v : Nat) : State :=
  x.fields.foldl (fun s f =>
    if f.acc = .rws then s.stage x.info.locked f (s.fieldInst f x.inst) x.idx (v >>> f.lo) else s) s

/-- The field that W1C of VALID also clears (MORE), or SP_ROWERR's COUNT (Table 4.11). -/
def partnerOf (n : RegName) : List RegField :=
  match n with
  | .TL_ERR_STATUS => [F.TL_ERR_STATUS_MORE]
  | .SP_ERR => [F.SP_ERR_MORE]
  | .SP_ROWERR => [F.SP_ROWERR_COUNT]
  | .MX_ERR => [F.MX_ERR_MORE]
  | .XC_FE_ERR => [F.XC_FE_ERR_MORE]
  | .SY_ERR => [F.SY_ERR_MORE]
  | .SYD_ERR => [F.SYD_ERR_MORE]
  | .RT_SY_ERR => [F.RT_SY_ERR_MORE]
  | .XC_XB_ERR => [F.XC_XB_ERR_MORE]
  | .RT_DRAM_ERR => [F.RT_DRAM_ERR_MORE]
  | .RT_ACC_ERR => [F.RT_ACC_ERR_MORE]
  | .LK_ERR => [F.LK_ERR_MORE]
  | .PW_ERR => [F.PW_ERR_MORE]
  | _ => []

/-- A write of one field under its access code (Table 0.5); RWS fields are staged by `stageWord`. A bit that hardware set in
the same cycle is left set, MORE too where VALID is cleared. -/
def State.writeField (s : State) (x : RegAt) (f : RegField) (v : Nat) : State :=
  match f.acc with
  | .rw => s.setFld f x.inst x.idx v
  | .w1c =>
    if bit v 0 && !s.w1cSets.contains (f.key x.inst x.idx) then
      let s := s.setFld f x.inst x.idx 0
      if f.lo = 63 then
        s.setFlds x.inst x.idx (((partnerOf x.info.name).filter (fun g => !s.w1cSets.contains (g.key x.inst x.idx))).map (fun g => (g, 0)))
      else s
    else s
  | _ => s

/-- A write of the RW and W1C fields of a register word. -/
def State.writeWord (s : State) (x : RegAt) (v : Nat) : State :=
  x.fields.foldl (fun s f => s.writeField x f (v >>> f.lo % 2 ^ f.width)) s

/-- Whether a register word has a field that takes a direct write (R29, R97). -/
def RegAt.writable (x : RegAt) : Bool :=
  x.fields.any (fun f => f.acc == .rw || f.acc == .w1c || f.acc == .wo)

end Sys2Proof.Machine
end

