-- ==== Sys2Proof/Machine/CommitCheck.lean ====
section
/-! DEFINITION. The checks of a commit (R34): reserved encodings, zero sizes and consistency rules of every chapter,
over the staged values of the dirty fields. -/

namespace Sys2Proof.Machine

/-! ## Dirty fields -/

/-- A field with its block instance and index. -/
structure FieldAt where
  fld  : RegField
  inst : Nat
  idx  : Nat
  info : RegInfo
  deriving DecidableEq, Repr

/-- A field of the register word at `x` by its lowest bit. -/
def RegAt.fieldAt (x : RegAt) (lo : Nat) : Option FieldAt :=
  (x.fields.find? (fun f => f.lo == lo)).map (fun f => ⟨f, x.inst, x.idx, x.info⟩)

/-- The field that a key names (the row map is keyed by physical tile, R312). -/
def keyField (k : Nat) : Option FieldAt :=
  let a := k / 64
  if Block.spr.base ≤ a then
    let d := a - Block.spr.base
    (Block.sp.regs.findSome? (fun r => r.locate 0 (d % Block.spr.stride))).bind (fun x =>
      (x.fieldAt (k % 64)).map (fun f => { f with inst := d / Block.spr.stride }))
  else (Machine.regAt a).bind (fun x => x.fieldAt (k % 64))

/-- The logical tile on a physical one. -/
def State.tileAt (s : State) (phys : Nat) : Option Nat :=
  let die := phys / 408
  let row := phys % 408 / 17
  ((upFrom 0 16).find? (fun c => s.physOf (die * 384 + row * 16 + c) == some (phys % 17))).map
    (fun c => die * 384 + row * 16 + c)

/-- Live-view address of the register that holds a field. -/
def State.fieldAddr (s : State) (f : FieldAt) : Nat :=
  let i := if f.fld.block = .spr then (s.tileAt f.inst).getD 0 else f.inst
  f.info.block.base + i * f.info.block.stride + f.info.off + f.idx * f.info.stride

/-- Every dirty field. -/
def State.dirtyFields (s : State) : List FieldAt := s.staged.filterMap (fun e => keyField e.1)

/-- Least of a list. -/
def minOf : List Nat → Option Nat
  | [] => none
  | a :: l => some (l.foldl min a)

/-- Value of a field after the commit. -/
abbrev State.sv (s : State) (f : RegField) (i j : Nat) : Nat := s.stagedFld f i j

/-! ## Reserved encodings (R6) -/

/-- Tracks of a crossbar port (Table 6.1); 0 where the port is reserved in a switch entry. -/
def portTracks (p : Nat) : Nat := if p < 24 then 4 else if p = 26 ∨ p = 27 then 32 else 0

def inRange (lo hi v : Nat) : Bool := decide (lo ≤ v) && decide (v ≤ hi)

/-- A dirty field holds a reserved encoding. -/
def State.reservedBad (s : State) (x : FieldAt) : Bool :=
  let f := x.fld
  let v := s.sv f x.inst x.idx
  let is (l : List RegField) : Bool := l.contains f
  if f.block = .spr then bits v 14 10 != 0
  else if f = F.TL_ENTRY_ENTRY then decide (0x30000 ≤ v)
  else if f = F.XC_XP_CFG_LAST then decide (384 ≤ v)
  else if is [F.XC_XPE_PERIOD, F.XC_XSE_PERIOD, F.XC_FE_CFG_TIMEOUT, F.ES_HOLD_CFG_LIMIT, F.ES_STEP_CFG_REPLAY_LIMIT,
      F.RT_CKPT_CFG_RATE, F.RT_WPOLICY_INC, F.RT_ACC_CFG_FENCE_THRESH, F.RT_ACC_CFG_QUIET_LIMIT,
      F.LK_LANE_CFG_SER_LIMIT] then v == 0
  else if f = F.XC_XPE_DIR then decide (2 ≤ v)
  else if f = F.XC_XB_CFG_LAST then decide (61440 ≤ v)
  else if f = F.XC_XSE_IN_PORT ∨ f = F.XC_XSE_OUT_PORT then portTracks v == 0
  else if f = F.XC_XSE_IN_TRACK then decide (portTracks (s.sv F.XC_XSE_IN_PORT x.inst x.idx) ≤ v)
  else if f = F.XC_XSE_OUT_TRACK then decide (portTracks (s.sv F.XC_XSE_OUT_PORT x.inst x.idx) ≤ v)
  else if f = F.XC_ROWMAP_FENCED_POS then decide (17 ≤ v)
  else if f = F.XC_ROWMAP_FENCED_POS2 then decide (17 ≤ v) && v != 0x1F
  else if f = F.ES_BEAT_CFG_PARENT_LINK then decide (24 ≤ v) && s.sv F.ES_BEAT_CFG_ROLE 0 0 == 1
  else if f = F.ES_BEAT_CFG_REF_LINK then decide (24 ≤ v)
  else if f = F.ES_BEAT_CFG_REF_SRC then decide (2 ≤ v)
  else if f = F.ES_BEAT_CFG_ROLE then v == 3
  else if is [F.RT_PCMAP_SPARE0_FOR, F.RT_PCMAP_SPARE1_FOR, F.RT_PIPEMAP_SPARE0_FOR, F.RT_PIPEMAP_SPARE1_FOR] then
    inRange 32 62 v
  else if f = F.RT_CKPT_CFG_MODE then v == 3
  else if f = F.LK_CFG_DIM then decide (5 ≤ v)
  else if f = F.LK_LANEMAP_SPARE_FOR then inRange 8 14 v
  else if f = F.LK_TOPO_NDIM then decide (6 ≤ v)
  else if is [F.LK_DIMSIZE_S0, F.LK_DIMSIZE_S1, F.LK_DIMSIZE_S2, F.LK_DIMSIZE_S3, F.LK_DIMSIZE_S4] then decide (33 ≤ v)
  else if f = F.PW_BUDGET_BUDGET then !inRange 90000 180000 v
  else if f = F.PW_CEIL_TILE_CEIL ∨ f = F.PW_FLOOR_FLOOR then !inRange 1 256 v
  else if f = F.PW_CEIL_TEMP_CEIL then !inRange 640 1520 v
  else false

/-! ## Zero sizes (R9) -/

/-- Sizes S0 to S4 with their dimension. -/
def dimFields : List (Nat × RegField) :=
  [(0, F.LK_DIMSIZE_S0), (1, F.LK_DIMSIZE_S1), (2, F.LK_DIMSIZE_S2), (3, F.LK_DIMSIZE_S3), (4, F.LK_DIMSIZE_S4)]

/-- A root die's checkpoint set is empty. -/
def State.setEmpty (s : State) (r : Nat) : Bool := s.sv F.RT_CKPT_SET_MLEN r 0 + s.sv F.RT_CKPT_SET_GLEN r 0 == 0

/-- A dirty field, or one that a dirty field brings into force, sizes a structure as zero. -/
def State.zeroBad (s : State) (x : FieldAt) : Bool :=
  let i := x.inst
  let j := x.idx
  match x.info.name with
  | .SP_BANKMASK => s.sv F.SP_BANKMASK_MASK i 0 == 0
  | .ES_CLEAR_CFG | .ES_BEAT_CFG => s.sv F.ES_CLEAR_CFG_SYS_PERIOD 0 0 == 0 && s.sv F.ES_BEAT_CFG_ROLE 0 0 != 0
  | .ES_STEP_CFG => s.sv F.ES_STEP_CFG_BEATS 0 0 == 0
  | .ES_INPUT_CFG => s.sv F.ES_INPUT_CFG_EN 0 j == 1 && s.sv F.ES_INPUT_CFG_LEN 0 j == 0
  | .RT_REFWIN => s.sv F.RT_REFWIN_CLASSMASK i j != 0 && s.sv F.RT_REFWIN_LEN i j == 0
  | .RT_CKPT_CFG | .RT_CKPT_SET =>
    (s.sv F.RT_CKPT_CFG_MODE 0 0 != 0 || s.sv F.RT_CKPT_CFG_HOST 0 0 == 1)
      && (s.sv F.RT_CKPT_CFG_PERIOD 0 0 == 0
        || (x.info.name == .RT_CKPT_SET && s.setEmpty i)
        || (x.info.name == .RT_CKPT_CFG && (upFrom 0 8).any s.setEmpty))
  | .RT_RGN_CFG => s.sv F.RT_RGN_CFG_EN i j == 1 && s.sv F.RT_RGN_CFG_COUNT i j == 0
  | .LK_TOPO | .LK_DIMSIZE =>
    dimFields.any (fun p => decide (p.1 < s.sv F.LK_TOPO_NDIM 0 0) && s.sv p.2 0 0 == 0)
  | .EN_WIN => s.sv F.EN_WIN_EN i j == 1 && s.sv F.EN_WIN_LEN i j == 0
  | _ => false

/-- Key of the size that `zeroBad` finds zero (R9). -/
def State.zeroKey (s : State) (x : FieldAt) : Nat :=
  let i := x.inst
  let j := x.idx
  match x.info.name with
  | .SP_BANKMASK => F.SP_BANKMASK_MASK.key i 0
  | .ES_CLEAR_CFG | .ES_BEAT_CFG => F.ES_CLEAR_CFG_SYS_PERIOD.key 0 0
  | .ES_STEP_CFG => F.ES_STEP_CFG_BEATS.key 0 0
  | .ES_INPUT_CFG => F.ES_INPUT_CFG_LEN.key 0 j
  | .RT_REFWIN => F.RT_REFWIN_LEN.key i j
  | .RT_CKPT_CFG | .RT_CKPT_SET =>
    if s.sv F.RT_CKPT_CFG_PERIOD 0 0 = 0 then F.RT_CKPT_CFG_PERIOD.key 0 0
    else F.RT_CKPT_SET_MLEN.key (if x.info.name = .RT_CKPT_SET then i else ((upFrom 0 8).find? s.setEmpty).getD 0) 0
  | .RT_RGN_CFG => F.RT_RGN_CFG_COUNT.key i j
  | .LK_TOPO | .LK_DIMSIZE =>
    ((dimFields.find? (fun p => s.sv p.2 0 0 == 0)).elim F.LK_DIMSIZE_S0 (·.2)).key 0 0
  | .EN_WIN => F.EN_WIN_LEN.key i j
  | _ => x.fld.key i j

/-- Address of the register that holds the size that `zeroBad` finds zero (R34). -/
def State.zeroAddr (s : State) (x : FieldAt) : Nat := s.fieldAddr ((keyField (s.zeroKey x)).getD x)

/-! ## Consistency rules -/

/-- Two arithmetic progressions share a value. -/
def apMeet (a p n b q m : Nat) : Bool :=
  (upFrom 0 n).any (fun i =>
    let v := a + i * p
    decide (b ≤ v) && (v - b) % q == 0 && decide ((v - b) / q < m))

/-- Two exchange entries of a tile share an fc of a class in one direction (R166). -/
def State.xpeMeet (s : State) (t e f : Nat) : Bool :=
  s.sv F.XC_XPE_DIR t e == s.sv F.XC_XPE_DIR t f
    && (s.sv F.XC_XPE_CLASSMASK t e &&& s.sv F.XC_XPE_CLASSMASK t f) != 0
    && apMeet (s.sv F.XC_XPE_START t e) (s.sv F.XC_XPE_PERIOD t e) (s.sv F.XC_XPE_COUNT t e)
        (s.sv F.XC_XPE_START t f) (s.sv F.XC_XPE_PERIOD t f) (s.sv F.XC_XPE_COUNT t f)

/-- The active program of tile `t` breaks R166; an entry that runs in no class is looked at too (log entry 141). -/
def State.xpBad (s : State) (t : Nat) : Bool :=
  s.sv F.XC_XP_CFG_EN t 0 == 1 &&
    (upFrom 0 (s.sv F.XC_XP_CFG_LAST t 0 + 1)).any (fun e =>
      let n := s.sv F.XC_XPE_COUNT t e
      let row (i : Nat) : Int := (s.sv F.XC_XPE_ROW t e : Int) + i * signed 16 (s.sv F.XC_XPE_ROWSTEP t e)
      let out (z : Int) : Bool := decide (z < 0) || decide (49151 < z)
      n != 0 && ((s.sv F.XC_XPE_DIR t e == 0 && decide (s.sv F.XC_XPE_START t e < 4)) || out (row 0) || out (row (n - 1))
        || (upFrom 0 e).any (fun f => s.xpeMeet t e f)))

/-- Two switch entries name one output track in one fc of a class (R169). -/
def State.xseMeet (s : State) (d e f : Nat) : Bool :=
  s.sv F.XC_XSE_OUT_PORT d e == s.sv F.XC_XSE_OUT_PORT d f && s.sv F.XC_XSE_OUT_TRACK d e == s.sv F.XC_XSE_OUT_TRACK d f
    && (s.sv F.XC_XSE_CLASSMASK d e &&& s.sv F.XC_XSE_CLASSMASK d f) != 0
    && apMeet (s.sv F.XC_XSE_START d e) (s.sv F.XC_XSE_PERIOD d e) (s.sv F.XC_XSE_COUNT d e)
        (s.sv F.XC_XSE_START d f) (s.sv F.XC_XSE_PERIOD d f) (s.sv F.XC_XSE_COUNT d f)

/-- The schedule of die `d` breaks R169: only entries up to LAST of an enabled schedule are looked at (log entry 141). -/
def State.xsBad (s : State) (d : Nat) : Bool :=
  s.sv F.XC_XB_CFG_EN d 0 == 1 &&
    (upFrom 0 (s.sv F.XC_XB_CFG_LAST d 0 + 1)).any (fun e => (upFrom 0 e).any (fun f => s.xseMeet d e f))

/-- Entry of a map with a VALID bit, as a number: changed in a run otherwise than from invalid to valid (R122). -/
def mapChangeBad (vb : Nat) (live new : Nat) : Bool := live != new && !(!bit live vb && bit new vb)

/-- Live and staged RT_STOREMAP entry (R214). -/
def State.storemapLive (s : State) (r j : Nat) : Nat := s.fld F.RT_STOREMAP_VALID r j * 2 ^ 63 + s.fld F.RT_STOREMAP_LINE r j
def State.storemapNew (s : State) (r j : Nat) : Nat := s.sv F.RT_STOREMAP_VALID r j * 2 ^ 63 + s.sv F.RT_STOREMAP_LINE r j

/-- Slots of enabled input streams: first and last + 1 byte (R299). -/
def State.inputSlots (s : State) : List (Nat × Nat) :=
  ((upFrom 0 4).filter (fun i => s.sv F.ES_INPUT_CFG_EN 0 i == 1)).flatMap (fun i =>
    let b := s.sv F.ES_INPUT_CFG_BASE 0 i
    let n := s.sv F.ES_INPUT_CFG_LEN 0 i * 1024
    [(b, b + n), (b + n, b + 2 * n)])

/-- Any two of a list satisfy `p`. -/
def anyPair {α : Type} (p : α → α → Bool) : List α → Bool
  | [] => false
  | x :: xs => xs.any (p x) || anyPair p xs

/-- R320. -/
def State.inputBad (s : State) : Bool :=
  let en := (upFrom 0 4).filter (fun i => s.sv F.ES_INPUT_CFG_EN 0 i == 1)
  anyPair (fun a b => decide (a.1 < b.2) && decide (b.1 < a.2)) s.inputSlots
    || s.inputSlots.any (fun a => decide (2 ^ 38 < a.2))
    || anyPair (· == ·) (en.flatMap (fun i => [s.sv F.ES_INPUT_CFG_CIDX0 0 i, s.sv F.ES_INPUT_CFG_CIDX1 0 i]))
    || en.any (fun i => s.sv F.ES_INPUT_CFG_BASE 0 i % 1024 != 0)

/-- Devices of RT_CKPT_GROUP, members 0 to 7. -/
def ckptGroup (rd : RegField → Nat → Nat → Nat) : List Nat :=
  (upFrom 0 2).flatMap (fun j => [rd F.RT_CKPT_GROUP_DEVICE0 0 j, rd F.RT_CKPT_GROUP_DEVICE1 0 j,
    rd F.RT_CKPT_GROUP_DEVICE2 0 j, rd F.RT_CKPT_GROUP_DEVICE3 0 j])

/-- P of a checkpoint area (R304). -/
def ckptP (mlen glen : Nat) : Nat := (65536 + (mlen + glen) * 1024 + 65535) / 65536 * 65536

/-- Bytes `a` to `a + n − 1` lie in the stack `r` (R203): only under stack-local mode. -/
def inStack (mode r a n : Nat) : Bool := mode == 1 && decide (r * 2 ^ 35 ≤ a) && decide (a + n ≤ (r + 1) * 2 ^ 35)

/-- R321 for the group of the device. -/
def State.ckptBad (s : State) : Bool :=
  let self := s.sv F.LK_TOPO_SELF 0 0
  let g := ckptGroup s.sv
  match s.sv F.RT_CKPT_CFG_MODE 0 0 with
  | 1 => s.sv F.RT_CKPT_PEER_BUDDY 0 0 == self
  | 2 => g.getD (s.sv F.RT_CKPT_PEER_MEMBER 0 0) 0 != self || anyPair (· == ·) g
  | _ => false

/-- R321 for the area of root die `r`. -/
def State.areaBad (s : State) (r : Nat) : Bool :=
  let b := s.sv F.RT_CKPT_AREA_BASE r 0
  b % 65536 != 0
    || !inStack (s.sv F.RT_DRAM_CFG_MODE r 0) r b (4 * ckptP (s.sv F.RT_CKPT_SET_MLEN r 0) (s.sv F.RT_CKPT_SET_GLEN r 0))

/-- Product of the sizes of a torus. -/
def State.torusSize (s : State) : Nat :=
  dimFields.foldl (fun a p => if p.1 < s.sv F.LK_TOPO_NDIM 0 0 then a * s.sv p.2 0 0 else a) 1

/-- R279. -/
def State.aliasBad (s : State) : Bool :=
  let v := (upFrom 0 64).filter (fun i => s.sv F.LK_ALIAS_VALID 0 i == 1)
  anyPair (fun i j => s.sv F.LK_ALIAS_LOGICAL 0 i == s.sv F.LK_ALIAS_LOGICAL 0 j
      || s.sv F.LK_ALIAS_PHYS 0 i == s.sv F.LK_ALIAS_PHYS 0 j) v
    || (s.sv F.LK_TOPO_NDIM 0 0 != 0 && v.any (fun i => decide (s.torusSize ≤ s.sv F.LK_ALIAS_PHYS 0 i)))

/-- R290 for link `n`. -/
def State.linkBad (s : State) (n : Nat) : Bool :=
  let en := s.sv F.LK_CFG_EN n 0
  let dim := s.sv F.LK_CFG_DIM n 0
  (en == 1 && (decide (s.sv F.LK_TOPO_NDIM 0 0 ≤ dim)
      || ((dimFields.find? (fun p => p.1 == dim)).map (fun p => s.sv p.2 0 0)) == some 1))
    || (s.inRun && ((s.fld F.LK_CFG_EN n 0 == 1
        && (s.fld F.LK_CFG_DIM n 0 != dim || s.fld F.LK_CFG_DIRN n 0 != s.sv F.LK_CFG_DIRN n 0))
      || (s.fld F.LK_CFG_EN n 0 == 0 && en == 1)))

/-- R290 for the torus. -/
def State.topoBad (s : State) : Bool :=
  s.sv F.LK_TOPO_NDIM 0 0 != 0
    && (decide (32768 < s.torusSize) || decide (s.torusSize ≤ s.sv F.LK_TOPO_PHYS 0 0))

/-- R39. -/
def State.beatBad (s : State) : Bool :=
  let kids := s.sv F.ES_BEAT_CFG_CHILD_MASK 0 0
  let lim := s.sv F.ES_REF_CFG_REF_TIMEOUT 0 0
  match s.sv F.ES_BEAT_CFG_ROLE 0 0 with
  | 1 => bit kids (s.sv F.ES_BEAT_CFG_PARENT_LINK 0 0)
  | 2 => (s.sv F.ES_BEAT_CFG_REF_SRC 0 0 == 1 && bit kids (s.sv F.ES_BEAT_CFG_REF_LINK 0 0))
      || lim == 0 || decide (lim < s.sv F.ES_REF_CFG_REF_MIN_GAP 0 0)
  | _ => false

/-- A tree link whose EN is 0 (R287). -/
def State.treeBad (s : State) : Bool :=
  let off (n : Nat) : Bool := s.sv F.LK_CFG_EN n 0 == 0
  match s.sv F.ES_BEAT_CFG_ROLE 0 0 with
  | 0 => false
  | r => (upFrom 0 24).any (fun n => bit (s.sv F.ES_BEAT_CFG_CHILD_MASK 0 0) n && off n)
      || (r == 1 && off (s.sv F.ES_BEAT_CFG_PARENT_LINK 0 0))

/-- R371 for window `w` of port `p`. -/
def State.winBad (s : State) (p w : Nat) : Bool :=
  decide (2 ^ 38 < (s.sv F.EN_WIN_BASE p w + s.sv F.EN_WIN_LEN p w) * 1024)
    || (s.sv F.EN_WIN_EN p w == 1 && (upFrom 0 16).any (fun v =>
      v != w && s.sv F.EN_WIN_EN p v == 1 && s.sv F.EN_WIN_RKEY p v == s.sv F.EN_WIN_RKEY p w))

/-- A dirty field takes part in a consistency rule that fails. `target`: that of the request. -/
def State.ruleBad (s : State) (target : Nat) (x : FieldAt) : Bool :=
  let i := x.inst
  let j := x.idx
  match x.info.name with
  | .SP_CFG | .SP_BANKMASK => s.sv F.SP_CFG_MODE i 0 == 0 && s.sv F.SP_BANKMASK_MASK i 0 != 2 ^ 48 - 1
  | .SP_ROWMAP_LO | .SP_ROWMAP_HI => s.inRun && mapChangeBad 15 (s.fld x.fld i j) (s.sv x.fld i j)
  | .XC_XP_CFG | .XC_XPE => s.xpBad i
  | .XC_XB_CFG | .XC_XSE => s.xsBad i
  | .XC_ROWMAP => s.sv F.XC_ROWMAP_FENCED_POS i j == s.sv F.XC_ROWMAP_FENCED_POS2 i j
      || (s.inRun && !(target == 1 && s.fld F.ES_COMMIT_BEAT_BEAT 0 0 == s.fld F.ES_STEP_NEXT_BEAT 0 0))
  | .ES_BEAT_CFG => s.beatBad || s.treeBad
  | .ES_REF_CFG => s.beatBad
  | .ES_INPUT_CFG => s.inputBad
  | .RT_DRAM_CFG => (upFrom 0 8).any (fun r => s.sv F.RT_DRAM_CFG_MODE r 0 != s.sv F.RT_DRAM_CFG_MODE 0 0)
  | .RT_PCMAP => s.sv F.RT_PCMAP_SPARE0_FOR i 0 != 0x3F && s.sv F.RT_PCMAP_SPARE0_FOR i 0 == s.sv F.RT_PCMAP_SPARE1_FOR i 0
  | .RT_PIPEMAP =>
    s.sv F.RT_PIPEMAP_SPARE0_FOR i 0 != 0x3F && s.sv F.RT_PIPEMAP_SPARE0_FOR i 0 == s.sv F.RT_PIPEMAP_SPARE1_FOR i 0
  | .RT_WRAISE | .RT_WPOLICY => decide (s.sv F.RT_WPOLICY_MAXRAISE 0 0 < s.sv F.RT_WRAISE_RAISE 0 0)
  | .RT_CKPT_CFG | .RT_CKPT_PEER | .RT_CKPT_GROUP => s.ckptBad
  | .RT_CKPT_AREA | .RT_CKPT_SET => s.areaBad i
  | .RT_RGN_CFG => decide (storeRecs < s.sv F.RT_RGN_CFG_BASE i j + s.sv F.RT_RGN_CFG_COUNT i j)
      || s.sv F.RT_RGN_CFG_BASE i j % 16 != 0
  | .RT_STOREMAP => s.inRun && mapChangeBad 63 (s.storemapLive i j) (s.storemapNew i j)
  | .LK_CFG => s.linkBad i
  | .LK_TOPO => s.topoBad || s.aliasBad || s.ckptBad || (upFrom 0 24).any s.linkBad
  | .LK_DIMSIZE => s.topoBad || s.aliasBad || (upFrom 0 24).any s.linkBad
  | .LK_ALIAS => s.aliasBad
  | .EN_WIN => s.winBad i j
  | .PW_CEIL | .PW_FLOOR => decide (s.sv F.PW_CEIL_TILE_CEIL 0 0 < s.sv F.PW_FLOOR_FLOOR 0 0)
  | .PW_BUDGET => s.inRun && (match s.job with
      | some b => decide (s.sv F.PW_BUDGET_BUDGET 0 0 < b.alloc)
      | none => false)
  | _ => false
where
  storeRecs : Nat := 4194304

/-- The outcome of the checks: code (Table 1.14) and register address of the first failure, in the order of R34. -/
def State.checkDirty (s : State) (target : Nat) : Option (Nat × Nat) :=
  let d := s.dirtyFields
  let first (p : FieldAt → Bool) : Option Nat := minOf ((d.filter p).map s.fieldAddr)
  match first s.reservedBad with
  | some a => some (4, a)
  | none =>
    match minOf ((d.filter s.zeroBad).map s.zeroAddr) with
    | some a => some (3, a)
    | none => (first (s.ruleBad target)).map (fun a => (5, a))

end Sys2Proof.Machine
end

