-- ==== Sys2Proof/Machine/Capability.lean ====
section
/-! DEFINITION. The capability record (R329). -/

namespace Sys2Proof.Machine

def State.updCrown (s : State) (f : Crown → Crown) : State := { s with crown := f s.crown }

/-- Registers of the maps that flash records (R407). -/
def mapRegs : List RegName :=
  [.XC_ROWMAP, .SP_ROWMAP_LO, .SP_ROWMAP_HI, .RT_PCMAP, .RT_PIPEMAP, .RT_STOREMAP, .LK_LANEMAP]

/-- Profiles a stepping runs (R330). -/
def profiles : Nat := if Config.steppingB0 then 6 else 2

/-- Table 11.7. -/
def Cap.bytes (c : Cap) : List Byte :=
  toBytes 1 2 ++ toBytes (b2n Config.steppingB0) 1 ++ toBytes profiles 1 ++ toBytes c.rows16 12 ++ toBytes c.roots 1
    ++ toBytes c.eth 1 ++ toBytes c.links 3 ++ zeros 3 ++ toBytes 180000 4 ++ toBytes c.rowsSpared 2 ++ toBytes c.banksDry 2
    ++ toBytes c.minPaths 1 ++ toBytes c.minPipes 1 ++ toBytes c.minGroups 1 ++ toBytes c.linksSpared 1
    ++ toBytes c.slicesDry 2 ++ zeros 2 ++ toBytes c.updated 8 ++ zeros 16

/-- How many of the instances that `l` lists at least `n` times. -/
def fullCount (n : Nat) (l : List (Nat × Nat)) : Nat :=
  (l.dedup.filter (fun x => decide (n ≤ (l.filter (fun y => decide (y = x))).length))).length

/-- Physical tile and bank of every valid entry of SP_ROWMAP. -/
def State.rowEntriesLive (s : State) : List (Nat × Nat) :=
  s.regs.filterMap (fun e => match keyField e.1 with
    | some f => if f.fld.block = .spr && bit e.2 15 then some (f.inst, f.idx) else none
    | none => none)

/-- Root die and slice of every valid entry of RT_STOREMAP. -/
def State.lineEntriesLive (s : State) : List (Nat × Nat) :=
  s.regs.filterMap (fun e => match keyField e.1 with
    | some f => if f.fld = F.RT_STOREMAP_VALID then some (f.inst, f.idx / 16) else none
    | none => none)

/-- Free spares of two fields, and the fewest of any root die. -/
def freeOf (a b : Nat) : Nat := b2n (a == 0x3F) + b2n (b == 0x3F)
def fewest (f : Nat → Nat) : Nat := (upFrom 0 8).foldl (fun m r => min m (f r)) 2

/-- Lane positions of link `n` that can work: nine physical lanes less the failed ones, at most 8 (R285). -/
def State.laneCount (s : State) (n : Nat) : Nat :=
  min 8 ((upFrom 0 9).filter (fun l => !bit (s.fld F.LK_LANE_HEALTH_FAILED n 0) l)).length

/-- ROWS16 and ROWS_SPARED as the live row maps give them. -/
def State.rows16 (s : State) : Nat := maskOf 96 (fun i => s.fld F.XC_ROWMAP_FENCED_POS2 (i / 24) (i % 24) == 0x1F)
def State.rowsSpared (s : State) : Nat := ((upFrom 0 96).filter (fun i => s.fld F.XC_ROWMAP_FENCED_POS (i / 24) (i % 24) != 16)).length

/-- The link's spare lane is in use, or its live map brings it in (R286). -/
def State.laneSpared (s : State) (n : Nat) : Bool :=
  s.fld F.LK_STATUS_SPARE_IN_USE n 0 != 0xF || s.fld F.LK_LANEMAP_SPARE_FOR n 0 != 0xF

/-- The counts of Table 11.7 as the live maps give them. A link with fewer than 8 working lane positions leaves LINKS. -/
def State.capNow (s : State) : Cap :=
  { s.crown.repair.cap with
    rows16 := s.rows16
    rowsSpared := s.rowsSpared
    links := maskOf 24 (fun n => bit s.crown.repair.cap.links n && s.laneCount n == 8)
    banksDry := fullCount 8 s.rowEntriesLive
    minPaths := fewest (fun r => freeOf (s.fld F.RT_PCMAP_SPARE0_FOR r 0) (s.fld F.RT_PCMAP_SPARE1_FOR r 0))
    minPipes := fewest (fun r => freeOf (s.fld F.RT_PIPEMAP_SPARE0_FOR r 0) (s.fld F.RT_PIPEMAP_SPARE1_FOR r 0))
    minGroups := fewest (fun r => freeOf (s.rve r).spare0 (s.rve r).spare1)
    linksSpared := ((upFrom 0 24).filter s.laneSpared).length
    slicesDry := fullCount 16 s.lineEntriesLive }

/-- The Crown updates the capability record: at the clearing at which a spare is brought in or a unit taken out (R329). -/
def State.capUpdate (s : State) : State :=
  let c := s.capNow
  if c = s.crown.repair.cap then s
  else s.updCrown (fun x => { x with repair := { x.repair with cap := { c with updated := s.beat } }, dirty := true })

end Sys2Proof.Machine
end

