-- ==== Sys2Proof/Machine/SlotB.lean ====
section
/-! DEFINITION. What slot B of a word asks of its unit, and what the checks at its issue find (R92, R93, R98, R107, R112, R113,
R139, R140, R153, R262). -/

namespace Sys2Proof.Machine

/-! ## What slot B asks of its unit (R92, R107, R113, R153) -/

/-- Least cycle from `x` that `blocked` does not block, trying `fuel` cycles. -/
def firstFree (blocked : Nat → Bool) : Nat → Nat → Nat
  | 0, x => x
  | fuel + 1, x => if blocked x then firstFree blocked fuel (x + 1) else x

/-- A byte address formed in a slot B load or store: RA + offset, 64 bits (R93). -/
def addrB (x : Nat) (rd : Nat → W64) : Nat :=
  match fOp x with
  | 0x01 | 0x02 => wrap 64 ((rd (fRa x)).toNat + off13 x)
  | _ => wrap 64 ((rd (fRa x)).toNat + 64 * immS x)

/-- Access size of LDS and STS by SZ (R93). -/
def szBytes (sz : Nat) : Nat := 2 ^ (sz % 4)

/-- Why a load or store is not performed (R93): MISALIGNED with its byte offset, ADDRESS_FAULT with its address. -/
def accessErr (n a : Nat) : List (Nat × Nat) :=
  (if a % n ≠ 0 then [(5, a)] else []) ++ (if a + n > spSize then [(6, a)] else [])

/-- Why a memory operation is not performed (R112), each cause with the offset concerned: an operation of length 0 is not
checked. DESIGN CHOICE (log entry 114): where destination and source both break a rule, INFO is the destination. -/
def memopErr (op dst src len al : Nat) : List (Nat × Nat) :=
  let two := op != 6
  if len = 0 then []
  else
    (if dst % al != 0 || len % al != 0 then [(5, dst)] else if two && src % al != 0 then [(5, src)] else [])
      ++ (if dst + len > spSize then [(6, dst)] else if two && src + len > spSize then [(6, src)] else [])

/-- Device address of scratchpad offset `o` of tile `t`, 64 bits (R26). -/
def spAddr (t o : Nat) : Nat := (0x00C000000000 + t * 0x200000 + o) % 2 ^ 64

/-- Row length of a B block K-row, an A row and a result row (R136). -/
def bRowLen (mt : Nat) : Nat := 32 * mtSize mt
def aRowLen (mt ng : Nat) : Nat := ng * 32 * mtSize mt

/-- Fields of MLD, MMA and MDRAIN (Table 5.4). -/
def mldBuf (x : Nat) : Nat := bits x 10 10
def mldMt (x : Nat) : Nat := bits x 9 7
def mldNg (x : Nat) : Nat := bits x 6 5 + 1
def mmaAcc (x : Nat) : Nat := bits x 10 10
def mmaBuf (x : Nat) : Nat := bits x 9 9
def mmaMt (x : Nat) : Nat := bits x 8 6
def mmaNarrow (x : Nat) : Bool := bit x 5
def mmaSr (x : Nat) : Bool := bit x 4
def mmaInit (x : Nat) : Nat := bits x 3 2
def mmaNg (x : Nat) : Nat := bits x 1 0 + 1
def mdAcc (x : Nat) : Nat := bits x 10 10
def mdOut (x : Nat) : Nat := bits x 9 8
def mdAccum (x : Nat) : Bool := bit x 7
def mdSr (x : Nat) : Bool := bit x 6

def Matrix.buf (m : Matrix) (b : Nat) : StatBuf := if b = 0 then m.buf0 else m.buf1
def Matrix.acc (m : Matrix) (a : Nat) : Acc := if a = 0 then m.acc0 else m.acc1
def Matrix.setBuf (m : Matrix) (b : Nat) (x : StatBuf) : Matrix :=
  if b = 0 then { m with buf0 := x } else { m with buf1 := x }
def Matrix.setAcc (m : Matrix) (a : Nat) (x : Acc) : Matrix :=
  if a = 0 then { m with acc0 := x } else { m with acc1 := x }

/-- End of the bytes an MLD reads (R136). -/
def mldEnd (x base pitch : Nat) : Nat :=
  let k := 32 * mldNg x
  if mtScaled (mldMt x) then base + k * pitch + 128 else base + (k - 1) * pitch + bRowLen (mldMt x)

/-- End of the A bytes an MMA reads. -/
def mmaEnd (x base pitch : Nat) : Nat :=
  if mtScaled (mmaMt x) then base + 64 * pitch + 256 else base + 63 * pitch + aRowLen (mmaMt x) (mmaNg x)

/-- Bytes of the initial value (R136). -/
def initLen (x : Nat) : Nat := if mmaInit x = 1 then 8192 else if mmaInit x = 2 then 4096 else 0

/-- Bytes of a result row. -/
def outRow (x : Nat) : Nat := if mdOut x = 0 then 128 else 64

/-- The failures of R139: RESERVED_FIELD, MISALIGNED with the first offset concerned, ADDRESS_FAULT with the base of the
first block concerned. DESIGN CHOICE (log entry 114): of several offsets or blocks INFO is the first, in the order base,
pitch, initial value; the address of a fault is the block's base. -/
def matrixFails (reserved : Bool) (mis out : List (Nat × Bool)) : List (Nat × Nat) :=
  let first (l : List (Nat × Bool)) : Option Nat := (l.find? (·.2)).map (·.1)
  (if reserved then [(2, 0)] else []) ++ ((first mis).map ((5, ·))).toList ++ ((first out).map ((6, ·))).toList

/-- The checks of R139 on a matrix word. -/
def matrixErr (x : Nat) (rd : Nat → W64) : List (Nat × Nat) :=
  let base := (rd (fRd x)).toNat
  let pitch := (rd (fRa x)).toNat
  let c := (rd (fRb x)).toNat
  let wide (v : Nat) : Bool := v ≥ 2 ^ 21
  match fOp x with
  | 0x30 =>
    matrixFails (fRb x != 0 || bits x 4 0 != 0 || wide base || wide pitch || decide (pitch < bRowLen (mldMt x)))
      [(base, base % 32 != 0), (pitch, pitch % 32 != 0)] [(base, decide (mldEnd x base pitch > spSize))]
  | 0x31 =>
    let init := mmaInit x != 0
    matrixFails (wide base || wide pitch || (init && wide c) || mmaInit x == 3
        || (mmaInit x == 2 && mmaMt x == 6) || (mmaNarrow x && decide (mmaMt x ≥ 6)) || (mmaSr x && !mmaNarrow x)
        || decide (pitch < aRowLen (mmaMt x) (mmaNg x)))
      [(base, base % 32 != 0), (pitch, pitch % 32 != 0), (c, init && c % 32 != 0)]
      [(base, decide (mmaEnd x base pitch > spSize)), (c, init && decide (c + initLen x > spSize))]
  | 0x32 =>
    matrixFails (fRb x != 0 || bits x 5 0 != 0 || wide base || wide pitch || decide (mdOut x ≥ 2)
        || (mdSr x && !(mdAccum x && mdOut x == 1)) || decide (pitch < outRow x))
      [(base, base % 32 != 0), (pitch, pitch % 32 != 0)] [(base, decide (base + 63 * pitch + outRow x > spSize))]
  | _ =>
    matrixFails (fRa x != 0 || fRb x != 0 || bits x 10 0 != 0 || wide base) [(base, base % 64 != 0)]
      [(base, decide (base + 64 > spSize))]

/-- The global rows of drain write cycle `c` (R154). -/
def drainRows (x base pitch c : Nat) : List Nat :=
  if mdOut x = 0 then (upFrom (32 * (c / 4)) 32).map (fun i => (base + i * pitch) / 32 + c % 4)
  else (upFrom (32 * (c / 2)) 32).map (fun i => (base + i * pitch) / 32 + c % 2)

/-- Write cycles of a drain. -/
def drainCycles (x : Nat) : Nat := if mdOut x = 0 then 8 else 4

/-- All numbers of a list differ. -/
def distinct : List Nat → Bool
  | [] => true
  | a :: l => !l.contains a && distinct l

/-- The 32 rows of each drain cycle lie in 32 banks (R155). -/
def State.drainBanksOk (s : State) (t x base pitch : Nat) : Bool :=
  (upFrom 0 (drainCycles x)).all (fun c => distinct ((drainRows x base pitch c).map (fun g => (s.bankOf t g).1)))

/-- The checks of R140 on a matrix word, as MX_ERR codes. -/
def Matrix.fails (m : Matrix) (x : Nat) : List Nat :=
  match fOp x with
  | 0x31 =>
    let b := m.buf (mmaBuf x)
    (if !b.valid || decide (b.ng < mmaNg x) then [1] else [])
      ++ (if b.valid && mtClass b.mt != mtClass (mmaMt x) then [2] else [])
  | 0x32 => if mdOut x = 1 && (m.acc (mdAcc x)).kind == .int32 then [3] else []
  | _ => []

/-- The check of R155. -/
def State.drainFails (s : State) (t x : Nat) (rd : Nat → W64) : Bool :=
  fOp x == 0x32 && !s.drainBanksOk t x (rd (fRd x)).toNat (rd (fRa x)).toNat

/-- The checks of R140 and R155 on a matrix word, as MX_ERR codes. -/
def State.mxCheck (s : State) (t x : Nat) (rd : Nat → W64) : List Nat :=
  (s.tile t).matrix.fails x ++ (if s.drainFails t x rd then [4] else [])

/-- First write cycle of a drain issued in cycle `x` (Table 5.5). -/
def drainFrom (prof x : Nat) : Nat := if prof = 2 then x + 4 else x + 6
/-- Drain read cycle. -/
def drainRead (prof x : Nat) : Nat := if prof = 2 then x + 3 else x + 5

/-- MMAs outstanding in the present cycle (R152). -/
def Matrix.outstanding (m : Matrix) (now : Nat) : List MmaOut := m.outs.filter (fun o => decide (now ≤ o.last))

/-- A load or store entry of row `g` that an access of cycle `x` joins (R110). -/
def Tile.loadJoins (q : Tile) (x g : Nat) : Bool := q.loads.any (fun e => e.row == g && decide (x ≤ e.opened + 3))
def Tile.storeJoins (q : Tile) (x g : Nat) : Bool := q.groups.any (fun e => e.row == g && decide (x ≤ e.opened + 3))

/-- Slot B's unit can accept the operation in the present cycle (R92, R107, R113, R153). A word that fails R139 or R140 does
not wait, and a drain that fails R155 makes no claims. -/
def State.acceptB (s : State) (t : Nat) (w : Nat) (rd : Nat → W64) : Bool :=
  let q := s.tile t
  let x := s.esc.tc
  let a := accessOff s.profile
  let m := q.matrix
  match fOp w with
  | 0x01 =>
    let o := addrB w rd
    !(accessErr (szBytes (fSz w)) o).isEmpty || q.loadJoins x (o / 32) || !q.claimed (x + a) (s.bankOf t (o / 32)).1
  | 0x02 =>
    let o := addrB w rd
    !(accessErr (szBytes (fSz w)) o).isEmpty || q.storeJoins x (o / 32) || !q.claimed (x + 4) (s.bankOf t (o / 32)).1
  | 0x03 | 0x04 =>
    let o := addrB w rd
    !(accessErr 64 o).isEmpty || (s.banksOf t o 64).all (fun b => !q.claimed (x + a) b)
  | 0x06 | 0x07 | 0x08 => decide (q.memops.length < 4)
  | 0x30 => !(matrixErr w rd).isEmpty || (m.outstanding x).all (fun o => o.buf != mldBuf w)
  | 0x31 => !(matrixErr w rd).isEmpty || !(m.fails w).isEmpty || decide ((m.outstanding x).length < 2)
  | 0x32 =>
    !(matrixErr w rd).isEmpty || !(m.fails w).isEmpty ||
      ((match (m.acc (mdAcc w)).lastIssue with
        | some l => decide (l ≤ x)
        | none => true) &&
        (s.drainFails t w rd || (upFrom 0 (drainCycles w)).all (fun c =>
          (drainRows w (rd (fRd w)).toNat (rd (fRa w)).toNat c).all (fun g =>
            !q.claimed (drainFrom s.profile x + c) (s.bankOf t g).1))))
  | 0x33 => !(matrixErr w rd).isEmpty || decide (m.filler.length < 16)
  | _ => true

/-! ## Filler descriptors (R261, R262) -/

/-- Word `i` of a filler descriptor. -/
def Filler.w (f : Filler) (i : Nat) : Nat := (f.words.getD i 0).toNat

/-- Base, pitch and step of A (0), B (1) or OUT (2) (Table 8.9). -/
def Filler.base (f : Filler) (i : Nat) : Nat := bits (f.w i) 20 0
def Filler.pitch (f : Filler) (i : Nat) : Nat := bits (f.w i) 41 21
def Filler.step (f : Filler) (i : Nat) : Nat := bits (f.w i) 62 42
def Filler.repeats (f : Filler) : Nat := bits (f.w 3) 15 0
def Filler.mtA (f : Filler) : Nat := bits (f.w 3) 18 16
def Filler.mtB (f : Filler) : Nat := bits (f.w 3) 21 19
def Filler.csig (f : Filler) : Bool := bit (f.w 3) 38
def Filler.cidx (f : Filler) : Nat := bits (f.w 3) 37 32

/-- Base of pass `p`. -/
def Filler.at (f : Filler) (i p : Nat) : Nat := f.base i + p * f.step i

/-- A slot word of opcode `op` with its first operand in s1 and its second in s2. -/
def passWord (op flags : Nat) : Nat := op * 2 ^ 26 + 2 ^ 21 + 2 * 2 ^ 16 + flags

/-- The three operations of a pass as slot words (R262). -/
def Filler.mld (f : Filler) : Nat :=
  passWord 0x30 (bits (f.w 3) 27 27 * 1024 + f.mtB * 128 + bits (f.w 3) 23 22 * 32)
def Filler.mma (f : Filler) : Nat :=
  passWord 0x31 (bits (f.w 3) 26 26 * 1024 + bits (f.w 3) 27 27 * 512 + f.mtA * 64 + bits (f.w 3) 24 24 * 32
    + bits (f.w 3) 25 25 * 16 + bits (f.w 3) 23 22)
def Filler.mdrain (f : Filler) : Nat :=
  passWord 0x32 (bits (f.w 3) 26 26 * 1024 + bits (f.w 3) 29 28 * 256 + bits (f.w 3) 30 30 * 128
    + bits (f.w 3) 31 31 * 64)

/-- Operand registers of a pass's slot word. -/
def passRegs (base pitch : Nat) (r : Nat) : W64 :=
  if r = 1 then BitVec.ofNat 64 base else if r = 2 then BitVec.ofNat 64 pitch else 0

/-- R139 for one operation of a pass. -/
def passErr (x base pitch : Nat) : List (Nat × Nat) := matrixErr x (passRegs base pitch)

/-- R139 for pass `p`: the failures of its three operations in their order. -/
def Filler.passFaults (f : Filler) (p : Nat) : List (Nat × Nat) :=
  passErr f.mld (f.at 1 p) (f.pitch 1) ++ passErr f.mma (f.at 0 p) (f.pitch 0) ++ passErr f.mdrain (f.at 2 p) (f.pitch 2)

/-- Reserved bits of a filler descriptor (Table 8.9). -/
def Filler.reserved (f : Filler) : Bool :=
  bit (f.w 0) 63 || bit (f.w 1) 63 || bit (f.w 2) 63 || bits (f.w 3) 63 39 != 0
    || f.w 4 != 0 || f.w 5 != 0 || f.w 6 != 0 || f.w 7 != 0

/-- Failures recorded under R98, as code and INFO: reserved bits and R139 over every pass. DESIGN CHOICE (log entry 114): of the
failures of one code the first is recorded, by pass and operation. -/
def Filler.coreFault (f : Filler) : List (Nat × Nat) :=
  let l := (if f.reserved then [(2, 0)] else []) ++ (upFrom 0 f.repeats).flatMap f.passFaults
  [2, 5, 6].filterMap (fun c => l.find? (fun e => e.1 == c))

/-- What the checks of slot B at issue find (R93, R112, R139), with INFO as Table 3.7 gives it. -/
def bErrs (t w : Nat) (rd : Nat → W64) : List CoreErr :=
  let l := match fOp w with
    | 0x01 | 0x02 => accessErr (szBytes (fSz w)) (addrB w rd)
    | 0x03 | 0x04 => accessErr 64 (addrB w rd)
    | 0x06 => memopErr 6 (rd (fRd w)).toNat 0 (rd (fRa w)).toNat (2 ^ bits w 1 0)
    | 0x07 | 0x08 => memopErr (fOp w) (rd (fRd w)).toNat (rd (fRa w)).toNat (rd (fRb w)).toNat 32
    | 0x30 | 0x31 | 0x32 | 0x33 => matrixErr w rd
    | _ => []
  l.map (fun e => ⟨e.1, 1, w, if e.1 = 6 then spAddr t e.2 else e.2⟩)

/-- MFQ reads its descriptor in cycle `x` (R261): the descriptor, and as code and INFO what the read and the checks of R139 find
(R262). -/
def State.mfqRead (s : State) (t x off : Nat) : Filler × List (Nat × Nat) × State :=
  let (d, e, s) := s.coreLoad t x off 64
  let f : Filler := ⟨(chunks 8 8 d).map (fun b => BitVec.ofNat 64 (ofBytes b)), 0⟩
  (f, e.map (fun c => (c, off)) ++ f.coreFault.map (fun e => (e.1, if e.1 = 6 then spAddr t e.2 else e.2)), s)

/-- All that slot B finds in the cycle `x` of its issue: for MFQ with what its descriptor shows (R262). -/
def State.issueErrs (s : State) (t x w : Nat) : List CoreErr :=
  let q := s.tile t
  match bErrs t w q.sOld with
  | [] =>
    if fOp w = 0x33 then (s.mfqRead t x (q.sOld (fRd w)).toNat).2.1.map (fun e => ⟨e.1, 1, w, e.2⟩) else []
  | l => l

end Sys2Proof.Machine
end

