-- ==== Sys2Proof/Machine/Issue.lean ====
section
/-! DEFINITION. Issue of a tile's instruction word (R76 to R87): checks, interlocks, stalls, the advance of the PC
and the loop. A slot A command is the issue of its word and performs slot A; the slot B command of the same word
then performs slot B (log entry 4). -/

namespace Sys2Proof.Machine

/-! ## The segment as the tile sees it -/

/-- Segment class of the current beat. -/
def State.curClass (s : State) : Option SegClass := s.job.bind (fun j => j.classes[s.esc.cls]?)
/-- Boundary cycle of superstep `j` (R48). -/
def State.boundary (s : State) (j : Nat) : Option Nat := s.curClass.bind (fun c => c.bounds[j]?)
/-- The core parks (R99): an error without a slot. -/
def State.park (s : State) (t code word cyc : Nat) : State :=
  (s.coreErr t word cyc ⟨code, 0, 0, word⟩).updTile t (fun x => { x with core := .parkedErr })

/-! ## Issue -/

/-- How slot A leaves the flow: next PC as an integer, the cycle in which the next word can issue, and the errors
of slot A. -/
structure Flow where
  pc   : Int
  cyc  : Nat
  errs : List CoreErr
  /-- A taken transfer or BOUND: the fetch buffer is read afresh (R87). -/
  jump : Bool

/-- The next word in sequence. -/
def Tile.fall (q : Tile) (x : Nat) : Flow := ⟨(q.pc : Int) + 1, x + 1, [], false⟩

/-- Errors of a word that is not performed in either slot (R80, R81, R85). -/
def State.wordErrs (s : State) (t : Nat) (w : W64) : List CoreErr :=
  let q := s.tile t
  let a := slotA w
  let b := slotB w
  let ea := (errA a).toList.map (fun c => ⟨c, 0, a, 0⟩)
  let eb := (errB b).toList.map (fun c => ⟨c, 1, b, 0⟩)
  let ep := if (dstA a).any (fun r => (dstB b).contains r) then [⟨3, 0, a, 0⟩] else []
  let inBody := match q.loop with
    | some l => decide (l.start ≤ q.pc) && decide (q.pc < l.start + l.len)
    | none => false
  let el := if inBody && 1 ≤ fOp a && fOp a ≤ 5 then [⟨4, 0, a, 0⟩] else []
  ea ++ eb ++ ep ++ el

/-- The loop's turn after the word at `q.pc` (R85): the next PC and the loop that remains. -/
def Tile.loopNext (q : Tile) (np : Int) : Int × Option Loop :=
  match q.loop with
  | some l =>
    if np = (q.pc : Int) + 1 && q.pc + 1 == l.start + l.len then
      if l.remain = 0 then (np, none) else (l.start, some { l with remain := l.remain - 1 })
    else (np, some l)
  | none => (np, none)

/-- A body row counts as held in the loop buffer from its first body word (R85). -/
def Tile.bodyRows (q : Tile) : List Nat :=
  match q.loop with
  | some l =>
    if l.start ≤ q.pc && q.pc < l.start + l.len && !q.loopRows.contains (q.pc / 4) then q.loopRows ++ [q.pc / 4]
    else q.loopRows
  | none => []

/-- A word has issued in cycle `x`: PC, loop, fetch buffer, TL_PERF_ISSUE; `b` is the word whose slot B is left to
perform. Errors of slot A, a transfer out of range among them, are recorded with those that slot B finds at issue, the lower
code first (R98). A transfer to a word address below 0 or at or above 0x3_0000 parks the core with the target, in 18 bits, as
TL_ERR_PC and INFO (R84, R99; DESIGN CHOICE of log entry 114). A word that is not performed is counted in TL_PERF_ISSUE too (DESIGN
CHOICE of log entry 146). -/
def State.advance (s : State) (t x : Nat) (pc : Nat) (b : Option W64) (f : Flow) : State :=
  let q := s.tile t
  let (np, lp) := q.loopNext f.pc
  let out := f.jump && decide (np < 0 ∨ np ≥ 0x30000) && q.core != .boundWait
  let eb := match b with
    | some w => if out || !f.errs.isEmpty then s.issueErrs t x (slotB w) else []
    | none => []
  let q' := { q with
    pc := wrap 18 np, loop := lp, loopRows := if lp.isSome then q.bodyRows else []
    fetchRows := if f.jump then [] else q.fetchRows, fetchAt := if f.jump then x + 1 else q.fetchAt
    cyc := f.cyc, bWord := b, bCyc := x, bPc := pc, bTold := !eb.isEmpty, wait := none }
  let s := (s.setTile t q').addFld F.TL_PERF_ISSUE_COUNT t 0 1
  let s := s.coreErrs t pc s.cycleNow (f.errs ++ eb)
  if out then s.park t 0x12 (wrap 18 np) s.cycleNow else s

/-- A word stalls in the present cycle: it is counted once under its cause (R76). -/
def State.stall (s : State) (t : Nat) (perf : RegField) : State :=
  if (s.tile t).did.contains 0 then s else (s.addFld perf t 0 1).updTile t (fun q => { q with did := 0 :: q.did })

/-- READ's latency for the counter its RC names (Table 3.5). -/
def State.readLat (s : State) (t : Nat) (a : Nat) : Nat :=
  match crefKey (some t) (((s.tile t).s (fRd a)).toNat % 2 ^ 32) with
  | some k => ctrLatency t k
  | none => 1

/-- Tile `t` can take a word in the present cycle: its core runs, a segment cycle is delivered, the cycle of the last
word's successor has come, slot B of that word is done, and no word waits. -/
def State.takesWord (s : State) (t : Nat) : Bool :=
  let q := s.tile t
  q.core == .run && s.ticking && q.wait.isNone && q.bWord.isNone && decide (q.cyc ≤ s.esc.tc)

/-- Present the word `w` of tile `t` to its units in the present cycle: the state after its checks and stalls, and whether it
issues now. A word that decode refuses is not performed and is passed at once: it waits for no interlock (DESIGN CHOICE of
log entry 114). -/
def State.offer (s : State) (t : Nat) (w : W64) : State × Bool :=
  let q := s.tile t
  let x := s.esc.tc
  if !s.takesWord t then (s, false)
  else if q.pc ≥ 0x30000 then (s.park t 0x12 q.pc s.cycleNow, false)
  else
    match s.wordErrs t w with
    | e :: es => (s.advance t x q.pc none { q.fall x with errs := e :: es }, false)
    | [] =>
      if q.ready w s.profile (s.readLat t (slotA w)) x ≠ x then (s.stall t F.TL_PERF_INTERLOCK_COUNT, false)
      else if !s.acceptB t (slotB w) q.s then (s.stall t F.TL_PERF_QUEUE_COUNT, false)
      else (s.updTile t (fun q => { q with overlay := [] }), true)

/-- Issue the word `w` of tile `t`: `act` performs slot A in the issue cycle. -/
def State.issue (s : State) (t : Nat) (w : W64) (act : State → Nat → State × Flow) : State :=
  match s.offer t w with
  | (s, false) => s
  | (s, true) =>
    let x := s.esc.tc
    let pc := (s.tile t).pc
    let (s, f) := act s x
    s.advance t x pc (some w) f

end Sys2Proof.Machine
end

