-- ==== Sys2Proof/Machine/Memory.lean ====
section
/-! DEFINITION. The device address space outside the scratchpads (R22 to R30) and the memories of the root dies:
the DRAM address map, ECC and paths (R201 to R206), and the records of the accumulation store (R211 to R214). -/

namespace Sys2Proof.Machine

/-! ## Where an address lies (Table 1.7) -/

inductive Place where
  | dram (a : Nat)
  /-- Root die and offset in its 64 MiB. -/
  | store (r o : Nat)
  /-- Logical tile and scratchpad offset. -/
  | tile (t o : Nat)
  | live (a : Nat)
  | staging (a : Nat)
  | hole
  deriving DecidableEq, Repr

/-- End of DRAM, base of the store, of the scratchpad windows. -/
def dramEnd : Nat := 2 ^ 38
def storeBase : Nat := 0x008000000000
def spBase : Nat := 0x00C000000000

/-- The place of a device address. -/
def place (a : Nat) : Place :=
  if a < dramEnd then .dram a
  else if storeBase ≤ a ∧ a < storeBase + 0x20000000 then
    .store ((a - storeBase) / 0x4000000) ((a - storeBase) % 0x4000000)
  else if spBase ≤ a ∧ a < spBase + 0xC0000000 then
    (if (a - spBase) % 0x200000 < spSize then .tile ((a - spBase) / 0x200000) ((a - spBase) % 0x200000) else .hole)
  else if liveBase ≤ a ∧ a < liveBase + stagingOff then .live a
  else if liveBase + stagingOff ≤ a ∧ a < liveBase + 2 * stagingOff then .staging a
  else .hole

/-- The place of an address on this device: the window of a column that its row lacks is a hole (R15). -/
def State.place (s : State) (a : Nat) : Place :=
  match Machine.place a with
  | .tile t o => if (s.physOf t).isSome then .tile t o else .hole
  | p => p

/-- `n` bytes from `a` lie in DRAM, in the store or in one scratchpad. -/
def State.memRangeOk (s : State) (a n : Nat) : Bool :=
  match s.place a with
  | .dram a => decide (a + n ≤ dramEnd)
  | .store r o => decide (r * 0x4000000 + o + n ≤ 0x20000000)
  | .tile _ o => decide (o + n ≤ spSize)
  | _ => false

/-- Every 8-byte word that `n` bytes from `a` touch is a defined register of the live view. -/
def State.liveRangeOk (s : State) (a n : Nat) : Bool :=
  (upFrom (a / 8) ((a + n - 1) / 8 - a / 8 + 1)).all (fun w => (s.regAt (8 * w)).isSome)

/-! ## DRAM (R201 to R206) -/

/-- Stack, segment, line and byte of a DRAM address (Table 7.1). -/
def dramLoc (mode a : Nat) : Nat × Nat × Nat × Nat :=
  if mode = 0 then
    (bits a 10 8 ^^^ bits a 18 16 ^^^ bits a 24 22, bits a 15 11 ^^^ bits a 20 16 ^^^ bits a 30 26, bits a 37 16,
      bits a 7 0)
  else (bits a 37 35, bits a 12 8 ^^^ bits a 17 13, bits a 34 13, bits a 7 0)

/-- Place of a byte in the stacks: (stack × 32 + segment) × 2^30 + 256 × line + byte. -/
def dramKey (mode a : Nat) : Nat :=
  let (st, seg, line, b) := dramLoc mode a
  (st * 32 + seg) * 2 ^ 30 + line * 256 + b

def State.dramMode (s : State) : Nat := s.fld F.RT_DRAM_CFG_MODE 0 0
/-- The stack that holds a DRAM address. -/
def State.stackOf (s : State) (a : Nat) : Nat := (dramLoc s.dramMode a).1
def State.dramByte (s : State) (a : Nat) : Byte := s.dram.read 0 (dramKey s.dramMode a)
/-- Bytes of DRAM from address `a`. -/
def State.dramBytes (s : State) (a n : Nat) : List Byte := (upFrom a n).map s.dramByte
/-- Put bytes into DRAM. -/
def State.dramPut (s : State) (a : Nat) (d : List Byte) : State :=
  { s with dram := ((upFrom a d.length).zip d).foldl (fun m p => m.write 0 (dramKey s.dramMode p.1) p.2) s.dram }

/-- Mark the present step unclean at a root die (Table 7.13). -/
def State.rtUnclean (s : State) (r : Nat) : State := s.markUnclean.setFld F.RT_STEP_STATUS_UNCLEAN r 0 1

/-- The physical path that serves a segment (R201). -/
def State.pathOf (s : State) (r seg : Nat) : Nat :=
  if s.fld F.RT_PCMAP_SPARE1_FOR r 0 = seg then 33 else if s.fld F.RT_PCMAP_SPARE0_FOR r 0 = seg then 32 else seg

/-- The segment that a physical path serves; none for a spare that serves none. -/
def State.segOf (s : State) (r path : Nat) : Option Nat :=
  let sp (v : Nat) : Option Nat := if v < 32 then some v else none
  if path = 32 then sp (s.fld F.RT_PCMAP_SPARE0_FOR r 0)
  else if path = 33 then sp (s.fld F.RT_PCMAP_SPARE1_FOR r 0)
  else if path < 32 ∧ s.pathOf r path = path then some path else none

/-- Record an error of a stack (Table 7.14): PATH_FAIL is of class unit-fatal (Table 10.5). -/
def State.dramErr (s : State) (r code path addr : Nat) : State :=
  s.capture F.RT_DRAM_ERR_VALID F.RT_DRAM_ERR_MORE r
    [(F.RT_DRAM_ERR_CODE, code), (F.RT_DRAM_ERR_PATH, path), (F.RT_DRAM_ERR_BEAT, s.beat),
     (F.RT_DRAM_ERR_ADDR_ADDR, addr)]
    { s.errNote 7 code 0 r addr with cls := if code = 1 then 1 else if code = 3 then 2 else 0 }

/-- The 8-byte words that `n` bytes from `a` touch. -/
def wordsOf (a n : Nat) : List Nat := if n = 0 then [] else (upFrom (a / 8) ((a + n - 1) / 8 - a / 8 + 1)).map (8 * ·)

/-- What the check bits of the word at `a` say: 0 good, 1 correctable, 2 uncorrectable. -/
def State.dramCheck (s : State) (a : Nat) : Nat := s.dramBad.read 0 (dramKey s.dramMode a / 8)
def State.setDramCheck (s : State) (a v : Nat) : State :=
  { s with dramBad := s.dramBad.write 0 (dramKey s.dramMode a / 8) v }

/-- A word that SECDED corrected goes to the Crown's log (Table 10.5). The spec gives its record no CODE: a free value
(log entry 7). -/
def State.corrected (s : State) (r info : Nat) : State :=
  let (c, s) := s.draw
  s.note { s.errNote 7 (c % 256) 0 r info with cls := 0 }

/-- Meet one word (R206): a correctable error is corrected, written back and counted; an uncorrectable one is
recorded under `code`, with the step unclean unless a scrub found it. -/
def State.meetWord (s : State) (code a : Nat) : State :=
  let (r, seg, _, _) := dramLoc s.dramMode a
  match s.dramCheck a with
  | 0 => s
  | 1 => ((s.setDramCheck a 0).satFld F.RT_DRAM_CE_COUNT_COUNT r 0 1).corrected r a
  | _ =>
    let s := s.dramErr r code (s.pathOf r seg) a
    if code = 1 then s.rtUnclean r else s

/-- Set bit `b` of a mask field. -/
def State.setBit (s : State) (f : RegField) (i j b : Nat) : State :=
  if bit (s.fld f i j) b then s else s.addFld f i j (2 ^ b)

/-- A path is marked failed (R202); its record has no address: 0 (log entry 143). -/
def State.pathFail (s : State) (r path : Nat) : State :=
  if bit (s.fld F.RT_PC_HEALTH_FAILED r 0) path then s
  else (s.setBit F.RT_PC_HEALTH_FAILED r 0 path).dramErr r 3 path 0

/-- One transfer on the path that serves the line at `a` (R202): a try that fails the CRC is repeated up to 4 times, each
retry is logged, and the eighth transfer in succession that failed the CRC marks the path failed. Answers whether a try
passed; a transfer that fails every retry is an uncorrectable error recorded under `code` (R206), with the first address that the
access has in the line (log entry 143). -/
def State.transfer (s : State) (code a : Nat) : Bool × State :=
  let (r, seg, _, _) := dramLoc s.dramMode a
  let path := s.pathOf r seg
  let q := s.root r
  let k := q.crcBad.read 0 path
  if k = 0 then
    (true, if q.crcRun.read 0 path = 0 then s else s.setRoot r { q with crcRun := q.crcRun.write 0 path 0 })
  else
    let run := q.crcRun.read 0 path + 1
    let s := s.setRoot r { q with
      crcBad := q.crcBad.write 0 path (k - 5), crcRun := q.crcRun.write 0 path run, retry := q.retry.write 0 path 0 }
    let s := (List.replicate (min k 4) a).foldl (fun s a => s.corrected r a) s
    let s := if run ≥ 8 then s.pathFail r path else s
    if k < 5 then (true, s)
    else
      let s := s.dramErr r code path a
      (false, if code = 1 then s.rtUnclean r else s)

/-- The first address of each 256-byte line that `n` bytes from `a` touch. -/
def dramLines (a n : Nat) : List Nat :=
  if n = 0 then [] else (upFrom (a / 256) ((a + n - 1) / 256 - a / 256 + 1)).map (fun l => max a (256 * l))

/-- The Regulator counts the traffic of a stack; 1,200 fc are 600 delivered tile cycles (R396). -/
def State.countTraffic (s : State) (stack n : Nat) : State :=
  { s with reg := { s.reg with
    traffic := (s.esc.tc, stack, n) :: s.reg.traffic.filter (fun e => decide (s.esc.tc < e.1 + 600)) } }

/-- The transfers of an access to `n` bytes from `a`, one a line, with their traffic; whether every one passed. -/
def State.transfers (s : State) (code a n : Nat) : Bool × State :=
  (dramLines a n).foldl (fun x l =>
    let (ok, s) := (x.2.countTraffic (s.stackOf l) (min (256 * (l / 256) + 256) (a + n) - l)).transfer code l
    (x.1 && ok, s)) (true, s)

/-- A read of `n` bytes from DRAM address `a`: the bytes, whether a word is uncorrectable, and the records. -/
def State.dramRead (s : State) (a n : Nat) : List Byte × Bool × State :=
  let (ok, s) := s.transfers 1 a n
  let ws := wordsOf a n
  let bad := !ok || ws.any (fun w => s.dramCheck w ≥ 2)
  let s' := ws.foldl (fun s w => s.meetWord 1 w) s
  (if bad then zeros n else s.dramBytes a n, bad, s')

/-- A write to DRAM (R206): words covered whole are replaced; a partly covered uncorrectable word makes the write
be discarded, and so does a transfer that fails every retry. Answers whether it was applied. -/
def State.dramWrite (s : State) (a : Nat) (d : List Byte) : Bool × State :=
  let (ok, s) := s.transfers 1 a d.length
  let whole (w : Nat) : Bool := decide (a ≤ w) && decide (w + 8 ≤ a + d.length)
  let ws := wordsOf a d.length
  let part := ws.filter (fun w => !whole w)
  let s1 := part.foldl (fun s w => s.meetWord 1 w) s
  if !ok || part.any (fun w => s.dramCheck w ≥ 2) then (false, s1)
  else (true, ((ws.filter whole).foldl (fun s w => s.setDramCheck w 0) s1).dramPut a d)

/-- Tile-clock edges of a retry: 40 root core cycles (log entry 135). -/
def retryEdges : Nat := 20

/-- The path that serves the line at `a` is not free: a refresh occupies it or begins after the access in progress (R208, R209), or
the retries of a transfer that fails its CRC are not over (R202). -/
def State.pathBusy (s : State) (a : Nat) : Bool :=
  let (r, seg, _, _) := dramLoc s.dramMode a
  let q := s.root r
  let p := s.pathOf r seg
  decide (s.rc < q.refEnd.read 0 p) || (q.forced.contains p && q.retry.read 0 p == 0)
    || (q.crcBad.read 0 p != 0 && (q.retry.read 0 p == 0 || decide (s.edge < q.retry.read 0 p)))

/-- Two runs of bytes touch one 256-byte line. -/
def sameLine (a n b m : Nat) : Bool := (dramLines a n).any (fun x => (dramLines b m).any (fun y => x / 256 == y / 256))

/-- An access to `n` bytes from `a` waits: for the path of a line, or for an earlier access to the line that waits (R204, R208). -/
def State.lineHeld (s : State) (a n : Nat) : Bool :=
  (dramLines a n).any s.pathBusy || s.roots.any (fun e => e.2.reqs.any (fun q => sameLine a n q.addr q.len))

/-- Retries of `m` transfers on a path whose next `k` tries fail: up to 4 of each (R202). -/
def retryTries (k m : Nat) : Nat := if 5 * m ≤ k then 4 * m else k / 5 * 4 + k % 5

/-- The transfer of an access that waits meets its failing tries: up to 4 retries begin, each of 40 root core cycles (R202). An
operation on several lines has one transfer on the path for each that the path serves, `m ()` in all. -/
def State.startRetryOf (s : State) (m : Unit → Nat) (a : Nat) : State :=
  let (r, seg, _, _) := dramLoc s.dramMode a
  let q := s.root r
  let p := s.pathOf r seg
  if q.crcBad.read 0 p ≠ 0 ∧ q.retry.read 0 p = 0 ∧ q.refEnd.read 0 p ≤ s.rc ∧ !q.forced.contains p then
    s.setRoot r { q with retry := q.retry.write 0 p (s.edge + retryEdges * retryTries (q.crcBad.read 0 p) (m ())) }
  else s
def State.startRetry (s : State) (a : Nat) : State := s.startRetryOf (fun _ => 1) a
def State.startRetries (s : State) (a n : Nat) : State := (dramLines a n).foldl (fun s l => s.startRetry l) s

/-- No path has a refresh, a retry or an access that waits. -/
def State.dramIdle (s : State) : Bool :=
  s.roots.all (fun e => e.2.reqs.isEmpty && e.2.crcBad.isEmpty && e.2.forced.isEmpty && e.2.refEnd.all (fun p => decide (p.2 ≤ s.rc)))

/-- An operation on whole ranges, each an address and a length, waits for their lines as an access does (R202, R204, R208). -/
def State.rangesHeld (s : State) (l : List (Nat × Nat)) : Bool := !s.dramIdle && l.any (fun p => s.lineHeld p.1 p.2)

/-- The lines that the path of the line at `a` serves. -/
def State.onPath (s : State) (a : Nat) (ls : List Nat) : Nat :=
  let at' (x : Nat) : Nat × Nat := let (r, seg, _, _) := dramLoc s.dramMode x; (r, s.pathOf r seg)
  (ls.filter (fun x => at' x == at' a)).length

/-- The retries of an operation on whole ranges begin. -/
def State.startRanges (s : State) (l : List (Nat × Nat)) : State :=
  if s.dramIdle then s
  else let ls := l.flatMap (fun p => dramLines p.1 p.2); ls.foldl (fun s a => s.startRetryOf (fun _ => s.onPath a ls) a) s

/-- An access enters the request queue of root die `r` and waits there (R204). -/
def State.reqDram (s : State) (r : Nat) (q : DramReq) : State :=
  (s.updRoot r (fun x => { x with reqs := x.reqs ++ [q] })).startRetries q.addr q.len

/-! ## The accumulation store (R211 to R214) -/

/-- Records of a root die. -/
def storeRecords : Nat := 4194304

/-- The physical line, 0 to 8,207, of line `l` of slice `p` (R214). -/
def State.storeLine (s : State) (r p l : Nat) : Nat :=
  match ((upFrom 0 16).filter (fun k => s.fld F.RT_STOREMAP_VALID r (16 * p + k) == 1
      && s.fld F.RT_STOREMAP_LINE r (16 * p + k) == l)).getLast? with
  | some k => 8192 + k
  | none => l

/-- Physical place of record `x` of root die `r` (R212). -/
def State.recKey (s : State) (r x : Nat) : Nat :=
  let line := x / 16
  ((line % 32) * 8208 + s.storeLine r (line % 32) (line / 32)) * 16 + x % 16

/-- Record `x` as it stands. -/
def State.record (s : State) (r x : Nat) : BitVec 128 := (s.root r).store.read 0 (s.recKey r x)
def State.setRecord (s : State) (r x : Nat) (v : BitVec 128) : State :=
  s.updRoot r (fun q => { q with store := q.store.write 0 (s.recKey r x) v })

/-- Check state of half `h` of record `x`. -/
def State.recCheck (s : State) (r x h : Nat) : Nat := (s.root r).storeBad.read 0 (2 * s.recKey r x + h)
def State.setRecCheck (s : State) (r x h v : Nat) : State :=
  s.updRoot r (fun q => { q with storeBad := q.storeBad.write 0 (2 * s.recKey r x + h) v })

/-- VALUE and FLAGS of a record (Table 7.2). -/
def recValue (v : BitVec 128) : Int := (v.extractLsb' 0 96).toInt
def recFlags (v : BitVec 128) : Nat := (v.extractLsb' 96 8).toNat
/-- A record of a value, modulo 2^96, and flags. -/
def mkRecord (v : Int) (fl : Nat) : BitVec 128 := BitVec.ofNat 128 (wrap 96 v + fl % 256 * 2 ^ 96)

/-- A record's 16 bytes. -/
def State.recBytes (s : State) (r x : Nat) : List Byte := toBytes (s.record r x).toNat 16
/-- Bytes of the store of root die `r` from offset `o`. -/
def State.storeBytes (s : State) (r o n : Nat) : List Byte :=
  (((upFrom (o / 16) ((o + n + 15) / 16 - o / 16)).flatMap (s.recBytes r)).drop (o % 16)).take n

/-- Halves of records that `n` bytes from offset `o` touch. -/
def halvesOf (o n : Nat) : List (Nat × Nat) := (wordsOf o n).map (fun w => (w / 16, w % 16 / 8))

/-- A correctable word of the store is corrected, written back and counted (R214). -/
def State.fixHalf (s : State) (r x h : Nat) : State :=
  if s.recCheck r x h = 1 then
    ((s.setRecCheck r x h 0).satFld F.RT_ACC_CE_COUNT_COUNT r 0 1).corrected r (storeBase + r * 0x4000000 + x * 16 + 8 * h)
  else s

/-- A read of the store: bytes and whether a word is uncorrectable; its bytes then read as zero. -/
def State.storeRead (s : State) (r o n : Nat) : List Byte × Bool × State :=
  let hs := halvesOf o n
  let bad := hs.any (fun p => s.recCheck r p.1 p.2 ≥ 2)
  (if bad then zeros n else s.storeBytes r o n, bad, hs.foldl (fun s p => s.fixHalf r p.1 p.2) s)

/-- Put one byte of the store. -/
def State.putStoreByte (s : State) (r o : Nat) (b : Byte) : State :=
  let v := (s.record r (o / 16)).toNat
  let sh := 8 * (o % 16)
  s.setRecord r (o / 16) (BitVec.ofNat 128 (v - bits v (sh + 7) sh * 2 ^ sh + b.toNat * 2 ^ sh))

/-- A write to the store: words covered whole are good again. -/
def State.storePut (s : State) (r o : Nat) (d : List Byte) : State :=
  let s1 := (halvesOf o d.length).foldl (fun s p =>
    if o ≤ p.1 * 16 + p.2 * 8 ∧ p.1 * 16 + p.2 * 8 + 8 ≤ o + d.length then s.setRecCheck r p.1 p.2 0
    else s.fixHalf r p.1 p.2) s
  ((upFrom o d.length).zip d).foldl (fun s p => s.putStoreByte r p.1 p.2) s1

/-! ## The control line (R240) -/

/-- First record of the control line. -/
def ctlRecord : Nat := 4194288

/-- Word `w` of the control line, 0 to 31. -/
def State.ctl (s : State) (r w : Nat) : Nat :=
  bits (s.record r (ctlRecord + w / 2)).toNat (w % 2 * 64 + 63) (w % 2 * 64)

def State.setCtl (s : State) (r w v : Nat) : State :=
  s.storePut r (ctlRecord * 16 + 8 * w) (toBytes v 8)

/-- STATE code (Table 8.1). -/
def RveState.code : RveState → Nat
  | .reset => 0 | .run => 1 | .endWait => 2 | .parked => 3 | .permute => 4

/-- The root die's update of word 0. -/
def State.syncCtl (s : State) (r : Nat) : State :=
  let v := s.rve r
  s.setCtl r 0 (v.st.code + v.cur % 2 * 8 + b2n v.skip * 16 + v.pc % 32768 * 65536)

/-- Change the RVE and update word 0. -/
def State.setRve (s : State) (r : Nat) (f : Rve → Rve) : State := (s.updRve r f).syncCtl r

/-- The root die updates word 5 or word 12 from its own copy, which replaces whatever stands there (R240). -/
def State.setMism (s : State) (r v : Nat) : State := (s.updRve r (fun x => { x with mismBits := v })).setCtl r 5 v
def State.setPerm (s : State) (r v : Nat) : State := (s.updRve r (fun x => { x with perm := v })).setCtl r 12 v
/-- PERM_FAULT. -/
def State.permFault (s : State) (r : Nat) : State := s.setPerm r ((s.rve r).perm ||| 2 ^ 17)

end Sys2Proof.Machine
end

