-- ==== Sys2Proof/Machine/Route.lean ====
section
/-! DEFINITION. Device numbers and routing over the torus (R276 to R280, R284): which link a packet leaves by, what
becomes of one that has no route, and the queues of a link's streams. -/

namespace Sys2Proof.Machine

/-- Sizes S0 to S4 (Table 9.17). -/
def sizeFields : List RegField :=
  [F.LK_DIMSIZE_S0, F.LK_DIMSIZE_S1, F.LK_DIMSIZE_S2, F.LK_DIMSIZE_S3, F.LK_DIMSIZE_S4]

def State.ndim (s : State) : Nat := s.fld F.LK_TOPO_NDIM 0 0
def State.dimSize (s : State) (k : Nat) : Nat :=
  match sizeFields[k]? with
  | some f => s.fld f 0 0
  | none => 1

/-- Product of the sizes below dimension `k`. -/
def State.radix (s : State) (k : Nat) : Nat := (upFrom 0 k).foldl (fun a j => a * s.dimSize j) 1
/-- Coordinate `k` of a physical number (R276). -/
def State.coord (s : State) (p k : Nat) : Nat := p / s.radix k % s.dimSize k

/-- PHYS of the valid alias entry naming `d`, else `d` (R278). -/
def State.alias' (s : State) (d : Nat) : Nat :=
  match (upFrom 0 64).find? (fun i => s.fld F.LK_ALIAS_VALID 0 i == 1 && s.fld F.LK_ALIAS_LOGICAL 0 i == d) with
  | some i => s.fld F.LK_ALIAS_PHYS 0 i
  | none => d

/-- Link states (Table 9.6). -/
def lkOff : Nat := 0
def lkTraining : Nat := 1
def lkUp : Nat := 2
def lkRetrain : Nat := 3
def lkDown : Nat := 4

def State.linkState (s : State) (n : Nat) : Nat := s.fld F.LK_STATUS_STATE n 0

/-- The links of group (k, dir) in ascending number: enabled and not DOWN (R277). -/
def State.members (s : State) (k dir : Nat) : List Nat :=
  (upFrom 0 24).filter (fun n => s.fld F.LK_CFG_EN n 0 == 1 && s.linkState n != lkDown
    && s.fld F.LK_CFG_DIM n 0 == k && s.fld F.LK_CFG_DIRN n 0 == dir)

/-- What routing answers (R278). -/
inductive Hop where
  | deliver
  | noRoute
  | misroute
  /-- Link, dimension, and whether the hop crosses the wrap edge (R275). -/
  | out (n k : Nat) (wrap : Bool)
  deriving DecidableEq, Repr

/-- The first dimension from `k` in which coordinates differ, and the link chosen there. -/
def State.routeDim (s : State) (dest d p : Nat) : Nat → Nat → Hop
  | _, 0 => .misroute
  | k, fuel + 1 =>
    let me := s.fld F.LK_TOPO_PHYS 0 0
    let c := s.coord me k
    let t := s.coord p k
    let n := s.dimSize k
    if c = t then State.routeDim s dest d p (k + 1) fuel
    else
      let fwd := (t + n - c) % n
      let dir := if 2 * fwd ≤ n then 0 else 1
      let ms := s.members k dir
      match ms[(bits dest 23 8 ^^^ d) % ms.length]? with
      | some l => .out l k (if dir = 0 then c + 1 == n else c == 0)
      | none => .noRoute

/-- Route a packet by its DEST (R276, R278). -/
def State.route (s : State) (dest : Nat) : Hop :=
  let d := bits dest 62 48
  if d = s.self then .deliver
  else if s.ndim = 0 then .noRoute
  else s.routeDim dest d (s.alias' d) 0 s.ndim

/-- Record an error of a link (Table 9.15); `cls` 0 is recorded only, 1 marks the step unclean. -/
def State.lkErr (s : State) (n code cls : Nat) (p : Option Packet) : State :=
  let s := if cls = 0 then s else s.markUnclean
  let f (g : Packet → Nat) : Nat := match p with
    | some p => g p
    | none => 0
  s.capture F.LK_ERR_VALID F.LK_ERR_MORE n
    [(F.LK_ERR_CODE, code), (F.LK_ERR_KIND, f Packet.kind), (F.LK_ERR_SRC_UNIT, f Packet.srcUnit),
     (F.LK_ERR_SRC_DEV, f Packet.srcDev), (F.LK_ERR_WHEN_BEAT, s.beat)]
    { s.errNote 8 code (unitId 5 n) n (f Packet.dest) with cls := cls }

/-- Bytes of a packet's flits: header, then payload padded to whole flits. -/
def packetBytes (p : Packet) : List Byte :=
  toBytes p.hdr.toNat 32 ++ p.payload ++ zeros ((p.flits - 1) * 32 - p.payload.length)

/-- Queue a packet on a link in its stream (Table 9.4). -/
def State.linkPut (s : State) (n cls : Nat) (src : Option Arrival) (p : Packet) : State :=
  let st := p.vc * 2 + cls
  s.updLink n (fun x => { x with txq := x.txq.write [] st (x.txq.read [] st ++ [⟨p, packetBytes p, src⟩]) })

/-- The kinds that are answered with an ACK of STATUS FAULT when they are dropped (R280, R284). -/
def faultAnswered (kind : Nat) : Bool := kind == 1 || kind == 2 || kind == 6

/-- Answer the source of a packet that is dropped at link `here`, by its kind (R280, R284). -/
def State.answerDrop (s : State) (here : Nat) (p : Packet) : State :=
  if faultAnswered p.kind then s.send 6 (here / 6) (ackOf p s.self 1) else s

/-- A packet leaves the receive buffer of the link and stream it arrived on; one of an earlier session has none (R274). -/
def State.freeRx (s : State) (src : Option Arrival) (p : Packet) : State :=
  match src with
  | none => s
  | some a =>
    if (s.link a.link).session ≠ a.session then s
    else s.updLink a.link (fun x =>
      { x with rxFreed := x.rxFreed.write 0 a.stream ((x.rxFreed.read 0 a.stream + p.flits) % 4096) })

/-- A transit packet enters the ring at ring die `g` on its way to a link of another ring die (R281). -/
def State.ringPut (s : State) (g : Nat) (src : Option Arrival) (last : Option (Nat × Nat)) (p : Packet) : State :=
  { s with net := s.net ++ [⟨p, [(⟨12, g⟩, p.flits)], 0, [], some ⟨src, last⟩⟩] }

/-- Route a packet whose errors are recorded in link `here`; `src`: the receive buffer that it leaves; `last`: dimension and
class of its last hop, or of the hop it was to take (R275); `at'`: the ring die where it stands, none where it stands at the
link's. A link of another ring die is reached over ring segments (R281). One without a route is dropped, recorded and answered
(R280). -/
def State.routeFrom (s : State) (here : Nat) (src : Option Arrival) (last : Option (Nat × Nat)) (at' : Option Nat) (p : Packet) :
    State :=
  match s.route p.dest with
  | .deliver => (s.freeRx src p).send 6 (here / 6) p
  | .noRoute => ((s.freeRx src p).lkErr here 5 1 (some p)).answerDrop here p
  | .misroute => ((s.freeRx src p).lkErr here 6 1 (some p)).answerDrop here p
  | .out n k wrap =>
    let stay := match last with
      | some (j, c) => c == 1 && j == k
      | none => false
    if at'.any (fun g => g != n / 6) then s.ringPut (at'.getD 0) src last p
    else s.linkPut n (b2n (wrap || stay)) src p

/-- The link that records the errors of a packet: that of its arrival, or link 0 (R280). -/
def errLink (src : Option Arrival) : Nat := (src.map (·.link)).getD 0

/-- Put a packet on its way off this device. -/
def State.routeOut (s : State) (src : Option Arrival) (p : Packet) : State :=
  s.routeFrom (errLink src) src (src.map (fun a => (s.fld F.LK_CFG_DIM a.link 0, a.stream % 2)))
    (src.map (fun a => a.link / 6)) p

end Sys2Proof.Machine
end

