-- ==== Sys2Proof/Machine/LinkState.lean ====
section
/-! DEFINITION. The states of a link (R282 to R286): training, retraining, going off and going down, and what becomes
of the packets that wait for it or are in doubt. -/

namespace Sys2Proof.Machine

def State.setLinkState (s : State) (n v : Nat) : State := s.setFld F.LK_STATUS_STATE n 0 v

/-- No byte of the packet has entered a DATA flit. -/
def TxPkt.whole (x : TxPkt) : Bool := x.left.length == (packetBytes x.pkt).length

/-- Queued packets of a link with their stream. -/
def Link.queued (x : Link) : List (Nat × TxPkt) := x.txq.flatMap (fun e => e.2.map (fun t => (e.1, t)))

/-- A packet in doubt: how it arrived, and the stream it was leaving on. -/
structure Doubt where
  pkt    : Packet
  src    : Option Arrival
  stream : Nat
  deriving DecidableEq, Repr

/-- Packets of the DATA flits that no ACK covers: the first of a flit that continues one of its stream before it counts once. -/
def unacked : List Nat → List HeldFlit → List Doubt
  | _, [] => []
  | seen, h :: hs =>
    (if h.cont && seen.contains h.stream then h.pkts.drop 1 else h.pkts).map (fun p => ⟨p.1, p.2, h.stream⟩)
      ++ unacked (h.stream :: seen) hs

/-- Packets with a flit in a DATA flit that no ACK covers, or that have only partly left (R284): of a stream with such a flit the last
packet of its last flit is the one that has partly left. -/
def Link.inDoubt (x : Link) : List Doubt :=
  unacked [] x.replay ++ (x.queued.filter (fun e => !e.2.whole && x.replay.all (fun h => h.stream != e.1))).map
    (fun e => ⟨e.2.pkt, e.2.src, e.1⟩)

/-- One in-doubt packet of link `n` of dimension `k`, dealt with by its kind (R284): one that is sent again keeps its class in
its dimension (R275), and an error of it is recorded where it arrived (R280). -/
def State.doubt (s : State) (n k : Nat) (d : Doubt) : State :=
  let p := d.pkt
  if p.kind = 3 ∨ p.kind = 4 ∨ p.kind = 7 ∨ p.kind = 9 then
    s.routeFrom (errLink d.src) none (some (k, d.stream % 2)) (some (n / 6)) p
  else s.answerDrop (errLink d.src) p

/-- Empty a link that left its group: packets that have not begun to leave are routed again, the others are in doubt.
`rec`: record each as IN_DOUBT. -/
def State.dropLink (s : State) (n : Nat) (rec : Bool) : State :=
  let x := s.link n
  let k := s.fld F.LK_CFG_DIM n 0
  let s := s.setLink n { Link.fresh with mapNew := x.mapNew, txMap := x.txMap, session := x.session + 1 }
  let s := (x.queued.filter (fun e => e.2.whole)).foldl (fun s e =>
    s.routeFrom (errLink e.2.src) e.2.src (some (k, e.1 % 2)) (some (n / 6)) e.2.pkt) s
  let s := (x.queued.filter (fun e => !e.2.whole)).foldl (fun s e => s.freeRx e.2.src e.2.pkt) s
  x.inDoubt.foldl (fun s d => (if rec then s.lkErr n 4 1 (some d.pkt) else s).doubt n k d) s

/-- DOWN (R284) with its cause. -/
def State.linkDown (s : State) (n cause : Nat) : State :=
  let s := (s.setLinkState n lkDown).setFld F.LK_STATUS_DOWN_CAUSE n 0 cause
  let s := if cause = 3 then s.lkErr n 7 1 none else s
  (s.lkErr n 3 1 none).dropLink n true

/-- OFF: EN taken from 1 to 0 (R282). -/
def State.linkOff (s : State) (n : Nat) : State := (s.setLinkState n lkOff).dropLink n false

/-- TRAINING: EN taken from 0 to 1 (R282). -/
def State.linkTrain (s : State) (n : Nat) : State :=
  (s.setLinkState n lkTraining).setFld F.LK_STATUS_DOWN_CAUSE n 0 0

/-- RETRAIN, entered by a commit or not (R273, R282). -/
def State.linkRetrain (s : State) (n : Nat) (byCommit : Bool) : State :=
  let s := ((s.setLinkState n lkRetrain).addFld F.LK_STATUS_RETRAINS n 0 1).updLink n (fun x =>
    { x with attempts := 0, encBits := 0, encLen := 0 })
  if byCommit then s else s.lkErr n 2 0 none

end Sys2Proof.Machine
end

