-- ==== Sys2Proof/Machine/Commit.lean ====
section
/-! DEFINITION. Staging writes and commits (R31 to R37): requests, refusals, ABORT, and what a commit that applies
does to the units whose fields it sets (R41, R101, R118, R123, R214, R282, R311, R320, R329). -/

namespace Sys2Proof.Machine

/-! ## Requests -/

/-- The live-view address that a live or staging address names (R28). -/
def liveAddr (a : Nat) : Nat := if liveBase + stagingOff ≤ a then a - stagingOff else a

/-- STAGING_WRITE (R31, R32): a write of RWS fields at their live or staging address. -/
def State.stagingWrite (s : State) (a : Nat) (v : W64) : Option State :=
  (s.regAt (liveAddr a)).map (fun x => s.stageWord x v.toNat)

/-- A write of the Crown to a hole (R23): it is discarded and marks the step unclean. The Crown's error capture is its log
(R317); the spec gives the record no BLOCK and no CODE: free values (log entry 7). -/
def State.holeWrite (s : State) (addr : Nat) : State :=
  let (b, s) := s.draw
  let (c, s) := s.draw
  (s.note (s.errNote (b % 256) (c % 256) (unitId 7 0) 0 addr)).markUnclean

def execStagingWrite (addr : Nat) (v : W64) (s : State) : Out := .next ((s.stagingWrite addr v).getD (s.holeWrite addr))

/-- A request that is refused: its code and tag. -/
def State.refuseCommit (s : State) (tag code : Nat) : State :=
  s.setFlds 0 0 [(F.ES_CFG_STATUS_CODE, code), (F.ES_CFG_STATUS_LAST_TAG, tag)]

/-- Request a commit with a target and a tag (R33, R34, R36, R37). DESIGN CHOICE (log entry 116): of several causes of refusal
the code is the first in the order STATE, RESERVED_VALUE of TARGET, BUSY, NO_BEAT, and then those of the checks. -/
def State.requestCommit (s : State) (tag target : Nat) : State :=
  if s.run = .faulted then s.refuseCommit tag 7
  else if target ≥ 2 then s.refuseCommit tag 4
  else if s.commit.isSome then s.refuseCommit tag 6
  else if target = 1 ∧ s.fld F.ES_BEAT_CFG_ROLE 0 0 = 0 then s.refuseCommit tag 8
  else
    match s.checkDirty target with
    | some (code, addr) => (s.refuseCommit tag code).setFld F.ES_CFG_FAULTADDR_ADDR 0 0 addr
    | none =>
      { s.setFld F.ES_CFG_STATUS_CODE 0 0 2 with
        commit := some { target := target, tag := tag, set := s.staged
                         reached := target == 1 && s.idleRun && decide (s.fld F.ES_COMMIT_BEAT_BEAT 0 0 ≤ s.beat) } }

/-- The TAG and TARGET fields of a write of ES_COMMIT_CTRL. -/
def State.commitFields (s : State) (v : W64) : State :=
  s.setFlds 0 0 [(F.ES_COMMIT_CTRL_TAG, wbits v 23 8), (F.ES_COMMIT_CTRL_TARGET, wbits v 3 2)]

/-- COMMIT_REQ: a write of ES_COMMIT_CTRL with REQ = 1. DESIGN CHOICE (log entry 116): a write refused because ABORT is 1 too
(R38) still stores its TAG and TARGET, and leaves its TAG in LAST_TAG. -/
def execCommitReq (v : W64) (s : State) : Out :=
  let s := s.commitFields v
  .next (if v.getLsbD 1 then s.refuseCommit (wbits v 23 8) 4 else s.requestCommit (wbits v 23 8) (wbits v 3 2))

/-- ABORT (R36): every staging copy returns to its live value; a WAITING commit is withdrawn. -/
def State.abortCommit (s : State) : State :=
  { s.setFld F.ES_CFG_STATUS_CODE 0 0 9 with staged := [], commit := none }

/-- COMMIT_ABORT: a write of ES_COMMIT_CTRL with ABORT = 1. -/
def execCommitAbort (v : W64) (s : State) : Out :=
  let s := s.commitFields v
  .next (if v.getLsbD 0 then s.refuseCommit (wbits v 23 8) 4 else s.abortCommit)

/-! ## Effects of the fields a commit sets -/

/-- The commit set holds the field. -/
def Commit.has (c : Commit) (f : RegField) (i j : Nat) : Bool := c.set.any (fun e => e.1 == f.key i j)

/-- The fields of a commit set. -/
def Commit.fields (c : Commit) : List (FieldAt × Nat) := c.set.filterMap (fun e => (keyField e.1).map (fun f => (f, e.2)))

/-- The commit set holds a field of this register. -/
def Commit.touches (c : Commit) (n : RegName) : Bool := c.fields.any (fun p => p.1.info.name == n)

/-- Instances of a register with a field in the commit set, with the index. -/
def Commit.at (c : Commit) (n : RegName) : List (Nat × Nat) :=
  (c.fields.filter (fun p => p.1.info.name == n)).map (fun p => (p.1.inst, p.1.idx)) |>.dedup

/-- Write the live copies. -/
def State.writeSet (s : State) (l : List (FieldAt × Nat)) : State :=
  l.foldl (fun s p => s.setFld p.1.fld p.1.inst p.1.idx p.2) s

/-- The bank row and spare that an entry of SP_ROWMAP makes valid, with the logical tile. -/
def State.newRowEntry (s : State) (x : FieldAt) (v : Nat) : Option (Nat × Nat × Nat × Nat) :=
  match s.tileAt x.inst, rowmapFields.findIdx? (fun g => decide (g = x.fld)) with
  | some t, some k => if bit v 15 && !bit (s.fld x.fld x.inst x.idx) 15 then some (t, x.idx, bits v 9 0, k) else none
  | _, _ => none

/-- SPARE_ROW_COPY (R123): the bytes and parity of the present physical row go to spare `k`, and the row's SP_ROWERR
entry is cleared. -/
def State.copyRow (s : State) (t b q k : Nat) : State :=
  let src := rowKey b (s.physRow t b q)
  let dst := rowKey b (1024 + k)
  let s := s.updTile t (fun x => (upFrom 0 32).foldl (fun y i =>
    { y with mem := y.mem.write 0 (dst + i) (x.mem.read 0 (src + i))
             badPar := y.badPar.write false (dst + i) (x.badPar.read false (src + i))
             old := y.old.write none (dst + i) (x.old.read none (src + i)) }) x)
  (upFrom 0 4).foldl (fun s i =>
    if s.fld F.SP_ROWERR_VALID t i = 1 ∧ s.fld F.SP_ROWERR_BANK t i = b ∧ s.fld F.SP_ROWERR_ROW t i = q then
      s.setFlds t i [(F.SP_ROWERR_VALID, 0), (F.SP_ROWERR_COUNT, 0)]
    else s) s

/-- The same for a spare line of the accumulation store (R214): slice and spare by the index of RT_STOREMAP. -/
def State.copyLine (s : State) (r j line : Nat) : State :=
  let p := j / 16
  let src := (p * 8208 + s.storeLine r p line) * 16
  let dst := (p * 8208 + 8192 + j % 16) * 16
  s.updRoot r (fun q => (upFrom 0 16).foldl (fun q i =>
    { q with store := q.store.write 0 (dst + i) (q.store.read 0 (src + i))
             storeBad := ((q.storeBad.write 0 (2 * (dst + i)) (q.storeBad.read 0 (2 * (src + i)))).write 0
               (2 * (dst + i) + 1) (q.storeBad.read 0 (2 * (src + i) + 1))) }) q)

/-- The root and line of an entry of RT_STOREMAP that becomes valid. -/
def State.newLineEntry (s : State) (c : Commit) (i j : Nat) : Option Nat :=
  let get (f : RegField) : Nat := c.set.read (s.fld f i j) (f.key i j)
  if s.fld F.RT_STOREMAP_VALID i j = 0 ∧ get F.RT_STOREMAP_VALID = 1 then some (get F.RT_STOREMAP_LINE) else none

/-- The boundary after which a core that enters WAITING within a segment begins (R100). -/
def State.nextBoundary (s : State) : Option Nat :=
  if s.esc.segOn then s.curClass.bind (fun c => c.bounds.findIdx? (fun b => decide (s.esc.next ≤ b))) else none

/-- A core in RESET or PARKED_ERR takes PC ← ENTRY and enters WAITING (R101). -/
def State.enterCore (s : State) (t : Nat) : State :=
  let q := s.tile t
  if q.core = .reset ∨ q.core = .parkedErr then
    s.setTile t { q with core := .waiting, pc := s.fld F.TL_ENTRY_ENTRY t 0, loop := none, loopRows := [], fetchRows := []
                         wait := none, bWord := none, startAt := s.nextBoundary }
  else s

/-- Wake the OFF banks whose mask bit is set (R118): every row, the spares included, is written zero. -/
def State.wakeBanks (s : State) (t : Nat) : State :=
  (upFrom 0 48).foldl (fun s b =>
    let q := s.tile t
    if bit (s.fld F.SP_BANKMASK_MASK t 0) b ∧ q.banks.read .on b = .off then
      s.setTile t { q with banks := q.banks.write .on b (.waking s.esc.tc) }
    else s) s

/-- Every field of a tile's TL_, SP_, MX_, XC_ and SY_ blocks that is not staged, and its counters, at reset. -/
def State.resetTileRegs (s : State) (t : Nat) : State :=
  let blocks : List Block := [.tl, .sp, .mx, .xt, .syt]
  let keep (k : Nat) : Bool :=
    !(blocks.any (fun b => decide ((b.base + t * b.stride) * 64 ≤ k) && decide (k < (b.base + t * b.stride + 0x2000) * 64))
      && (match keyField k with
        | some f => decide (f.fld.acc ≠ .rws)
        | none => true))
  { s with regs := s.regs.keep keep
           counters := s.counters.keep (fun k => !(decide (t * 64 ≤ k) && decide (k < t * 64 + 64))) }

/-- Logical tiles whose physical position differs between two states. -/
def movedTiles (s s' : State) : List Nat := (upFrom 0 1536).filter (fun t => decide (s.physOf t ≠ s'.physOf t))

/-- TILE_MOVE (R102, R311): tile `t` stands on another physical tile, which starts from reset with every RWS field of the
logical number applied, those of the commit set among them; a field written after the checks stays dirty (R36). -/
def State.moveTile (s : State) (t : Nat) : State :=
  let s := (s.setTile t Tile.fresh).resetTileRegs t
  let s := s.updTile t (fun q => { q with banks := (upFrom 0 48).foldl (fun m b =>
    if bit (s.fld F.SP_BANKMASK_MASK t 0) b then m else m.write .on b .off) q.banks })
  let s := if (s.physOf t).isSome then s.enterCore t else s
  { s with waiters := s.waiters.filter (fun w => w.unit != t)
           esc := { s.esc with moved := if s.run = .running ∨ s.run = .held then s.esc.moved ++ [t] else s.esc.moved } }

/-- A link's EN or lane map as the commit changed it (R282). -/
def State.linkCommit (s : State) (old : State) (n : Nat) : State :=
  let map := s.fld F.LK_LANEMAP_SPARE_FOR n 0
  let moved := decide (map ≠ old.fld F.LK_LANEMAP_SPARE_FOR n 0)
  let other := decide (map ≠ s.fld F.LK_STATUS_SPARE_IN_USE n 0)
  let s := if moved then s.updLink n (fun x => { x with mapNew := other }) else s
  match old.fld F.LK_CFG_EN n 0, s.fld F.LK_CFG_EN n 0 with
  | 0, 1 => s.linkTrain n
  | 1, 0 => s.linkOff n
  | _, _ => if s.linkState n = lkUp ∧ moved ∧ other then s.linkRetrain n true else s

/-- Beat registers that a commit sets (R40, R41, R44, R320, R374). DESIGN CHOICE (log entry 146): before an edge has been accepted
REF_TIMEOUT runs from the commit of ES_BEAT_CFG or ES_REF_CFG. -/
def State.beatCommit (s : State) (c : Commit) : State :=
  let s := if c.touches .ES_BEAT_CFG then
      { s with bt := { s.bt with heard := [], held := none, mute := false, refFrom := s.rc } }
    else s
  let s := if c.touches .ES_REF_CFG then { s with bt := { s.bt with held := none, refFrom := s.rc } } else s
  let s := if c.touches .ES_BEAT_CFG || c.touches .ES_BEAT_INIT then
      ({ s with bt := { s.bt with domReady := none, noHoldLow := false }, esc := { s.esc with lastEnd := none } }).setFld F.ES_BEAT_NUM_BEAT 0 0 (s.fld F.ES_BEAT_INIT_INIT 0 0)
    else s
  if c.touches .ES_STEP_BASE then s.setFld F.ES_STEP_NUM_STEP 0 0 (s.fld F.ES_STEP_BASE_BASE 0 0) else s

/-- The root die's update of MISMATCH at a commit (Table 8.1). DESIGN CHOICE (log entry 147): a commit that clears the word also
restarts the count of mismatches that convicts a group (R249), which the spec does not say. -/
def State.clearMismatch (s : State) : State :=
  (upFrom 0 8).foldl (fun s r =>
    let s := if s.ctl r 5 = 0 ∧ (s.rve r).mismBits = 0 then s else s.setMism r 0
    if (s.rve r).mism = [] then s else s.updRve r (fun v => { v with mism := [] })) s

/-- A commit applies (R35): every live copy of its set at once, and what follows from each. -/
def State.applyCommit (s : State) : State :=
  match s.commit with
  | none => s
  | some c =>
    let old := s
    let s := c.fields.foldl (fun s p => match old.newRowEntry p.1 p.2 with
      | some (t, b, q, k) => s.copyRow t b q k
      | none => s) s
    let s := (c.at .RT_STOREMAP).foldl (fun s p => match old.newLineEntry c p.1 p.2 with
      | some l => s.copyLine p.1 p.2 l
      | none => s) s
    let s := s.writeSet c.fields
    let moved := if c.touches .XC_ROWMAP then movedTiles old s else []
    let s := moved.foldl (fun s t => s.moveTile t) s
    let s := { s with staged := s.staged.filter (fun e => !c.set.contains e), commit := none }
    let s := (c.at .TL_ENTRY).foldl (fun s p => if (s.physOf p.1).isSome then s.enterCore p.1 else s) s
    let s := (c.at .SP_BANKMASK).foldl (fun s p => s.wakeBanks p.1) s
    let s := s.beatCommit c
    let s := (upFrom 0 24).foldl (fun s n => s.linkCommit old n) s
    let s := if mapRegs.any c.touches then s.capUpdate else s
    (s.clearMismatch.setFlds 0 0 [(F.ES_CFG_STATUS_CODE, 1), (F.ES_CFG_STATUS_LAST_TAG, c.tag)]).addFld
      F.ES_COMMIT_COUNT_COUNT 0 0 1

/-- A target-0 commit that the Crown requests, applied at once outside a run: the code it leaves (R33). The spec gives
its TAG no value: a free value (log entry 7). -/
def State.commitNow (s : State) : Nat × State :=
  let (g, s) := s.draw
  let s := s.requestCommit (g % 65536) 0
  let s := if s.fld F.ES_CFG_STATUS_CODE 0 0 = 2 ∧ s.idleRun then s.applyCommit else s
  (s.fld F.ES_CFG_STATUS_CODE 0 0, s)

/-- Stage one field (R31). -/
def State.stageFld (s : State) (f : RegField) (i j v : Nat) : State :=
  { s with staged := s.staged.put (f.key i j) (v % 2 ^ f.width) }

end Sys2Proof.Machine
end

