-- ==== Sys2Proof/Machine/Scalar.lean ====
section
/-! DEFINITION. Slot A control, scalar and control-register operations (R84 to R89, R97, Table 3.3). -/

namespace Sys2Proof.Machine

/-- Write a slot A result with its latency; the flow goes on. -/
def State.result (s : State) (t x rd : Nat) (v : W64) (lat : Nat) : State × Flow :=
  (s.updTile t (fun q => q.putA rd v (x + lat)), (s.tile t).fall x)

/-- A taken transfer (R84). -/
def State.jump (s : State) (_t x : Nat) (target : Int) : State × Flow :=
  (s, ⟨target, x + 1 + penalty s.profile, [], true⟩)

/-- ALU by FN (Table 3.3): shifts take RB[5:0] (R89). -/
def aluOp (fn : Nat) (a b : W64) : W64 :=
  let sh := b.toNat % 64
  match fn with
  | 0x0 => a + b
  | 0x1 => a - b
  | 0x2 => a &&& b
  | 0x3 => a ||| b
  | 0x4 => a ^^^ b
  | 0x5 => a <<< sh
  | 0x6 => a >>> sh
  | 0x7 => a.sshiftRight sh
  | 0x8 => if a.slt b then 1 else 0
  | 0x9 => if a.ult b then 1 else 0
  | 0xA => if b.slt a then b else a
  | 0xB => if a.slt b then b else a
  | 0xC => if b.ult a then b else a
  | _ => if a.ult b then b else a

/-- SHI by FN[10:9] (Table 3.3). -/
def shiOp (kind sh : Nat) (a : W64) : W64 :=
  match kind with
  | 0 => a <<< sh
  | 1 => a >>> sh
  | _ => a.sshiftRight sh

/-- MUL, MULH, MULHU (Table 3.3). -/
def mulOp (fn : Nat) (a b : W64) : W64 :=
  match fn with
  | 0 => a * b
  | 1 => BitVec.ofInt 64 (a.toInt * b.toInt / 2 ^ 64)
  | _ => BitVec.ofNat 64 (a.toNat * b.toNat / 2 ^ 64)

/-- DIV, DIVU, REM, REMU: toward zero, no error (R89). -/
def divOp (fn : Nat) (a b : W64) : W64 :=
  if b = 0 then (if fn < 2 then BitVec.allOnes 64 else a)
  else
    match fn with
    | 0 => BitVec.ofInt 64 (a.toInt.tdiv b.toInt)
    | 1 => a / b
    | 2 => BitVec.ofInt 64 (a.toInt.tmod b.toInt)
    | _ => a % b

/-- MOVK: bits [16Q + 15 : 16Q] replaced (Table 3.3). -/
def movkOp (q imm : Nat) (a : W64) : W64 :=
  (a &&& ~~~(BitVec.ofNat 64 (0xFFFF * 2 ^ (16 * q)))) ||| BitVec.ofNat 64 (imm * 2 ^ (16 * q))

/-- Immediates as 64-bit words. -/
def immW (x : Nat) : W64 := BitVec.ofInt 64 (immS x)
def immZ (x : Nat) : W64 := BitVec.ofNat 64 (fImm x)

/-- A slot A operation that writes RD from the tile's registers with a fixed latency. -/
def State.scalar (s : State) (t : Nat) (w : W64) (lat : Nat) (f : Tile → W64) : State :=
  s.issue t w (fun s x => s.result t x (fRd (slotA w)) (f (s.tile t)) lat)

def execNop (t : Nat) (w : W64) (s : State) : Out :=
  guardUnit (tileOk t) (s.issue t w (fun s x => (s, (s.tile t).fall x)))

def execBr (t : Nat) (w : W64) (s : State) : Out :=
  guardUnit (tileOk t) (s.issue t w (fun s x => s.jump t x ((s.tile t).pc + off26 (slotA w))))

def execBcc (t : Nat) (w : W64) (s : State) : Out :=
  let a := slotA w
  guardUnit (tileOk t) (s.issue t w (fun s x =>
    let q := s.tile t
    if condHolds (fCond a) (q.s (fRd a)) (q.s (fRa a)) then s.jump t x (q.pc + off13 a) else (s, q.fall x)))

def execJr (t : Nat) (w : W64) (s : State) : Out :=
  guardUnit (tileOk t) (s.issue t w (fun s x => s.jump t x (wbits ((s.tile t).s (fRa (slotA w))) 17 0 : Nat)))

/-- CALL writes the word address of the next word into s31 (R84). -/
def execCall (t : Nat) (w : W64) (s : State) : Out :=
  guardUnit (tileOk t) (s.issue t w (fun s x =>
    let pc := (s.tile t).pc
    (s.updTile t (fun q => q.putA 31 (BitVec.ofNat 64 (pc + 1)) (x + 1))).jump t x (pc + off26 (slotA w))))

/-- LOOP RA, LEN (R85). -/
def execLoop (t : Nat) (w : W64) (s : State) : Out :=
  let a := slotA w
  guardUnit (tileOk t) (s.issue t w (fun s x =>
    let q := s.tile t
    let n := wbits (q.s (fRd a)) 31 0
    if n = 0 then (s, { q.fall x with pc := (q.pc : Int) + 1 + fLen a })
    else (s.setTile t { q with loop := some ⟨q.pc + 1, fLen a, n - 1⟩, loopRows := [] }, q.fall x)))

/-- BOUND (R86): at or before the boundary's cycle the core waits for it, and its next word issues in the cycle after. -/
def execBound (t : Nat) (w : W64) (s : State) : Out :=
  guardUnit (tileOk t) (s.issue t w (fun s x =>
    let q := s.tile t
    let q1 := { q with sstep := (q.sstep + 1) % 65536 }
    match s.boundary q.sstep with
    | some b =>
      if s.cycleNow ≤ b then
        (s.setTile t { q1 with core := .boundWait }, { q.fall x with cyc := x + (b - s.cycleNow) + 1, jump := true })
      else (s.setTile t q1, { q.fall x with jump := true })
    | none => (s.setTile t q1, { q.fall x with jump := true })))

def execAlu (t : Nat) (w : W64) (s : State) : Out :=
  let a := slotA w
  guardUnit (tileOk t) (s.scalar t w 1 (fun q => aluOp (fFn a) (q.s (fRa a)) (q.s (fRb a))))

def execAddi (t : Nat) (w : W64) (s : State) : Out :=
  let a := slotA w
  guardUnit (tileOk t) (s.scalar t w 1 (fun q => q.s (fRa a) + immW a))

def execAndi (t : Nat) (w : W64) (s : State) : Out :=
  let a := slotA w
  guardUnit (tileOk t) (s.scalar t w 1 (fun q => q.s (fRa a) &&& immZ a))

def execOri (t : Nat) (w : W64) (s : State) : Out :=
  let a := slotA w
  guardUnit (tileOk t) (s.scalar t w 1 (fun q => q.s (fRa a) ||| immZ a))

def execXori (t : Nat) (w : W64) (s : State) : Out :=
  let a := slotA w
  guardUnit (tileOk t) (s.scalar t w 1 (fun q => q.s (fRa a) ^^^ immZ a))

def execShi (t : Nat) (w : W64) (s : State) : Out :=
  let a := slotA w
  guardUnit (tileOk t) (s.scalar t w 1 (fun q => shiOp (bits a 10 9) (bits a 5 0) (q.s (fRa a))))

def execMul (t : Nat) (w : W64) (s : State) : Out :=
  let a := slotA w
  guardUnit (tileOk t) (s.scalar t w 3 (fun q => mulOp (fFn a) (q.s (fRa a)) (q.s (fRb a))))

def execDiv (t : Nat) (w : W64) (s : State) : Out :=
  let a := slotA w
  guardUnit (tileOk t) (s.scalar t w 20 (fun q => divOp (fFn a) (q.s (fRa a)) (q.s (fRb a))))

def execSeti (t : Nat) (w : W64) (s : State) : Out :=
  guardUnit (tileOk t) (s.scalar t w 1 (fun _ => immW (slotA w)))

def execMovk (t : Nat) (w : W64) (s : State) : Out :=
  let a := slotA w
  guardUnit (tileOk t) (s.scalar t w 1 (fun q => movkOp (fQ a) (fImm a) (q.s (fRd a))))

/-- Live-view address of the TL_ register that CRR and CRW name (R97). -/
def crAddr (t a : Nat) : Nat := Block.tl.base + t * Block.tl.stride + 8 * bits a 9 0

/-- What CRR returns (R97): TL_PC is the address of the word, TL_CYCLE the issue cycle; a hole reads zero and is an
address fault (R23). -/
def State.crRead (s : State) (t addr : Nat) : W64 × List CoreErr :=
  match s.regAt addr with
  | some r =>
    match r.info.name with
    | .TL_PC => (BitVec.ofNat 64 (s.tile t).pc, [])
    | .TL_CYCLE => (BitVec.ofNat 64 s.cycleNow, [])
    | _ => (BitVec.ofNat 64 (s.liveWord r), [])
  | none => (0, [⟨0x06, 0, 0, addr⟩])

def execCrr (t : Nat) (w : W64) (s : State) : Out :=
  let a := slotA w
  guardUnit (tileOk t) (s.issue t w (fun s x =>
    let (v, errs) := s.crRead t (crAddr t a)
    let (s, f) := s.result t x (fRd a) v 2
    (s, { f with errs := errs.map (fun e => { e with word := a }) })))

/-- CRW writes RW, W1C and WO fields; anything else is an address fault and writes nothing (R97). -/
def execCrw (t : Nat) (w : W64) (s : State) : Out :=
  let a := slotA w
  guardUnit (tileOk t) (s.issue t w (fun s x =>
    let q := s.tile t
    match s.regAt (crAddr t a) with
    | some r =>
      if r.writable then (s.writeWord r (q.s (fRa a)).toNat, q.fall x)
      else (s, { q.fall x with errs := [⟨0x06, 0, a, crAddr t a⟩] })
    | none => (s, { q.fall x with errs := [⟨0x06, 0, a, crAddr t a⟩] })))

def execFqstat (t : Nat) (w : W64) (s : State) : Out :=
  guardUnit (tileOk t) (s.scalar t w 1 (fun q => BitVec.ofNat 64 (min q.fetch.queued 8)))

/-- The present cycle is a slot of the instruction read port (R105): the cycle after a taken transfer or after BOUND
completes, and then every fourth. -/
def State.portSlot (s : State) (t : Nat) : Bool :=
  let q := s.tile t
  s.ticking && decide (q.fetchAt ≤ s.esc.tc) && (s.esc.tc - q.fetchAt) % 4 == 0 && !q.did.contains 2

/-- INSTRUCTION_FETCH (R87, R105): in a slot of its own the instruction read port reads the row of the first word at or after
the PC that neither buffer holds, while the fetch buffer has room for it. A PC out of range, for the row of the PC a bank that is
not ON, and a parity error in the row read park the core (R99, R121). DESIGN CHOICE (log entry 114): the port does not read ahead
into a bank that is not ON, and of a row read ahead the word address recorded is its first. A row that the PC has passed stays in the fetch buffer until the port reads another row (DESIGN CHOICE of log entry 114). -/
def State.instrFetch (s : State) (t : Nat) : State :=
  let q := s.tile t
  if q.core ≠ .run ∨ !s.portSlot t then s
  else if q.pc ≥ 0x30000 then s.park t 0x12 q.pc s.cycleNow
  else
    let s := s.updTile t (fun q => { q with did := 2 :: q.did })
    match (upFrom (q.pc / 4) 5).find? (fun g => !q.fetchRows.contains g && !(q.loop.isSome && q.loopRows.contains g)) with
    | none => s
    | some g =>
      if g ≥ 49152 || (q.fetchRows.filter (fun r => decide (q.pc / 4 ≤ r))).length ≥ 4 then s
      else
        let (b, r) := s.bankOf t g
        let here := g == q.pc / 4
        let bad := (upFrom (32 * g) 32).any (fun a => (s.spAt t a).2)
        if !s.rowOn t g then (if here then s.park t 0x11 q.pc s.cycleNow else s)
        else if bad then (s.rowErr t b r).park t 0x10 (if here then q.pc else 4 * g) s.cycleNow
        else s.updTile t (fun x => { x with fetchRows := (q.fetchRows.filter (fun r => decide (q.pc / 4 ≤ r))) ++ [g] })

def execInstructionFetch (t : Nat) (s : State) : Out := guardUnit (tileOk t) (s.instrFetch t)

end Sys2Proof.Machine
end

