-- ==== Sys2Proof/Machine/Vector.lean ====
section
/-! DEFINITION. Slot B vector operations (R92, R94 to R96, Tables 3.4 and 3.6). -/

namespace Sys2Proof.Machine

/-- Perform slot B of the word whose slot A has issued; without that word the command has no effect (log entry
4). -/
def State.slotBOf (s : State) (t : Nat) (w : W64) (eff : State → State) : State :=
  if (s.tile t).bWord = some w then (eff s).updTile t (fun q => { q with bWord := none }) else s

/-- A vector result from the tile's registers with its latency. -/
def State.vector (s : State) (t : Nat) (w : W64) (f : Tile → BitVec 512) : State :=
  s.slotBOf t w (fun s => s.updTile t (fun q =>
    q.putV (fRd (slotB w)) (f q) (q.bCyc + latB (slotB w) s.profile)))

/-- An integer lane operation by FN[7:0] of VARITH (R94). -/
def intLane (w fn a b : Nat) : Nat :=
  let x := signed w a
  let y := signed w b
  let sh := b % w
  match fn with
  | 0x0 => wrap w (x + y)
  | 0x1 => wrap w (x - y)
  | 0x2 => wrap w (x * y)
  | 0x3 => wrap w (if x < y then y else x)
  | 0x4 => wrap w (if y < x then y else x)
  | 0x5 => wrap w (if x < 0 then -x else x)
  | 0x6 => wrap w (-x)
  | 0x8 => wrap w (a * 2 ^ sh : Nat)
  | 0x9 => a >>> sh
  | _ => wrap w (x >>> sh)

/-- A floating-point lane operation by FN[7:0] of VARITH (R94). -/
def floatLane (f : Fmt) (fn a b : Nat) : Nat :=
  let x := f.decode a
  let y := f.decode b
  f.encode .near false (match fn with
    | 0x0 => x.add y
    | 0x1 => x.add y.neg
    | 0x2 => x.mul y
    | 0x3 => x.max y
    | 0x4 => x.min y
    | 0x5 => x.abs
    | _ => x.neg)

/-- One lane of VARITH. -/
def arithLane (ty fn a b : Nat) : Nat :=
  match tyFmt ty with
  | some f => floatLane f fn a b
  | none => intLane (tyWidth ty) fn a b

/-- One lane of VFMA: one rounding (Table 3.4). -/
def fmaLane (ty a b d : Nat) : Nat :=
  match tyFmt ty with
  | some f => f.encode .near false (((f.decode a).mul (f.decode b)).add (f.decode d))
  | none => let w := tyWidth ty; wrap w (signed w a * signed w b + signed w d)

/-- Lane by lane over two vectors. -/
def zipLanes (w : Nat) (f : Nat → Nat → Nat) (a b : BitVec 512) : BitVec 512 :=
  ofLanes w (List.zipWith f (lanes w a) (lanes w b))

/-- Combine adjacent pairs (R95). -/
def pairUp (f : Nat → Nat → Nat) : List Nat → List Nat
  | a :: b :: l => f a b :: pairUp f l
  | l => l

/-- The balanced binary tree of R95, `n` levels. -/
def treeReduce (f : Nat → Nat → Nat) : Nat → List Nat → List Nat
  | 0, l => l
  | n + 1, l => treeReduce f n (pairUp f l)

/-- VARITH function of a VRED code: SUM, MAX, MIN. -/
def redFn (fn : Nat) : Nat := match fn with | 0 => 0 | 1 => 3 | _ => 4

/-- VRED (R95): the result in lane 0, every other lane zero. -/
def vredOp (ty fn : Nat) (a : BitVec 512) : BitVec 512 :=
  let w := tyWidth ty
  ofLanes w ((treeReduce (arithLane ty (redFn fn)) 6 (lanes w a)).take 1)

/-- VLOGIC (Table 3.4). -/
def logicOp (fn : Nat) (a b : BitVec 512) : BitVec 512 :=
  match fn with
  | 0 => a &&& b
  | 1 => a ||| b
  | 2 => a ^^^ b
  | 3 => a &&& ~~~b
  | _ => ~~~a

/-- VCVT (R96). Destination lane i takes source lane i from the start of the half that FN[2] selects (log entry
21). Narrowing by four leaves lanes of the written half that no source lane gives: those take `free`. -/
def vcvtOp (fn : Nat) (free : Nat) (a d : BitVec 512) : BitVec 512 :=
  let dt := bits fn 10 8
  let st := bits fn 7 5
  let r : Round := if bit fn 3 then .zero else .near
  let cv := convert st dt r (bit fn 4)
  let ws := tyWidth st
  let wd := tyWidth dt
  let half := b2n (bit fn 2)
  if wd = ws then ofLanes wd ((lanes ws a).map cv)
  else if ws < wd then
    ofLanes wd ((upFrom 0 (laneCount wd)).map (fun i => cv (lane ws a (half * (laneCount ws / 2) + i))))
  else
    let base := half * (laneCount wd / 2)
    ofLanes wd ((upFrom 0 (laneCount wd)).map (fun i =>
      if i < base || base + laneCount wd / 2 ≤ i then lane wd d i
      else if i - base < laneCount ws then cv (lane ws a (i - base))
      else free >>> (wd * i) % 2 ^ wd))

def execSlotBNop (t : Nat) (w : W64) (s : State) : Out :=
  guardUnit (tileOk t) (s.slotBOf t w (fun s => s))

def execVarith (t : Nat) (w : W64) (s : State) : Out :=
  let b := slotB w
  guardUnit (tileOk t) (s.vector t w (fun q =>
    zipLanes (tyWidth (fTy b)) (arithLane (fTy b) (fFnLo b)) (q.v (fRa b)) (q.v (fRb b))))

def execVfma (t : Nat) (w : W64) (s : State) : Out :=
  let b := slotB w
  let n := tyWidth (fTy b)
  guardUnit (tileOk t) (s.vector t w (fun q =>
    ofLanes n ((upFrom 0 (laneCount n)).map (fun i =>
      fmaLane (fTy b) (lane n (q.v (fRa b)) i) (lane n (q.v (fRb b)) i) (lane n (q.v (fRd b)) i)))))

def execVcmp (t : Nat) (w : W64) (s : State) : Out :=
  let b := slotB w
  let n := tyWidth (fTy b)
  guardUnit (tileOk t) (s.vector t w (fun q =>
    zipLanes n (fun x y => if laneCmp (fTy b) (fFnLo b) x y then 2 ^ n - 1 else 0) (q.v (fRa b)) (q.v (fRb b))))

def execVlogic (t : Nat) (w : W64) (s : State) : Out :=
  let b := slotB w
  guardUnit (tileOk t) (s.vector t w (fun q => logicOp (fFnLo b) (q.v (fRa b)) (q.v (fRb b))))

def execVsel (t : Nat) (w : W64) (s : State) : Out :=
  let b := slotB w
  let n := tyWidth (fTy b)
  guardUnit (tileOk t) (s.vector t w (fun q =>
    ofLanes n ((upFrom 0 (laneCount n)).map (fun i =>
      if lane n (q.v (fRd b)) i != 0 then lane n (q.v (fRa b)) i else lane n (q.v (fRb b)) i))))

def execVcvt (t : Nat) (w : W64) (s : State) : Out :=
  let b := slotB w
  guardUnit (tileOk t) (s.slotBOf t w (fun s =>
    let (free, s) := s.draw
    s.updTile t (fun q => q.putV (fRd b) (vcvtOp (fFn b) free (q.v (fRa b)) (q.v (fRd b))) (q.bCyc + 3))))

def execVred (t : Nat) (w : W64) (s : State) : Out :=
  let b := slotB w
  guardUnit (tileOk t) (s.vector t w (fun q => vredOp (fTy b) (fFnLo b) (q.v (fRa b))))

def execVperm (t : Nat) (w : W64) (s : State) : Out :=
  let b := slotB w
  let n := tyWidth (fTy b)
  guardUnit (tileOk t) (s.vector t w (fun q =>
    ofLanes n ((upFrom 0 (laneCount n)).map (fun i =>
      lane n (q.v (fRa b)) (lane n (q.v (fRb b)) i % laneCount n)))))

/-- VBCAST reads its scalar as it stood before slot A of its word (R81). -/
def execVbcast (t : Nat) (w : W64) (s : State) : Out :=
  let b := slotB w
  let n := tyWidth (fTy b)
  guardUnit (tileOk t) (s.vector t w (fun q =>
    ofLanes n (List.replicate (laneCount n) ((q.sOld (fRa b)).toNat % 2 ^ n))))

/-- VMOVS (Table 3.4); a lane index at or above the lane count gives a free value (log entry 22). -/
def execVmovs (t : Nat) (w : W64) (s : State) : Out :=
  let b := slotB w
  let n := tyWidth (fTy b)
  guardUnit (tileOk t) (s.slotBOf t w (fun s =>
    let (free, s) := s.draw
    s.updTile t (fun q =>
      let v := if bits b 5 0 < laneCount n then lane n (q.v (fRa b)) (bits b 5 0) else free % 2 ^ n
      q.putB (fRd b) (BitVec.ofNat 64 v) (q.bCyc + 2))))

end Sys2Proof.Machine
end

