-- ==== Sys2Proof/Machine/LoadStore.lean ====
section
/-! DEFINITION. Slot B loads and stores, the gather buffer, the operations at the memory and bank power (R93, R110 to
R118). -/

namespace Sys2Proof.Machine

/-- The word whose slot B is performed. -/
def State.refB (s : State) (t : Nat) (w : W64) : WordRef := ⟨(s.tile t).bPc, s.cycleNow, slotB w⟩

/-- Record errors that slot B of a word finds at its bank access, the lower code first (R98). -/
def State.refErrs (s : State) (t : Nat) (r : WordRef) (l : List (Nat × Nat)) : State :=
  ((l.map (fun e => (⟨e.1, 1, r.slot, e.2⟩ : CoreErr))).foldr insertErr []).foldl (fun s e => s.lateErr t r.pc r.seg e) s

/-- Record what the checks of slot B at issue found, unless that was done with errors of slot A (R98). -/
def State.checkFail (s : State) (t : Nat) (l : List CoreErr) : State :=
  if (s.tile t).bTold then s else s.coreErrs t (s.tile t).bPc s.cycleNow l

/-- Extend a loaded value by SZ (R93). -/
def extendSz (sz : Nat) (d : List Byte) : W64 :=
  let v := ofBytes d
  if sz < 4 then BitVec.ofNat 64 v else BitVec.ofInt 64 (signed (8 * szBytes sz) v)

/-- A narrow load joins a load entry in its merge window, or opens one and claims its bank (R107, R110). -/
def State.openLoad (s : State) (t o : Nat) : State :=
  let q := s.tile t
  if q.loadJoins q.bCyc (o / 32) then s.addFld F.SP_PERF_MERGE_COUNT t 0 1
  else
    s.setTile t { q with
      loads := q.loads ++ [⟨o / 32, q.bCyc⟩]
      claims := q.claims ++ [⟨q.bCyc + accessOff s.profile, (s.bankOf t (o / 32)).1, false⟩] }

/-- Claims of a wide access: both banks (R107). Where linear mode puts both rows in one bank, the bank is claimed twice for the cycle and
makes both accesses in it (log entry 140). -/
def State.claimWide (s : State) (t o : Nat) : State :=
  s.updTile t (fun q => { q with
    claims := q.claims ++ (s.banksOf t o 64).map (fun b => ⟨q.bCyc + accessOff s.profile, b, false⟩) })

/-- A register write of a core load: ready at `c`. -/
def Tile.putLoad (q : Tile) (rd : Nat) (sz : Option Nat) (d : List Byte) (c : Nat) : Tile :=
  match sz with
  | some z => q.putB rd (extendSz z d) c
  | none => q.putV rd (BitVec.ofNat 512 (ofBytes d)) c

/-- The destination of a load is written when its pipeline ends; words wait for it from the issue on (R82). -/
def Tile.loadComes (q : Tile) (rd : Nat) (sz : Option Nat) (c : Nat) : Tile :=
  match sz with
  | some _ => if rd = 0 then q else { q with sready := q.sready.write 0 rd c }
  | none => { q with vready := q.vready.write 0 rd c }

/-- A core load issues (R93, R107, R108): an aligned one in the scratchpad accesses its bank A cycles on; one outside it
reads zero (R23); a misaligned one is not performed. -/
def State.load (s : State) (t : Nat) (w : W64) (o n : Nat) (sz : Option Nat) : State :=
  let b := slotB w
  let c := (s.tile t).bCyc + latB b s.profile
  match accessErr n o with
  | [] =>
    ((if sz.isSome then s.openLoad t o else s.claimWide t o).updTile t (fun q => { q.loadComes (fRd b) sz c with
      coreLds := q.coreLds ++ [{ ref := s.refB t w, cyc := q.bCyc, off := o, n := n, rd := fRd b, sz := sz }] }))
  | e :: es =>
    let s := s.checkFail t (bErrs t b (s.tile t).sOld)
    if (e :: es).all (fun x => x.1 == 6) then s.updTile t (fun q => q.putLoad (fRd b) sz [] c) else s

def execLds (t : Nat) (w : W64) (s : State) : Out :=
  let b := slotB w
  guardUnit (tileOk t) (s.slotBOf t w (fun s =>
    s.load t w (addrB b (s.tile t).sOld) (szBytes (fSz b)) (some (fSz b))))

def execLdv (t : Nat) (w : W64) (s : State) : Out :=
  guardUnit (tileOk t) (s.slotBOf t w (fun s => s.load t w (addrB (slotB w) (s.tile t).sOld) 64 none))

/-- The bank access of a core load (R108, R110): the bytes, with the store overlay, and the errors found. The register takes
the value here, unless a word issued later has written it (R82); it is ready when the latency of Table 3.5 has passed. -/
def State.loadAccess (s : State) (t : Nat) (l : CoreLoad) : State :=
  let (d, e, s) := s.coreLoad t l.cyc l.off l.n
  let ready := l.cyc + latB l.ref.slot s.profile
  let latest := (if l.sz.isSome then (s.tile t).sready else (s.tile t).vready).read 0 l.rd
  (if latest = ready then s.updTile t (fun q => q.putLoad l.rd l.sz d ready) else s).refErrs t l.ref
    (e.map (fun c => (c, l.off)))

/-- The core loads whose bank access falls in the present cycle. -/
def State.loadAccesses (s : State) (t : Nat) : State :=
  let q := s.tile t
  let due (l : CoreLoad) : Bool := l.cyc + accessOff s.profile == s.esc.tc
  if q.coreLds.any due then
    (q.coreLds.filter due).foldl (fun s l => s.loadAccess t l)
      (s.setTile t { q with coreLds := q.coreLds.filter (fun l => !due l) })
  else s

/-- A store joins the store group of its row in its merge window, or opens one and claims its write (R110). -/
def State.openStore (s : State) (t : Nat) (i : StoreItem) : State :=
  let q := s.tile t
  let g := i.off / 32
  let joins (e : StoreGroup) : Bool := e.row == g && decide (i.cyc ≤ e.opened + 3)
  if q.storeJoins i.cyc g then
    (s.setTile t { q with groups := q.groups.map (fun e => if joins e then { e with items := e.items ++ [i] } else e) }).addFld
      F.SP_PERF_MERGE_COUNT t 0 1
  else
    s.setTile t { q with
      groups := q.groups ++ [⟨g, i.cyc, [i], false⟩]
      claims := q.claims ++ [⟨i.cyc + 4, (s.bankOf t g).1, false⟩] }

def execSts (t : Nat) (w : W64) (s : State) : Out :=
  let b := slotB w
  guardUnit (tileOk t) (s.slotBOf t w (fun s =>
    let q := s.tile t
    let n := szBytes (fSz b)
    let o := addrB b q.sOld
    match accessErr n o with
    | [] => s.openStore t ⟨s.refB t w, q.bCyc, o, toBytes (q.sOld (fRd b)).toNat n⟩
    | _ => s.checkFail t (bErrs t b q.sOld)))

/-- STV is written in cycle x + A (R107). -/
def execStv (t : Nat) (w : W64) (s : State) : Out :=
  let b := slotB w
  guardUnit (tileOk t) (s.slotBOf t w (fun s =>
    let q := s.tile t
    let o := addrB b q.sOld
    match accessErr 64 o with
    | [] => (s.claimWide t o).updTile t (fun x => { x with
        wides := x.wides ++ [⟨s.refB t w, q.bCyc, o, toBytes (q.v (fRd b)).toNat 64⟩] })
    | _ => s.checkFail t (bErrs t b q.sOld)))

/-- A store that reaches a bank that is not ON is discarded and recorded for its word (R98, R119). -/
def State.storeOff (s : State) (t : Nat) (r : WordRef) (o : Nat) : State := s.refErrs t r [(8, o)]

/-- The tile-slot write of an STV. -/
def State.wideWrite (s : State) (t : Nat) (x : WideStore) : State :=
  let s1 := s.spWrite t 0 x.off x.data
  if (rowsOf x.off 64).any (fun g => !s.rowOn t g) then s1.storeOff t x.ref x.off else s1

/-- The bytes that a store group writes: of two stores of one byte the later (R110). -/
def StoreGroup.entries (g : StoreGroup) : List (Nat × Byte × Bool) :=
  (upFrom 0 32).filterMap (fun k =>
    ((g.items.filterMap (fun i => i.byte (32 * g.row + k))).getLast?).map (fun b => (k, b, false)))

/-- The one tile-slot write of a store group (R110). Its stores stay in the overlay until the cycle ends, when it is freed: loads
that read in the cycle of the write find them. -/
def State.groupWrite (s : State) (t : Nat) (g : StoreGroup) : State :=
  let s := s.updTile t (fun q => { q with groups := q.groups.map (fun e => if e = g then { e with done := true } else e)
                                          did := tookRow g.row :: q.did })
  if s.rowOn t g.row then s.writeRow t 0 g.row g.entries
  else g.items.foldl (fun s i => s.storeOff t i.ref i.off) s

/-- The store groups and wide stores whose write falls in the present cycle. -/
def State.storeWrites (s : State) (t : Nat) : State :=
  let q := s.tile t
  let now := s.esc.tc
  let s := (q.groups.filter (fun g => g.opened + 4 == now && !g.done)).foldl (fun s g => s.groupWrite t g) s
  let due (x : WideStore) : Bool := x.cyc + accessOff s.profile == now
  if q.wides.any due then
    (q.wides.filter due).foldl (fun s x => s.wideWrite t x)
      (s.updTile t (fun q => { q with wides := q.wides.filter (fun x => !due x) }))
  else s

/-! ## Operations at the memory (R112 to R116) -/

/-- Enqueue a memory operation, a write of the tile in its issue order (R113, R116). -/
def State.memop (s : State) (t : Nat) (w : W64) (kind : MemOpKind) (dst src len al : Nat) (pat : W64) : State :=
  let b := slotB w
  match memopErr (fOp b) dst src len al with
  | _ :: _ => s.checkFail t (bErrs t b (s.tile t).sOld)
  | [] =>
    s.updTile t (fun q => { q with
      memops := q.memops ++ [{ kind := kind, dst := dst, src := src, len := len, pattern := pat, csig := bit b 10
                               cidx := bits b 9 4, epoch := q.order.epoch, seq := q.order.seq, cyc := q.bCyc, row := 0
                               half := none }]
      order := { q.order with seq := q.order.seq + 1 } })

def execFill (t : Nat) (w : W64) (s : State) : Out :=
  let b := slotB w
  guardUnit (tileOk t) (s.slotBOf t w (fun s =>
    let q := s.tile t
    s.memop t w (.fill (2 ^ bits b 1 0)) (q.sOld (fRd b)).toNat 0 (q.sOld (fRa b)).toNat (2 ^ bits b 1 0)
      (q.sOld (fRb b))))

def execCopy (t : Nat) (w : W64) (s : State) : Out :=
  let b := slotB w
  guardUnit (tileOk t) (s.slotBOf t w (fun s =>
    let q := s.tile t
    s.memop t w .copy (q.sOld (fRd b)).toNat (q.sOld (fRa b)).toNat (q.sOld (fRb b)).toNat 32 0))

def execAccw (t : Nat) (w : W64) (s : State) : Out :=
  let b := slotB w
  guardUnit (tileOk t) (s.slotBOf t w (fun s =>
    let q := s.tile t
    s.memop t w (.accw (bits b 1 0) (bit b 2)) (q.sOld (fRd b)).toNat (q.sOld (fRa b)).toNat
      (q.sOld (fRb b)).toNat 32 0))

/-- The destination rows of a memory operation in the order it takes them: COPY descends when its destination is not below
its source (R114). -/
def MemOp.rows (m : MemOp) : List Nat :=
  let l := rowsOf m.dst m.len
  if m.kind = .copy ∧ m.src ≤ m.dst then l.reverse else l

/-- The source row of destination row `g`; none for FILL. -/
def MemOp.srcRow (m : MemOp) (g : Nat) : Option Nat :=
  match m.kind with
  | .fill _ => none
  | _ => some (m.src / 32 + (g - m.dst / 32))

/-- Bytes of the pattern of a FILL that fall in row `g`, with their offset. -/
def MemOp.fillRow (m : MemOp) (n g : Nat) : Nat × List Byte :=
  let lo := max m.dst (32 * g)
  let hi := min (m.dst + m.len) (32 * g + 32)
  (lo, (upFrom (lo - m.dst) (hi - lo)).map (fun i => BitVec.ofNat 8 (m.pattern.toNat >>> (8 * (i % n)))))

/-- The source row as read, with its parity state, and what the read records. -/
def State.memopRead (s : State) (t g : Nat) : List (Byte × Bool) × State :=
  ((upFrom (32 * g) 32).map (s.spAt t), s.readCheck t 2 g)

/-- The write of destination row `g` (R113 to R115). -/
def State.memopWrite (s : State) (t : Nat) (m : MemOp) (g : Nat) (d : List (Byte × Bool)) : State :=
  match m.kind with
  | .fill n => let (o, d) := m.fillRow n g; s.spWrite t 2 o d
  | .copy => s.writeRow t 2 g (((upFrom 0 32).zip d).map (fun p => (p.1, p.2.1, p.2.2)))
  | .accw ty sr => s.spAccum t 2 ty (if sr then some 2 else none) (32 * g) (d.map (·.1))

/-- A memory operation may work in cycle `now`: A cycles have passed since its issue (R113). -/
def MemOp.runs (m : MemOp) (a now : Nat) : Bool := decide (m.cyc + a ≤ now)

/-- How the head operation's next row uses the tile slots of cycle `now`: banks, and whether the row is written (R113). A row
whose source and destination share a bank is read in one cycle and written in a later one. -/
def State.memopUse (s : State) (t : Nat) (m : MemOp) (g : Nat) : List Nat × Bool :=
  let b := (s.bankOf t g).1
  match m.srcRow g, m.half with
  | some h, none => let c := (s.bankOf t h).1; if c = b then ([c], false) else ([c, b], true)
  | _, _ => ([b], true)

/-- The head memory operation leaves, its writes done, and signals (R116); a FENCE.W issued before it holds the signal back
until it is released (R195). -/
def State.memopDone (s : State) (t : Nat) (m : MemOp) : State :=
  let s := s.updTile t (fun q => { q with memops := q.memops.tail })
  let k := tileCtr t m.cidx
  if !m.csig then s
  else if m.epoch ≤ (s.tile t).order.done then s.applySig k 1 (unitId 0 t) s.self
  else
    let h : HeldSig := ⟨m.epoch, m.seq, false, BitVec.ofNat 32 (keyCref k), 1, s.self⟩
    s.updTile t (fun q => { q with order := { q.order with held := q.order.held ++ [h] } })

/-- The head memory operation's work in the present cycle: one row in tile slots that no claim holds (R107, R113). An
operation that moves nothing completes in its first cycle (R7). -/
def State.memopCycle (s : State) (t : Nat) : State :=
  let q := s.tile t
  match q.memops with
  | [] => s
  | m :: rest =>
    if q.did.contains 1 || !m.runs (accessOff s.profile) s.esc.tc then s
    else
      match m.rows[m.row]? with
      | none => (s.updTile t (fun q => { q with did := 1 :: q.did })).memopDone t m
      | some g =>
        let (banks, wr) := s.memopUse t m g
        if banks.any (fun b => q.claimed s.esc.tc b) then s
        else
          let (d, s) := match m.srcRow g, m.half with
            | some h, none => s.memopRead t h
            | _, d => (d.getD [], s)
          let s := s.updTile t (fun q => { q with did := if wr then 1 :: tookRow g :: q.did else 1 :: q.did })
          if !wr then s.updTile t (fun q => { q with memops := { m with half := some d } :: rest })
          else
            let m' := { m with row := m.row + 1, half := none }
            let s := (s.updTile t (fun q => { q with memops := m' :: rest })).memopWrite t m g d
            if m'.row = m.rows.length then s.memopDone t m' else s

/-! ## Bank power (R117, R118) -/

/-- Rows of a bank, spares included, cleared with valid parity. -/
def Tile.clearBank (q : Tile) (b : Nat) : Tile :=
  let out (k : Nat) : Bool := k / 33024 != b
  { q with mem := q.mem.keep out, badPar := q.badPar.keep out }

/-- A bank's write queue is empty: no landing-buffer row and no unwritten store group (R118). -/
def State.bankIdle (s : State) (t b : Nat) : Bool :=
  let q := s.tile t
  !q.groups.any (fun g => !g.done && (s.bankOf t g.row).1 == b) &&
    !q.landing.any (fun l => (s.banksOf t l.off l.data.length).contains b)

/-- BANK_OFF (R118): a bank whose mask bit is clear goes OFF once its write queue is empty, losing its contents. -/
def State.bankOff (s : State) (t b : Nat) : State :=
  let q := s.tile t
  if !bit (s.fld F.SP_BANKMASK_MASK t 0) b && q.banks.read .on b != .off && s.bankIdle t b then
    s.setTile t { (q.clearBank b) with banks := q.banks.write .on b .off }
  else s

def execBankOff (t b : Nat) (s : State) : Out := guardUnit (tileOk t && decide (b < 48)) (s.bankOff t b)

/-- BANK_WAKE_DONE (R118): a WAKING bank is ON 1,100 tc after the clearing that woke it. -/
def State.bankWakeDone (s : State) (t b : Nat) : State :=
  let q := s.tile t
  match q.banks.read .on b with
  | .waking since => if since + 1100 ≤ s.esc.tc then s.setTile t { q with banks := q.banks.write .on b .on } else s
  | _ => s

def execBankWakeDone (t b : Nat) (s : State) : Out := guardUnit (tileOk t && decide (b < 48)) (s.bankWakeDone t b)

end Sys2Proof.Machine
end

