-- ==== Sys2Proof/Machine/MatrixUnit.lean ====
section
/-! DEFINITION. The matrix unit (chapter 5): scheduling of row reads, K-groups and drain writes (R150 to R155) and
the arithmetic of MLD, MMA and MDRAIN (R136 to R149). The word's issue assigns the cycles; the reads, the K-groups and the
drain writes take place in theirs. -/

namespace Sys2Proof.Machine

/-- G of Table 5.1: tc that one K-group occupies the array. -/
def groupTc (mt : Nat) (narrow : Bool) : Nat :=
  match mtClass mt with
  | 0 => if narrow then 16 else 32
  | 1 => if narrow then 8 else 16
  | 2 => 16
  | _ => 256

/-- D_t (Table 5.5). -/
def treeTc (prof : Nat) : Nat := if prof = 2 then 3 else 5

/-- Whether a matrix read of `bank` cannot take cycle `c` (R151). -/
def readBlocked (cl : List Claim) (bank c : Nat) : Bool :=
  cl.any (fun k => k.cyc == c && k.bank == bank) ||
    decide (16 ≤ (cl.filter (fun k => k.mx && k.cyc == c)).length)

/-- Give each row of the list its cycle (R151): the claims that result and the cycles, in list order. -/
def assignReads : List Claim → Nat → List Nat → List Claim × List Nat
  | cl, _, [] => (cl, [])
  | cl, c, b :: bs =>
    let y := firstFree (readBlocked cl b) (cl.length + 1) c
    let (cl', ys) := assignReads (cl ++ [⟨y, b, true⟩]) y bs
    (cl', y :: ys)

/-- Rows an MLD reads, in order (R151). -/
def mldRows (x base pitch : Nat) : List Nat :=
  let k := 32 * mldNg x
  (upFrom 0 k).flatMap (fun i => rowsOf (base + i * pitch) (bRowLen (mldMt x)))
    ++ (if mtScaled (mldMt x) then rowsOf (base + k * pitch) 128 else [])

/-- Init and scale rows of an MMA, in order (R151). -/
def mmaHeadRows (x base pitch init : Nat) : List Nat :=
  rowsOf init (initLen x) ++ (if mtScaled (mmaMt x) then rowsOf (base + 64 * pitch) 256 else [])

/-- Rows of one K-group of A (R151). -/
def mmaGroupRows (x base pitch g : Nat) : List Nat :=
  let n := 32 * mtSize (mmaMt x)
  (upFrom 0 64).flatMap (fun i => rowsOf (base + i * pitch + g * n) n)

/-- The last of a list of cycles, at least `d`. -/
def lastCyc (d : Nat) (l : List Nat) : Nat := l.foldl max d

/-- Start cycles of K-groups from their bounds (R152). -/
def groupStarts (g : Nat) : Nat → List Nat → List Nat
  | _, [] => []
  | lo, b :: bs => let y := max lo b; y :: groupStarts g (y + g) bs

/-! ## Operands -/

/-- Bytes from `o` on as codes of `size` bytes, `n` of them; bytes not read yet count as 0. -/
def codesAt (d : List Byte) (o n size : Nat) : List Nat :=
  (upFrom 0 n).map (fun i => ofBytes ((d.drop (o + i * size)).take size))

/-- The codes of a stationary buffer, K-row by K-row, and its scale bytes (R136, R151). -/
def StatBuf.elems (b : StatBuf) : List Nat := codesAt b.data 0 (32 * b.ng * 32) (mtSize b.mt)
def StatBuf.scales (b : StatBuf) : List Nat :=
  if mtScaled b.mt then codesAt b.data (32 * b.ng * bRowLen b.mt) 128 1 else []

/-- MLD replaces the whole content of a stationary buffer (R141): its rows come with their reads. -/
def loadB (x last : Nat) : StatBuf := { valid := true, mt := mldMt x, ng := mldNg x, data := [], lastRead := last }

/-- The A operand of an MMA: codes by row, and scale bytes (R136). -/
structure AOperand where
  rows   : List (List Nat)
  scales : List Nat

/-- Bytes of the scale rows of an MMA. -/
def scaleLen (x : Nat) : Nat := if mtScaled (mmaMt x) then 256 else 0

/-- The A operand in the bytes that an MMA reads (R151): initial value, scales, then the slices of each K-group by row. -/
def loadA (x : Nat) (d : List Byte) : AOperand :=
  let n := 32 * mtSize (mmaMt x)
  let o (g i : Nat) : Nat := initLen x + scaleLen x + (64 * g + i) * n
  { rows := (upFrom 0 64).map (fun i => (upFrom 0 (mmaNg x)).flatMap (fun g => codesAt d (o g i) 32 (mtSize (mmaMt x))))
    scales := codesAt d (initLen x) (scaleLen x) 1 }

/-- Accumulator kind an MMA sets (R141). -/
def mmaKind (x : Nat) : AccKind := if mmaMt x = 6 then .int32 else if mmaNarrow x then .bf16 else .fp32

/-- Initial codes of the accumulator (R142), from the bytes that the MMA read first. -/
def initAcc (x : Nat) (d : List Byte) : List Nat :=
  match mmaInit x with
  | 1 =>
    let l := codesAt d 0 2048 4
    if mmaNarrow x then l.map (fun v => bf16.encode .near false (fp32.decode v)) else l
  | 2 =>
    let l := codesAt d 0 2048 2
    if mmaNarrow x then l else l.map (fun v => fp32.encode .near false (bf16.decode v))
  | _ => List.replicate 2048 0

/-- The exact products of element (i, j) in K-group `g` (R143). -/
def products (mtA mtB : Nat) (a : AOperand) (b : StatBuf) (g i j : Nat) : List Num :=
  let row := a.rows.getD i []
  (upFrom 0 32).map (fun k =>
    let kk := 32 * g + k
    (mtDecode mtA (a.scales.getD (4 * i + g) 127) (row.getD kk 0)).mul
      (mtDecode mtB (b.scales.getD (4 * j + g) 127) (b.elems.getD (32 * kk + j) 0)))

/-- The exact integer sum of a K-group of the INT8 class (R144). -/
def intGroup (a : AOperand) (b : StatBuf) (g i j : Nat) : Int :=
  let row := a.rows.getD i []
  (upFrom 0 32).foldl (fun t k =>
    let kk := 32 * g + k
    t + signed 8 (row.getD kk 0) * signed 8 (b.elems.getD (32 * kk + j) 0)) 0

/-- One accumulation of a K-group into an element (R144, R145): the new code and whether a group value or a sum was
NaN or infinite (R146). -/
def accumulate (kind : AccKind) (mtA mtB : Nat) (a : AOperand) (b : StatBuf) (r : Round) (g e : Nat) (c : Nat) :
    Nat × Bool :=
  match kind with
  | .int32 => (wrap 32 ((c : Int) + intGroup a b g (e / 32) (e % 32)), false)
  | .fp32 =>
    let v := groupValue fp32 (products mtA mtB a b g (e / 32) (e % 32))
    let y := fadd fp32 .near c v
    (y, (fp32.decode v).nonfinite || (fp32.decode y).nonfinite)
  | .bf16 =>
    let v := groupValue bf16 (products mtA mtB a b g (e / 32) (e % 32))
    let y := fadd bf16 r c v
    (y, (bf16.decode v).nonfinite || (bf16.decode y).nonfinite)

/-- Codes of an accumulator as sparse data. -/
def accElems (l : List Nat) : SMap Nat := SMap.writeList 0 0 l []

/-- The codes of an accumulator. -/
def Acc.codes (a : Acc) : List Nat := a.elems.readList 0 0 2048

/-- K-group `g` added to the 2,048 elements (R145, R149): codes and whether one was non-finite; `draw e`: the rounding of
element `e`. -/
def groupPass (kind : AccKind) (mtA : Nat) (a : AOperand) (b : StatBuf) (draw : Nat → Round) (g : Nat) (c : List Nat) :
    List Nat × Bool :=
  let out := ((upFrom 0 2048).zip c).map (fun p => accumulate kind mtA b.mt a b (draw p.1) g p.1 p.2)
  (out.map (·.1), out.any (·.2))

/-- Stream of an MMA's draws: 0, or 1 of the filler (R149, R157); none where rounding is not stochastic. -/
def MmaJob.stream (j : MmaJob) : Option Nat := if mmaSr j.word then some (b2n j.filler) else none

/-- K-group `g` of an MMA takes effect (R145, R146, R149). -/
def State.mmaGroup (s : State) (t g : Nat) (j : MmaJob) : State :=
  let m := (s.tile t).matrix
  let acc := mmaAcc j.word
  let n0 := match j.stream with | some st => s.fld F.MX_SR_DRAWS_DRAWN t st | none => 0
  let draw (e : Nat) : Round := match j.stream with
    | some st => .stoch (srDraw m.key st (n0 + e))
    | none => .near
  let res := groupPass (mmaKind j.word) (mmaMt j.word) (loadA j.word j.data) (m.buf (mmaBuf j.word)) draw g (m.acc acc).codes
  let s := s.updTile t (fun q => { q with matrix := q.matrix.setAcc acc { q.matrix.acc acc with elems := accElems res.1 } })
  let s := match j.stream with
    | some st => s.addFld F.MX_SR_DRAWS_DRAWN t st 2048
    | none => s
  let s := s.addFld F.MX_PERF_MAC_COUNT t 0 65536
  if res.2 then s.setFld F.MX_STATUS_NONFINITE t 0 1 else s

/-! ## MLD, MMA, MDRAIN -/

/-- Failures of a main matrix word recorded in MX_ERR. -/
def State.mxFail (s : State) (t : Nat) (l : List Nat) : State :=
  l.foldl (fun s c => s.mxErr t c false (s.tile t).bPc s.cycleNow) s

/-- A matrix word that fails R139 is recorded under R98, one that fails R140 in MX_ERR; a word that fails both is recorded in
both, and neither is performed in slot B. DESIGN CHOICE (log entry 114): the banks of R155 are those of a drain that meets R139. -/
def State.matrixOp (s : State) (t : Nat) (w : W64) (eff : State → State) : State :=
  s.slotBOf t w (fun s =>
    let q := s.tile t
    let b := slotB w
    match matrixErr b q.sOld with
    | _ :: _ => (s.checkFail t (bErrs t b q.sOld)).mxFail t (q.matrix.fails b)
    | [] =>
      match s.mxCheck t b q.sOld with
      | [] => eff s
      | l => s.mxFail t l)

/-- A new MLD of buffer `k`: it alone fills the buffer (R141). -/
def Matrix.withMld (m : Matrix) (k : Nat) (b : StatBuf) (reads : List (Nat × Nat)) (filler : Bool) : Matrix :=
  { m.setBuf k b with
    mlds := m.mlds.map (fun j => if j.buf = k then { j with live := false } else j) ++ [⟨k, reads, filler, true⟩] }

def execMld (t : Nat) (w : W64) (s : State) : Out :=
  let b := slotB w
  guardUnit (tileOk t) (s.matrixOp t w (fun s =>
    let q := s.tile t
    let rows := mldRows b (q.sOld (fRd b)).toNat (q.sOld (fRa b)).toNat
    let (cl, ys) := assignReads q.claims (q.bCyc + accessOff s.profile) (rows.map (fun g => (s.bankOf t g).1))
    s.setTile t { q with claims := cl
                         matrix := q.matrix.withMld (mldBuf b) (loadB b (lastCyc 0 ys)) (ys.zip rows) false }))

/-- The start cycles of an MMA's K-groups (R152): `head` and `groups` are its read cycles. -/
def Matrix.starts (m : Matrix) (prof x w : Nat) (head : List Nat) (groups : List (List Nat)) : List Nat :=
  let acc := m.acc (mmaAcc w)
  let s0 := max (x + 1) (max ((m.buf (mmaBuf w)).lastRead + 2)
    (max (match head with | [] => 0 | _ => lastCyc 0 head + 2)
      (max (match m.lastMma with | some l => l + 1 | none => 0)
        (max (match acc.lastIssue with | some l => l + treeTc prof | none => 0)
          (match acc.lastDrain with | some l => l + 1 | none => 0)))))
  groupStarts (groupTc (mmaMt w) (mmaNarrow w)) s0 (groups.map (fun ys => max (x + 1) (lastCyc 0 ys + 2)))

/-- The schedule of an MMA issued at `x` (R151, R152): claims, reads by cycle and row, and the starts of its K-groups. -/
structure MmaPlan where
  claims : List Claim
  reads  : List (Nat × Nat)
  starts : List Nat
  deriving DecidableEq, Repr

def State.planMma (s : State) (t : Nat) (cl : List Claim) (m : Matrix) (w x base pitch init : Nat) : MmaPlan :=
  let a := x + accessOff s.profile
  let bank (g : Nat) : Nat := (s.bankOf t g).1
  let head := mmaHeadRows w base pitch init
  let (cl0, hs) := assignReads cl a (head.map bank)
  let (cl', gs) := (upFrom 0 (mmaNg w)).foldl (fun (p : List Claim × List (List Nat)) g =>
      let (c, ys) := assignReads p.1 (lastCyc (lastCyc a hs) (p.2.getLastD [])) ((mmaGroupRows w base pitch g).map bank)
      (c, p.2 ++ [ys])) (cl0, [])
  let rows := head ++ (upFrom 0 (mmaNg w)).flatMap (mmaGroupRows w base pitch)
  ⟨cl', (hs ++ gs.flatten).zip rows, m.starts s.profile x w hs gs⟩

/-- Last-issue cycle of an MMA (R152). -/
def MmaPlan.last (p : MmaPlan) (w : Nat) : Nat := p.starts.getLastD 0 + groupTc (mmaMt w) (mmaNarrow w) - 1

/-- Matrix class of Table 11.9 of an MMA, in table order: FP32, 16-bit wide, INT8, 16-bit narrow, FP8 wide, FP8 narrow. -/
def powerClass (w : Nat) : Nat :=
  match mtClass (mmaMt w), mmaNarrow w with
  | 0, false => 1
  | 0, true => 3
  | 1, false => 4
  | 1, true => 5
  | 2, _ => 2
  | _, _ => 0

/-- The MMA of a plan has issued (R141, R152). -/
def Matrix.withMma (m : Matrix) (w : Nat) (p : MmaPlan) (filler : Bool) : Matrix :=
  let last := p.last w
  { (m.setAcc (mmaAcc w) { m.acc (mmaAcc w) with kind := mmaKind w, cls := powerClass w, lastIssue := some last }) with
    lastMma := some last, mmas := m.mmas ++ [⟨w, p.reads, [], p.starts, filler⟩] }

def execMma (t : Nat) (w : W64) (s : State) : Out :=
  let b := slotB w
  guardUnit (tileOk t) (s.matrixOp t w (fun s =>
    let q := s.tile t
    let p := s.planMma t q.claims q.matrix b q.bCyc (q.sOld (fRd b)).toNat (q.sOld (fRa b)).toNat (q.sOld (fRb b)).toNat
    let m := q.matrix.withMma b p false
    s.setTile t { q with claims := p.claims, matrix := { m with
      outs := m.outstanding q.bCyc ++ [⟨p.last b, mmaBuf b⟩] } }))

/-- Exact value of an accumulator code. -/
def accValue (kind : AccKind) (c : Nat) : Num :=
  match kind with
  | .bf16 => bf16.decode c
  | _ => fp32.decode c

/-- One overwrite-mode output code (R156). -/
def drainCode (kind : AccKind) (out c : Nat) : Nat :=
  match kind with
  | .int32 => c
  | .fp32 => if out = 0 then c else bf16.encode .near false (fp32.decode c)
  | .bf16 => if out = 0 then fp32.encode .near false (bf16.decode c) else c

/-- One accumulate-mode sum (R156): exact, rounded once into the destination's type. -/
def drainAdd (kind : AccKind) (out : Nat) (r : Round) (d c : Nat) : Nat :=
  match kind with
  | .int32 => (d + c) % 2 ^ 32
  | _ =>
    if out = 0 then fp32.encode .near false ((fp32.decode d).add (accValue kind c))
    else bf16.encode r false ((bf16.decode d).add (accValue kind c))

/-- Claims of a drain issued at `x` (R154). -/
def State.drainClaims (s : State) (t w x base pitch : Nat) : List Claim :=
  (upFrom 0 (drainCycles w)).flatMap (fun c =>
    (drainRows w base pitch c).map (fun g => (⟨drainFrom s.profile x + c, (s.bankOf t g).1, false⟩ : Claim)))

/-- The MDRAIN issued at `x` (R154). -/
def Matrix.withDrain (m : Matrix) (prof w x base pitch : Nat) (filler : Bool) : Matrix :=
  { (m.setAcc (mdAcc w) { m.acc (mdAcc w) with lastDrain := some (drainRead prof x) }) with
    drains := m.drains ++ [⟨w, base, pitch, drainRead prof x, drainFrom prof x, none, filler, 0⟩] }

def execMdrain (t : Nat) (w : W64) (s : State) : Out :=
  let b := slotB w
  guardUnit (tileOk t) (s.matrixOp t w (fun s =>
    let q := s.tile t
    let base := (q.sOld (fRd b)).toNat
    let pitch := (q.sOld (fRa b)).toNat
    s.setTile t { q with claims := q.claims ++ s.drainClaims t b q.bCyc base pitch, matrix :=
      { q.matrix.withDrain s.profile b q.bCyc base pitch false with
        drainEnd := some (drainFrom s.profile q.bCyc + drainCycles b - 1) } }))

/-! ## The matrix unit in one cycle -/

/-- Requester KIND of the matrix unit and of the filler queue (Table 4.8). -/
def mxKind (filler : Bool) : Nat := if filler then 6 else 1

/-- Whole-row operand reads: bytes as at the start of the cycle, and what the reads record (R121, R156). -/
def State.operandReads (s : State) (t kind : Nat) (rows : List Nat) : List Byte × State :=
  (rows.flatMap (fun g => s.spAtBytes t (32 * g) 32), rows.foldl (fun s g => s.readCheck t kind g) s)

/-- The reads of one MLD in the present cycle. -/
def State.mldCycle (s : State) (t : Nat) (j : MldJob) : State :=
  let now := s.esc.tc
  let (d, s) := s.operandReads t (mxKind j.filler) ((j.reads.filter (fun r => r.1 == now)).map (·.2))
  let rest := j.reads.filter (fun r => decide (now < r.1))
  s.updTile t (fun q =>
    let b := q.matrix.buf j.buf
    let m := if j.live then q.matrix.setBuf j.buf { b with data := b.data ++ d } else q.matrix
    { q with matrix := { m with mlds := if rest.isEmpty then m.mlds else m.mlds ++ [{ j with reads := rest }] } })

/-- The K-groups that an MMA has begun. -/
def MmaJob.group (j : MmaJob) : Nat := mmaNg j.word - j.starts.length

/-- One MMA in the present cycle (R151, R152): its reads; in s_0 the accumulator takes its initial value; in the last cycle
of a K-group the group takes effect; every cycle of the array is counted. -/
def State.mmaCycle (s : State) (t : Nat) (j : MmaJob) : State :=
  let now := s.esc.tc
  let len := groupTc (mmaMt j.word) (mmaNarrow j.word)
  let acc := mmaAcc j.word
  let (d, s) := s.operandReads t (mxKind j.filler) ((j.reads.filter (fun r => r.1 == now)).map (·.2))
  let j := { j with reads := j.reads.filter (fun r => decide (now < r.1)), data := j.data ++ d }
  let keep (s : State) (j : MmaJob) : State :=
    s.updTile t (fun q => { q with matrix := { q.matrix with mmas := q.matrix.mmas ++ [j] } })
  match j.starts with
  | [] => s
  | y :: ys =>
    if now < y then keep s j
    else
      let s := if now = y ∧ j.group = 0 then
          s.updTile t (fun q => { q with matrix := q.matrix.setAcc acc { q.matrix.acc acc with
            held := mmaKind j.word, elems := accElems (initAcc j.word j.data) } })
        else s
      let s := s.addFld (if j.filler then F.MX_PERF_FILL_COUNT else F.MX_PERF_BUSY_COUNT) t 0 1
      if now + 1 = y + len then
        let s := s.mmaGroup t j.group j
        if ys.isEmpty then s else keep s { j with starts := ys }
      else keep s j

/-- Roundings of `k` elements of a drain from element (i, j) on: with SR draw 32 × i + j of the drain, in ascending destination
address (R149). -/
def State.drainRounds (s : State) (t : Nat) (job : DrainJob) (i j k : Nat) : List Round :=
  if mdSr job.word then
    (upFrom (job.draw0 + 32 * i + j) k).map (fun n => .stoch (srDraw (s.tile t).matrix.key 3 n))
  else List.replicate k .near

/-- What drain write cycle `c` writes in result row `i` (R136, R154, R156): a quarter of a 32-bit row, or half of a BF16
row. -/
def State.drainPart (s : State) (t : Nat) (j : DrainJob) (kind : AccKind) (el : SMap Nat) (c i : Nat) : State :=
  let out := mdOut j.word
  let n := if out = 0 then 4 else 2
  let part := if out = 0 then c % 4 else c % 2
  let k := 32 / n
  let o := j.base + i * j.pitch + 32 * part
  let cs := el.readList 0 (32 * i + k * part) k
  if mdAccum j.word then
    s.spAccumWith t (mxKind j.filler) n (s.drainRounds t j i (k * part) k) (drainAdd kind out) o cs
  else s.spWrite t (mxKind j.filler) o (cs.flatMap (fun c => toBytes (drainCode kind out c) n))

/-- Result rows of write cycle `c` (R154). -/
def drainRowsOf (w c : Nat) : List Nat := upFrom (32 * (if mdOut w = 0 then c / 4 else c / 2)) 32

/-- A drain with SR takes its 2,048 draws of stream 3 in its first write cycle, so that drains draw in issue order (R149). -/
def State.drainDraws (s : State) (t : Nat) (j : DrainJob) (c : Nat) : DrainJob × State :=
  if c = 0 && mdAccum j.word && mdSr j.word then
    ({ j with draw0 := s.fld F.MX_SR_DRAWS_DRAWN t 3 }, s.addFld F.MX_SR_DRAWS_DRAWN t 3 2048)
  else (j, s)

/-- One MDRAIN in the present cycle (R154): its drain read, or one of its write cycles. -/
def State.drainCycle (s : State) (t : Nat) (j : DrainJob) : State :=
  let now := s.esc.tc
  let keep (s : State) (j : DrainJob) : State :=
    s.updTile t (fun q => { q with matrix := { q.matrix with drains := q.matrix.drains ++ [j] } })
  if now = j.readAt then
    let a := (s.tile t).matrix.acc (mdAcc j.word)
    keep s { j with snap := some (a.held, a.elems) }
  else
    match j.snap with
    | none => keep s j
    | some (kind, el) =>
      let c := now - j.first
      let (j, s) := s.drainDraws t j c
      let s := (drainRowsOf j.word c).foldl (fun s i => s.drainPart t j kind el c i) s
      if c + 1 < drainCycles j.word then keep s j else s

/-- The matrix unit in the present cycle: drains, then reads and K-groups, in issue order. -/
def State.matrixCycle (s : State) (t : Nat) : State :=
  let m := (s.tile t).matrix
  if m.mlds.isEmpty && m.mmas.isEmpty && m.drains.isEmpty then s
  else
    let s := s.updTile t (fun q => { q with matrix := { q.matrix with mlds := [], mmas := [], drains := [] } })
    let s := m.drains.foldl (fun s j => s.drainCycle t j) s
    let s := m.mlds.foldl (fun s j => s.mldCycle t j) s
    m.mmas.foldl (fun s j => s.mmaCycle t j) s

end Sys2Proof.Machine
end

