-- ==== Sys2Proof/Machine/Reduce.lean ====
section
/-! DEFINITION. ALIGN, the release conversion and the residue code (R215, R217, R229). -/

namespace Sys2Proof.Machine

/-- Bits of a record's FLAGS (Table 7.2). -/
def flPinf : Nat := 1
def flNinf : Nat := 2
def flNan : Nat := 4
def flOvf : Nat := 8

/-- ALIGN of an exact value at window exponent `w` (R215): integer and flags. -/
def alignNum (x : Num) (w : Int) : Int × Nat :=
  match x with
  | .nan => (0, flNan)
  | .inf neg => (0, if neg then flNinf else flPinf)
  | .fin neg m e =>
    if m = 0 then (0, 0)
    else
      let (q, rem, unit) := scaleTo m e w
      let q := if Round.near.up q rem unit then q + 1 else q
      if q > 2 ^ 71 - 1 then (0, flOvf) else (if neg then -(q : Int) else q, 0)

/-- ALIGN of every element of an accumulate payload by FORM: 0 BF16, 1 BS16 blocks of 72 bytes, 2 WIDE records
(Table 7.5); for WIDE the record's VALUE and FLAGS. -/
def formElems (form : Nat) (w : Int) (d : List Byte) : List (Int × Nat) :=
  match form with
  | 0 => (elemsOf 2 d).map (fun c => alignNum (bf16.decode c) w)
  | 1 => (chunks 72 d.length d).flatMap (fun b =>
      let k := bs16OfSplit (b.take 64) (b.drop 64)
      (upFrom 0 32).map (fun i => alignNum (k.elem i) w))
  | _ => (elemsOf 16 d).map (fun v => (recValue (BitVec.ofNat 128 v), recFlags (BitVec.ofNat 128 v)))

/-- The modulus of the residue code (R217). -/
def resMod : Nat := 2 ^ 31 - 1

/-- v mod m. -/
def res (v : Int) : Nat := (v % (resMod : Int)).toNat

/-- x × 2^k mod m as a rotation of 31 bits. -/
def rot (x k : Nat) : Nat := ((x <<< k) ||| (x >>> (31 - k))) % 2 ^ 31

/-- packet_residue of the values added, the first numbered `j` (R217). -/
def residueFrom (j : Nat) : List Int → Nat
  | [] => 0
  | a :: l => (rot (res a) (j % 31) + residueFrom (j + 1) l) % resMod

def packetResidue (l : List Int) : Nat := residueFrom 0 l

/-- The residue that a packet of elements carries. -/
def elemsResidue (l : List (Int × Nat)) : Nat := packetResidue (l.map (·.1))

/-- The release conversion (R229): a record's value and flags at exponent `w`, as a code of `f`. -/
def releaseCode (f : Fmt) (v : Int) (fl : Nat) (w : Int) : Nat :=
  let has (b : Nat) : Bool := fl / b % 2 == 1
  if has flNan || (has flPinf && has flNinf) then f.nanCode
  else if has flPinf then f.infCode
  else if has flNinf then f.sign true + f.infCode
  else if has flOvf then f.nanCode
  else if v = 0 then 0
  else f.encode .near false (.fin (decide (v < 0)) v.natAbs w)

/-- Window raise of the device (R216). -/
def State.raise (s : State) : Nat := s.fld F.RT_WRAISE_RAISE 0 0

/-- An effective window exponent in range (R216). -/
def windowOk (w : Int) : Bool := decide (-160 ≤ w) && decide (w ≤ 64)

/-- An ACCUM packet (Tables 7.4, 7.5). -/
def accumPkt (dest unit dev form : Nat) (w : Int) (tag : Nat) (d : List Byte) : Packet :=
  mkPacket { dest := dest, unit := unit, dev := dev, kind := 6, len := d.length
             cref := elemsResidue (formElems form w d), n := form + wrap 10 w * 4, tag := tag, payload := d }

end Sys2Proof.Machine
end

