-- ==== Sys2Proof/Machine/Transfer.lean ====
section
/-! DEFINITION. Fetch-engine descriptors (R183 to R188): fields, conversions, the checks at FETCH, and the pieces a
transfer is cut into. -/

namespace Sys2Proof.Machine

/-! ## Types (Table 6.8) -/

/-- Element size in bytes. -/
def deSize (ty : Nat) : Nat :=
  match ty with
  | 1 | 7 => 4
  | 2 | 3 | 8 => 2
  | _ => 1

/-- The conversions that Table 6.8 allows; BS16 to itself is allowed in COPY alone, which `descErr` checks. -/
def deConv (st dt : Nat) : Bool :=
  match st with
  | 0 => dt == 0
  | 1 => dt == 1 || dt == 2 || dt == 3
  | 2 => dt == 2 || dt == 1
  | 3 => dt == 3 || dt == 1
  | 4 => dt == 4 || dt == 2 || dt == 3 || dt == 1
  | 5 => dt == 5 || dt == 2 || dt == 3 || dt == 1
  | 6 => dt == 6 || dt == 7
  | 7 => dt == 7
  | 8 => dt == 1 || dt == 2 || dt == 8
  | _ => false

/-- The code of Table 3.6 for a type of Table 6.8. -/
def deTy (ty : Nat) : Nat :=
  match ty with
  | 1 => 0 | 2 => 1 | 3 => 2 | 4 => 3 | 5 => 4 | 6 => 7 | _ => 5

/-- The accumulate type of Table 4.4 for a destination type. -/
def deAcc (ty : Nat) : Nat := if ty = 1 then 0 else if ty = 2 then 1 else 2

/-- Source size of one conversion unit: a BS16 block of 72 bytes, else one element. -/
def unitSrc (st : Nat) : Nat := if st = 8 then 72 else deSize st
/-- Destination size of one conversion unit. -/
def unitDst (st dt : Nat) : Nat := if st = 8 then 32 * deSize dt else deSize dt

/-- Destination bytes of `n` source bytes. -/
def convLen (st dt n : Nat) : Nat := n / unitSrc st * unitDst st dt

/-- Convert a payload (R186, Table 5.3): BS16 comes as whole 72-byte blocks. -/
def convertBytes (st dt : Nat) (d : List Byte) : List Byte :=
  if st = 0 then d
  else if st = 8 then
    (chunks 72 d.length d).flatMap (fun b =>
      let k := bs16OfSplit (b.take 64) (b.drop 64)
      (upFrom 0 32).flatMap (fun i =>
        toBytes (((tyFmt (deTy dt)).getD fp32).encode .near false (k.elem i)) (deSize dt)))
  else (elemsOf (deSize st) d).flatMap (fun v => toBytes (convert (deTy st) (deTy dt) .near false v) (deSize dt))

/-- Split-form BS16 bytes, mantissa records before header records, as whole blocks (R133, R186). -/
def lineBlocks (raw : List Byte) : List Byte :=
  let n := raw.length / 72
  (upFrom 0 n).flatMap (fun i => (raw.drop (64 * i)).take 64 ++ (raw.drop (64 * n + 8 * i)).take 8)

/-! ## Descriptors (Table 6.7) -/

/-- The fields of a descriptor from its four words. -/
def decodeDesc (w0 w1 w2 w3 off cyc tc epoch seq : Nat) : Desc :=
  { src := bits w0 62 0, dst := bits w1 62 0, mode := bits w2 61 59, sstride := signed 22 (bits w2 58 37)
    nlines := bits w2 36 21, line := bits w2 20 0, cidx := bits w3 63 58, csig := bit w3 57, lidx := bits w3 56 49
    lsig := bits w3 48 47, mstride := bits w3 46 36, mcount := bits w3 35 30, redw := signed 10 (bits w3 39 30)
    dtype := bits w3 29 26, stype := bits w3 25 22, dstride := signed 22 (bits w3 21 0)
    off := off, cyc := cyc, tc := tc, epoch := epoch, seq := seq }

/-- The offset of a system address in the own window of tile `t` (R184). -/
def ownOff (dev t a : Nat) : Option Nat :=
  let b := sysAddr dev (spBase + t * 0x200000)
  if b ≤ a ∧ a < b + 0x200000 then some (a - b) else none

/-- The address lies in the tile scratchpad windows of its device. -/
def inWindows (a : Nat) : Bool := decide (spBase ≤ a % 2 ^ 48) && decide (a % 2 ^ 48 < spBase + 0xC0000000)
/-- The tile whose window holds an address. -/
def windowTile (a : Nat) : Nat := (a % 2 ^ 48 - spBase) / 0x200000
/-- The address lies in an accumulation store. -/
def inStore (a : Nat) : Bool := decide (storeBase ≤ a % 2 ^ 48) && decide (a % 2 ^ 48 < storeBase + 0x20000000)

/-- Moves nothing (R187). -/
def Desc.empty (d : Desc) : Bool := d.line == 0 || d.nlines == 0 || (d.mode == 3 && d.mcount == 0)

/-- A descriptor as it is moved: COPY of BS16 to itself is handled as RAW (Table 6.8). -/
def Desc.moved (d : Desc) : Desc := if d.stype = 8 ∧ d.dtype = 8 then { d with stype := 0, dtype := 0 } else d

/-- Bytes read of each source line: BS16 lines carry their headers (R186). -/
def Desc.slen (d : Desc) : Nat := if d.stype = 8 then d.line * 9 / 8 else d.line

/-- Destination lines and the bytes of each (R185, R223). -/
def Desc.dlines (d : Desc) : Nat × Nat :=
  let e := d.line / deSize d.stype
  if d.mode = 1 then (e, d.nlines * deSize d.dtype)
  else if d.mode = 4 then (d.nlines, 16 * e)
  else (d.nlines, e * deSize d.dtype)

/-- Address of a line; none outside the system address space. -/
def lineAddr (a : Nat) (stride : Int) (j : Nat) : Option Nat :=
  let x : Int := a + j * stride
  if x < 0 ∨ x ≥ 2 ^ 63 then none else some x.toNat

/-- Target tiles of an MCAST in ascending order of i (R185). -/
def Desc.targets (d : Desc) : List Nat := (upFrom 0 d.mcount).map (fun i => windowTile d.dst + i * d.mstride)

/-- A system address for every 256-byte block that the transfer writes; a transfer of no bytes keeps its place at the address of
every line and target (R7). -/
def Desc.destAddrs (d : Desc) : List Nat :=
  let here (n : Nat) (len : Nat) : List Nat :=
    (upFrom 0 n).flatMap (fun k => match lineAddr d.dst d.dstride k with
      | some a => a :: (if len = 0 then [] else (upFrom (a / 256 + 1) ((a + len - 1) / 256 - a / 256)).map (256 * ·))
      | none => [])
  if d.mode = 3 then d.dst :: d.targets.map (fun t => d.dst / 2 ^ 48 * 2 ^ 48 + spBase + t * 0x200000)
  else if d.empty then d.dst :: here d.dlines.1 0
  else here d.dlines.1 d.dlines.2

/-- A source line that cannot be read, or a destination line that cannot be written (R187); none when it can. -/
def State.lineFault (s : State) (t : Nat) (src : Bool) (len : Nat) (a : Option Nat) : Option Nat :=
  match a with
  | none => some 0
  | some x =>
    match ownOff s.self t x with
    | some o => if o + len > spSize then some x else none
    | none =>
      if x / 2 ^ 48 ≠ s.self then none
      else
        let y := x % 2 ^ 48
        let ok := s.memRangeOk y len || (src && (match s.place y with
          | .live _ => s.liveRangeOk y len
          | _ => false))
        if ok then none else some x

/-- A line of a block that begins in the own window: every byte of it lies in the own scratchpad (R187). -/
def State.ownFault (s : State) (t len : Nat) (a : Option Nat) : Option Nat :=
  match a with
  | none => some 0
  | some x =>
    match ownOff s.self t x with
    | some o => if o + len > spSize then some x else none
    | none => some x

/-- The address fault of a descriptor, if any. -/
def State.descFault (s : State) (t : Nat) (d : Desc) : Option Nat :=
  let (n, len) := d.dlines
  let fault (src : Bool) (base k : Nat) (a : Option Nat) : Option Nat :=
    if (ownOff s.self t base).isSome then s.ownFault t k a else s.lineFault t src k a
  match (upFrom 0 d.nlines).findSome? (fun j => fault true d.src d.slen (lineAddr d.src d.sstride j)) with
  | some a => some a
  | none => (upFrom 0 n).findSome? (fun k => fault false d.dst len (lineAddr d.dst d.dstride k))

/-- The checks of R187 in its order: the XC_FE_ERR code and address of the first that fails. -/
def State.descErr (s : State) (t : Nat) (w2 w3 top : Nat) (d : Desc) : Option (Nat × Nat) :=
  let weff : Int := d.redw + s.raise
  let win := inWindows d.dst
  let own (a : Nat) : Bool := (ownOff s.self t a).isSome
  let (n, len) := d.dlines
  let ss := deSize d.stype
  let ds := if d.mode = 4 then 16 else deSize d.dtype
  if top != 0 || bits w2 63 62 != 0 || d.mode > 4 || d.lsig == 3 || d.stype > 8 || d.dtype > 8
      || (d.mode < 3 && bits w3 46 30 != 0) || (d.mode == 4 && (bits w3 46 40 != 0 || d.dtype != 0 || !windowOk weff))
  then some (1, 0)
  else if (d.mode != 4 && (!deConv d.stype d.dtype || (d.stype == 0 && (d.mode == 1 || d.mode == 2))
        || (d.stype == 8 && d.dtype == 8 && d.mode != 0) || (!win && d.stype != d.dtype)))
      || (d.mode == 4 && (!(d.stype == 2 || d.stype == 8) || d.lsig != 0))
      || (d.mode == 2 && !(d.dtype == 1 || d.dtype == 2 || d.dtype == 7))
      || (d.lsig == 1 && !win) || (d.mode == 3 && d.mstride == 0 && d.mcount > 1)
  then some (2, 0)
  else if (d.mode < 2 && !(own d.src || own d.dst)) || (d.mode == 2 && !own d.dst)
      || (d.mode == 3 && !(win && d.dst / 2 ^ 48 == s.self)) || (d.mode == 4 && !(own d.src && inStore d.dst))
  then some (7, 0)
  else if d.empty then none
  else if d.src % ss != 0 || d.sstride % (ss : Int) != 0 || d.line % (if d.stype = 8 then 64 else ss) != 0
      || d.dst % ds != 0 || d.dstride % (ds : Int) != 0
  then some (3, 0)
  else if (d.mode == 0 || d.mode == 1 || d.mode == 3) && n > 1 && decide (d.dstride.natAbs < len) then some (4, 0)
  else
    match s.descFault t d.moved with
    | some a => some (5, a)
    | none => if d.mode == 3 && d.targets.any (fun x => decide (x > 1535)) then some (6, 0) else none

/-! ## Pieces -/

/-- One read of a transfer. -/
structure Piece where
  line : Nat
  /-- BS16: the group of blocks that it belongs to, numbered over the transfer. -/
  unit : Nat
  /-- Offset in the line. -/
  off  : Nat
  addr : Nat
  len  : Nat
  deriving DecidableEq, Repr

/-- Cut `n` bytes at `a` so that no piece crosses a 256-byte boundary (R172). -/
def cutRead (line unit : Nat) : Nat → Nat → Nat → Nat → List Piece
  | 0, _, _, _ => []
  | fuel + 1, off, a, n =>
    if n = 0 then []
    else
      let k := min n (256 - a % 256)
      ⟨line, unit, off, a, k⟩ :: cutRead line unit fuel (off + k) (a + k) (n - k)

/-- Mantissa bytes of a group of BS16 blocks: 32 blocks. -/
def bsGroup : Nat := 2048

/-- Groups of blocks in a BS16 line. -/
def Desc.groups (d : Desc) : Nat := (d.line + bsGroup - 1) / bsGroup

/-- The reads of group `u` of BS16 line `j` at `a`: its mantissa records, then its header records (R186). DEDUCED (log entry 127):
a line is read and used in groups of 32 blocks, so that a line of any length passes the response buffer. -/
def Desc.groupReads (d : Desc) (j u a : Nat) : List Piece :=
  let o := u * bsGroup
  let n := min bsGroup (d.line - o)
  cutRead j (j * d.groups + u) (n + 1) o (a + o) n
    ++ cutRead j (j * d.groups + u) (n + 1) (d.line + o / 8) (a + d.line + o / 8) (n / 8)

/-- The reads of a transfer whose source is not the own scratchpad, in the order in which they are issued. -/
def Desc.pieces (d : Desc) : List Piece :=
  (upFrom 0 d.nlines).flatMap (fun (j : Nat) =>
    let a := ((d.src : Int) + j * d.sstride).toNat
    if d.stype = 8 then (upFrom 0 d.groups).flatMap (fun u => d.groupReads j u a) else cutRead j 0 (d.slen + 1) 0 a d.slen)

/-- A write packet's address, types and payload. -/
structure WPiece where
  addr  : Nat
  stype : Nat
  dtype : Nat
  data  : List Byte
  deriving DecidableEq, Repr

/-- Cut destination-type bytes at 256-byte boundaries. -/
def cutRaw : Nat → Nat → List Byte → List WPiece
  | 0, _, _ => []
  | fuel + 1, a, d =>
    if d.isEmpty then []
    else
      let k := 256 - a % 256
      ⟨a, 0, 0, d.take k⟩ :: cutRaw fuel (a + k) (d.drop k)

/-- Cut source bytes for conversion at a remote landing (R186): at most 256 source bytes (3 BS16 blocks) a packet, no
destination boundary crossed; a BS16 block that would cross one is converted here. -/
def cutWrite (st dt : Nat) : Nat → Nat → List Byte → List WPiece
  | 0, _, _ => []
  | fuel + 1, a, d =>
    if d.isEmpty then []
    else
      let room := 256 - a % 256
      let k := min (room / unitDst st dt) (256 / unitSrc st)
      if k = 0 then
        cutRaw 3 a (convertBytes st dt (d.take (unitSrc st)))
          ++ cutWrite st dt fuel (a + unitDst st dt) (d.drop (unitSrc st))
      else
        ⟨a, st, dt, d.take (k * unitSrc st)⟩ :: cutWrite st dt fuel (a + k * unitDst st dt) (d.drop (k * unitSrc st))

/-- The ACCUM payloads of one REDUCE line of `e` elements (R223): first element and bytes. -/
def cutReduce (st : Nat) (d : List Byte) : List (Nat × List Byte) :=
  let sz := if st = 8 then 216 else 256
  let per := if st = 8 then 96 else 128
  let ps := chunks sz d.length d
  ((upFrom 0 ps.length).map (per * ·)).zip ps

end Sys2Proof.Machine
end

