-- ==== Sys2Proof/Machine/XSchedule.lean ====
section
/-! DEFINITION. When the transfers of exchange entries access the scratchpad (R109, R164 to R166), and the exchange slots of a
tile in one cycle. -/

namespace Sys2Proof.Machine

/-- Lane fc of transfer `i` of entry `e`. -/
def State.xferFc (s : State) (t e i : Nat) : Nat :=
  s.fld F.XC_XPE_START t e + i * s.fld F.XC_XPE_PERIOD t e

/-- Global row of transfer `i`. -/
def State.xferRow (s : State) (t e i : Nat) : Int :=
  (s.fld F.XC_XPE_ROW t e : Int) + i * signed 16 (s.fld F.XC_XPE_ROWSTEP t e)

/-- Segment cycle in which transfer `i` has its scratchpad access: two before for a send, one after for a receive. -/
def State.xferTc (s : State) (t e i : Nat) : Nat :=
  if s.fld F.XC_XPE_DIR t e = 0 then s.xferFc t e i / 2 - 2 else s.xferFc t e i / 2 + 1

/-- The entry runs in segments of the present class (R164). -/
def State.entryRuns (s : State) (t e : Nat) : Bool :=
  s.fld F.XC_XP_CFG_EN t 0 == 1 && decide (e ≤ s.fld F.XC_XP_CFG_LAST t 0)
    && bit (s.fld F.XC_XPE_CLASSMASK t e) s.esc.cls && (s.physOf t).isSome

/-- Place of a transfer in the port order of R109: receive row 0 and 1, then send row 0 and 1. -/
def State.portOrder (s : State) (t : Nat) (x : Nat × Nat) : Nat :=
  (if s.fld F.XC_XPE_DIR t x.1 = 0 then 2 else 0) + s.xferFc t x.1 x.2 % 2

/-- Transfers of entry `e` whose access falls in the present cycle: the two lane fc of that cycle. -/
def State.entryDue (s : State) (t e : Nat) : List (Nat × Nat) :=
  let start := s.fld F.XC_XPE_START t e
  let p := max 1 (s.fld F.XC_XPE_PERIOD t e)
  [0, 1].filterMap (fun k =>
    let fc := 2 * (if s.fld F.XC_XPE_DIR t e = 0 then s.cycleNow + 2 else s.cycleNow - 1) + k
    let i := (fc - start) / p
    if start ≤ fc ∧ i < s.fld F.XC_XPE_COUNT t e ∧ s.xferFc t e i = fc ∧ s.xferTc t e i = s.cycleNow then some (e, i) else none)

/-- The compiled transfers of tile `t` whose access falls in the present cycle, in port order (R109). -/
def State.xDue (s : State) (t : Nat) : List (Nat × Nat) :=
  if !s.ticking || s.fld F.XC_XP_CFG_EN t 0 != 1 then []
  else
    let l := ((upFrom 0 (s.fld F.XC_XP_CFG_LAST t 0 + 1)).filter (s.entryRuns t)).flatMap (s.entryDue t)
    (upFrom 0 4).flatMap (fun k => l.filter (fun x => s.portOrder t x == k))

/-- Bank of a transfer's row. -/
def State.xferBank (s : State) (t : Nat) (x : Nat × Nat) : Nat := (s.bankOf t (s.xferRow t x.1 x.2).toNat).1

/-- A transfer of the present cycle meets one before it in port order in its bank: it is not performed (R109). -/
def State.xMeets (s : State) (t e i : Nat) : Bool :=
  ((s.xDue t).takeWhile (fun x => x != (e, i))).any (fun x => s.xferBank t x == s.xferBank t (e, i))

/-- The exchange slot of the bank of row `g` is open to a packetised access, a write where `wr` holds: the tiles run, and no
compiled access of this cycle takes it (R55, R109). DESIGN CHOICE (log entry 121): a write that arrives when the tile slot has
written its row in this cycle waits for the next, for R111 applies it first. -/
def State.slotOpen (s : State) (t g : Nat) (wr : Bool) : Bool :=
  let b := (s.bankOf t g).1
  s.esc.live && !(wr && (s.tile t).did.contains (tookRow g)) && !(s.tile t).xUse.contains b
    && !(s.xDue t).any (fun x => s.xferBank t x == b)

/-- Bytes of the compiled transfers of the present cycle, received where `wr` holds, else sent. -/
def State.compiledBytes (s : State) (t : Nat) (wr : Bool) : Nat :=
  32 * ((s.xDue t).filter (fun x => (s.fld F.XC_XPE_DIR t x.1 != 0) == wr)).length

/-- The exchange port passes `n` more packetised bytes in the present cycle: at most 64 in each direction with the compiled
transfers (R105, R190). -/
def State.portRoom (s : State) (t n : Nat) (wr : Bool) : Bool :=
  decide (s.compiledBytes t wr + (if wr then (s.tile t).xIn else (s.tile t).xOut) + n ≤ 64)

end Sys2Proof.Machine
end

