-- ==== Sys2Proof/Machine/FetchEngine.lean ====
section
/-! DEFINITION. The fetch engine and the order of a tile's writes and signals (R182 to R198, R91): FETCH, starting
and completing descriptors, landings, multicast rounds, FENCE.W and SIG.R. -/

namespace Sys2Proof.Machine

/-! ## Landings (R109, R175, R188) -/

/-- The access reads: a READ_REQ, or a line of the own scratchpad. -/
def Landing.reads (l : Landing) : Bool := l.read.isSome || l.piece.isSome

/-- Bytes that a landing still has to access. -/
def Landing.len (l : Landing) : Nat := if l.reads then l.want else l.data.length

/-- Rows that it takes in a buffer. -/
def Landing.rows (l : Landing) : Nat := (l.len + 31) / 32

/-- Rows that it takes in the landing buffer: all of them for a packet of another unit, those moved there from the response buffer
for data of an own descriptor (R177). -/
def Landing.inBuffer (l : Landing) : Nat :=
  if l.seq.isNone then l.rows else if l.piece.isNone then min l.held l.rows else 0

/-- Rows of landings that wait in the landing buffer. -/
def Tile.waitRows (q : Tile) : Nat := (q.landing.map Landing.inBuffer).foldl (· + ·) 0

/-- Rows of the landing buffer in use: those of landings that wait, and rows granted to multicast rounds. -/
def Tile.landRows (q : Tile) : Nat := q.waitRows + q.granted

/-- Rows of the landing buffer that are not free: those in use, and those that flits of packets not yet decoded hold
(Table 6.6). -/
def State.landUsed (s : State) (t : Nat) : Nat := (s.tile t).landRows + s.credits.read 0 (creditKey 1 t 0)

/-- Rows of `n` bytes. -/
def rowCount (n : Nat) : Nat := (n + 31) / 32

/-- Descriptor `n` reads elsewhere than in the own scratchpad. -/
def Tile.fetched (q : Tile) (dev t n : Nat) : Bool :=
  q.fetch.flights.any (fun x => x.desc.seq == n && (ownOff dev t x.desc.src).isNone)

/-- Rows of the 512-row response buffer in use (R182): of reads outstanding, of data parked for its line or its order, of
multicast rounds that still hold read data, and of landings that wait there. -/
def Tile.rspRows (q : Tile) (dev t : Nat) : Nat :=
  let sum (l : List Nat) : Nat := l.foldl (· + ·) 0
  sum (q.fetch.reads.map (fun r => rowCount r.len))
    + sum ((q.fetch.flights.filter (fun x => q.fetched dev t x.desc.seq)).flatMap (fun x => x.parked.map (fun e => rowCount e.2.length)))
    + sum (((q.fetch.mc.toList ++ q.fetch.mcTodo).filter (fun r => q.fetched dev t r.seq)).map (fun r => rowCount r.data.length))
    + sum ((q.landing.filter (fun l => l.seq.isSome && l.piece.isNone)).map (fun l => l.rows - l.inBuffer))

/-- The tiles' exchange slots run: the present edge is delivered (R52, R55). -/
def State.slotsRun (s : State) : Bool := s.esc.live

/-- One less landing of a descriptor waits. -/
def Fetch.landedOne (f : Fetch) (seq : Option Nat) : Fetch :=
  match seq with
  | none => f
  | some n => { f with flights := f.flights.map (fun x => if x.desc.seq = n then { x with waiting := x.waiting - 1 } else x) }

/-- Change the flight of a descriptor. -/
def State.updFlight (s : State) (t seq : Nat) (g : Flight → Flight) : State :=
  s.updTile t (fun q => { q with fetch := { q.fetch with
    flights := q.fetch.flights.map (fun x => if x.desc.seq = seq then g x else x) } })

/-- A landing is whole: its signal, then its ACK, or the answer of a read (R175, R188); a line of the own scratchpad is ready for
use. -/
def State.landDone (s : State) (t : Nat) (l : Landing) : State :=
  match l.piece with
  | some k => s.updFlight t (l.seq.getD 0) (fun x => { x with parked := x.parked.put k l.got })
  | none =>
  let s := match l.sig with
    | some (k, n) => s.applySig k n l.unit l.dev
    | none => s
  let s := s.updTile t (fun q => { q with fetch := q.fetch.landedOne l.seq })
  let s := match l.ack with
    | some p => s.send 2 t p
    | none => s
  match l.read with
  | some p => s.send 2 t (rspOf p s.self 0 l.got)
  | none => s

/-- Bytes of the next access of a landing: those in its row; an accumulate takes the elements that begin in it. -/
def Landing.step (l : Landing) : Nat :=
  let room := 32 - l.off % 32
  match l.acc with
  | none => min room l.len
  | some ty => min ((room + accSize ty - 1) / accSize ty * accSize ty) l.len

/-- A landing writes destination bytes of an own TRANSPOSE. -/
def State.transposes (s : State) (t : Nat) (l : Landing) : Bool :=
  l.piece.isNone && l.seq.any (fun n => (s.tile t).fetch.flights.any (fun x => x.desc.seq == n && x.desc.mode == 1))

/-- The next row of a landing, in its bank's exchange slot. -/
def State.landRow (s : State) (t : Nat) (l : Landing) : State × Landing :=
  let k := l.step
  let tr := s.transposes t l
  let s := s.updTile t (fun q => { q with xUse := (s.bankOf t (l.off / 32)).1 :: q.xUse
                                          xIn := if l.reads then q.xIn else q.xIn + k
                                          xOut := if l.reads then q.xOut + k else q.xOut
                                          xTrans := if tr then q.xTrans + k else q.xTrans })
  if l.reads then
    let (d, s) := s.spRead t l.kind l.off k
    (s, { l with off := l.off + k, want := l.want - k, got := l.got ++ d })
  else
    (match l.acc with
      | none => s.spWrite t l.kind l.off (l.data.take k)
      | some ty => s.spAccum t l.kind ty none l.off (l.data.take k), { l with off := l.off + k, data := l.data.drop k })

/-- The next row of a landing may be accessed in the present cycle: its exchange slot is open, the port moves at most 64 bytes in
each direction in a tc (R105), and TRANSPOSE writes at most 16 of them in an fc (R190). -/
def State.landOpen (s : State) (t : Nat) (l : Landing) : Bool :=
  s.slotOpen t (l.off / 32) (!l.reads) && s.portRoom t l.step (!l.reads)
    && !(s.transposes t l && decide (32 < (s.tile t).xTrans + l.step))

/-- Access the rows of a landing in order while their exchange slots are open; none when it is whole. -/
def State.landRun (s : State) (t : Nat) : Nat → Landing → State × Option Landing
  | 0, l => (s, some l)
  | fuel + 1, l =>
    if l.len = 0 then (s.landDone t l, none)
    else if !s.landOpen t l then (s, some l)
    else let (s, l) := s.landRow t l; State.landRun s t fuel l

/-- Data of own descriptors that waits moves from the response buffer to free rows of the landing buffer, oldest first (R177). -/
def State.landFill (s : State) (t : Nat) : State :=
  let ls := (s.tile t).landing
  if ls.all (fun l => l.seq.isNone || l.piece.isSome) then s
  else
    let x := ls.foldl (fun (a : Nat × List Landing) l =>
      if l.seq.isNone || l.piece.isSome then (a.1, a.2 ++ [l])
      else let k := min a.1 (l.rows - l.inBuffer); (a.1 - k, a.2 ++ [{ l with held := l.inBuffer + k }])) (16 - s.landUsed t, [])
    s.updTile t (fun q => { q with landing := x.2 })

/-- The packetised accesses that wait obtain what slots are open, in order of arrival (R109); the landings of one ACCUM
descriptor keep their order (R185). -/
def State.landPump (s : State) (t : Nat) : State :=
  match (s.tile t).landing with
  | [] => s
  | ls =>
    let (s, rest) := ls.foldl (fun (a : State × List Landing) l =>
      if l.acc.isSome && l.seq.isSome && a.2.any (fun m => m.seq == l.seq) then (a.1, a.2 ++ [l])
      else
        match a.1.landRun t (l.rows + 2) l with
        | (s, none) => (s, a.2)
        | (s, some l) => (s, a.2 ++ [l])) (s, [])
    (s.updTile t (fun q => { q with landing := rest })).landFill t

/-- A landing arrives: it is accessed at once as far as its slots are open and nothing waits before it, else it waits. -/
def State.landArrive (s : State) (t : Nat) (l : Landing) : State :=
  if (s.tile t).landing.isEmpty then
    match s.landRun t (l.rows + 2) l with
    | (s, none) => s
    | (s, some l) => (s.updTile t (fun q => { q with landing := [l] })).landFill t
  else (s.updTile t (fun q => { q with landing := q.landing ++ [l] })).landPump t

/-! ## What a transfer sends -/

/-- Counter a landing signal names: tile counter LIDX of the tile at `a`, or a device counter (Table 6.7). -/
def landCref (lsig lidx a : Nat) : Nat :=
  if lsig = 1 then windowTile a * 65536 + lidx % 64 else 2 ^ 30 + lidx

/-- Send a packet whose ACK the tile awaits. -/
def State.sendWrite (s : State) (t seq : Nat) (mk : Nat → Packet) : State :=
  let q := s.tile t
  let tag := q.fetch.nextTag
  let p := mk tag
  let f := { q.fetch with nextTag := (tag + 1) % 65536, writes := q.fetch.writes ++ [⟨tag, seq, [p.dest], 1⟩] }
  ((s.setTile t { q with fetch := f }).addFld F.XC_PERF_PBYTES_COUNT t 0 p.payload.length).send 0 t p

/-- A WRITE of the fetch engine. -/
def State.sendPiece (s : State) (t : Nat) (d : Desc) (w : WPiece) : State :=
  s.sendWrite t d.seq (fun tag => mkPacket
    { dest := w.addr, unit := unitId 1 t, dev := s.self, kind := 1, stype := w.stype, dtype := w.dtype
      len := w.data.length, cref := if d.lsig = 0 then 0 else landCref d.lsig d.lidx w.addr
      n := b2n (d.lsig != 0), tag := tag, payload := w.data })

/-- Send bytes to another unit's memory; outside scratchpads they take no conversion (R186). -/
def State.sendBytes (s : State) (t : Nat) (d : Desc) (a st dt : Nat) (data : List Byte) : State :=
  let (st, dt) := if inWindows a then (st, dt) else (0, 0)
  (cutWrite st dt (data.length + 1) a data).foldl (fun s w => s.sendPiece t d w) s

/-- Bytes of the destination type land in the own scratchpad (R193). -/
def State.landOwn (s : State) (t : Nat) (d : Desc) (a : Nat) (data : List Byte) : State :=
  match ownOff s.self t a with
  | none => s
  | some o =>
    let s := s.updTile t (fun q => { q with fetch := { q.fetch with
      flights := q.fetch.flights.map (fun x => if x.desc.seq = d.seq then { x with waiting := x.waiting + 1 } else x) } })
    s.landArrive t
      { off := o, data := data, acc := if d.mode = 2 then some (deAcc d.dtype) else none, kind := 4
        sig := if d.lsig = 0 then none else (crefKey none (landCref d.lsig d.lidx a)).map (fun k => (k, data.length))
        read := none, want := 0, got := [], ack := none, seq := some d.seq, held := 0, piece := none, unit := unitId 1 t, dev := s.self }

/-! ## Multicast (R180) -/

/-- Send the RESERVE of the next target: N carries the rows asked for (log entry 25). -/
def State.mcReserve (s : State) (t : Nat) (r : McRound) : State :=
  let q := s.tile t
  let tag := q.fetch.nextTag
  let a := sysAddr s.self (spBase + (r.targets.getD r.granted 0) * 0x200000 + r.off)
  let s := s.setTile t { q with fetch := { q.fetch with
    nextTag := (tag + 1) % 65536, mc := some { r with tag := tag } } }
  s.send 0 t (mkPacket { dest := a, unit := unitId 1 t, dev := s.self, kind := 8, n := (r.data.length + 31) / 32
                         tag := tag })

/-- Units in which the source bytes of a flight are used: lines of the own scratchpad, groups of BS16 blocks, or pieces. -/
def Flight.units (x : Flight) (dev t : Nat) : Nat :=
  if (ownOff dev t x.desc.src).isSome then x.desc.nlines
  else if x.desc.stype = 8 then x.desc.nlines * x.desc.groups else x.desc.pieces.length

/-- Every source byte of a flight has been used. -/
def Flight.allUsed (x : Flight) (dev t : Nat) : Bool := x.landed == x.units dev t

/-- Begin the next round when none is in progress; with none left the descriptor's last packet has issued. -/
def State.mcNext (s : State) (t : Nat) : State :=
  let q := s.tile t
  match q.fetch.mc, q.fetch.mcTodo with
  | none, r :: rest => (s.setTile t { q with fetch := { q.fetch with mcTodo := rest } }).mcReserve t r
  | none, [] =>
    s.setTile t { q with fetch := { q.fetch with
      flights := q.fetch.flights.map (fun x =>
        if x.desc.mode = 3 && x.allUsed s.self t then { x with sentAll := true } else x) } }
  | some _, _ => s

/-- The payload leaves once; the crossbars copy it to every target (R180). -/
def State.mcSend (s : State) (t : Nat) (r : McRound) : State :=
  let q := s.tile t
  let tag := q.fetch.nextTag
  let addr (x : Nat) : Nat := sysAddr s.self (spBase + x * 0x200000 + r.off)
  let pk (x : Nat) : Packet := mkPacket
    { dest := addr x, unit := unitId 1 t, dev := s.self, kind := 1, mc := true, stype := r.stype
      dtype := r.dtype, len := r.data.length, cref := if r.lsig = 0 then 0 else landCref r.lsig r.lidx (addr x)
      n := b2n (r.lsig != 0), tag := tag, payload := r.data }
  let f := { q.fetch with nextTag := (tag + 1) % 65536, mc := none
                          writes := q.fetch.writes ++ [⟨tag, r.seq, r.targets.map addr, r.targets.length⟩] }
  let s := (s.setTile t { q with fetch := f }).addFld F.XC_PERF_PBYTES_COUNT t 0 r.data.length
  match r.targets with
  | [] => s
  | x :: xs => { s with net := s.net ++ [⟨pk x, [(sourceSpot 0 t, (pk x).flits)], 0, xs.map pk, none⟩] }

/-- A GRANT of the round in progress (R180): the next RESERVE, or after the last target the payload. -/
def State.mcGranted (s : State) (t : Nat) (r : McRound) : State :=
  let r := { r with granted := r.granted + 1 }
  if r.granted < r.targets.length then s.mcReserve t r else (s.mcSend t r).mcNext t

/-! ## Using read data (R185) -/

/-- Rounds of an MCAST line (R180): cut as for one target, since every target takes the same offset. -/
def State.mcLine (s : State) (t : Nat) (d : Desc) (a : Nat) (data : List Byte) : State :=
  let rs := (cutWrite d.stype d.dtype (data.length + 1) a data).map (fun w =>
    { seq := d.seq, targets := d.targets, off := w.addr % 0x200000, stype := w.stype, dtype := w.dtype
      data := w.data, lsig := d.lsig, lidx := d.lidx, granted := 0, tag := 0 : McRound })
  s.updTile t (fun q => { q with fetch := { q.fetch with mcTodo := q.fetch.mcTodo ++ rs } })

/-- The ACCUM packets of one REDUCE line (R223). -/
def State.reduceLine (s : State) (t : Nat) (d : Desc) (a : Nat) (data : List Byte) : State :=
  let w : Int := d.redw + s.raise
  (cutReduce d.stype data).foldl (fun s p =>
    s.sendWrite t d.seq (fun tag =>
      accumPkt (a + 16 * p.1) (unitId 1 t) s.self (if d.stype = 8 then 1 else 0) w tag p.2)) s

/-- Use source bytes of line `j` that begin `off` bytes into it; BS16 comes as whole blocks, mantissa records first. -/
def State.useData (s : State) (t : Nat) (d : Desc) (j off : Nat) (raw : List Byte) : State :=
  let body := if d.stype = 8 then lineBlocks raw else raw
  let e := off / deSize d.stype
  let ds := deSize d.dtype
  let line (k : Nat) : Nat := ((d.dst : Int) + k * d.dstride).toNat
  match d.mode with
  | 1 =>
    let cv := chunks ds body.length.succ (convertBytes d.stype d.dtype body)
    ((upFrom 0 cv.length).zip cv).foldl (fun s p => s.landOwn t d (line (e + p.1) + j * ds) p.2) s
  | 3 => s.mcLine t d (line j + e * ds) body
  | 4 => s.reduceLine t d (line j) body
  | _ =>
    if (ownOff s.self t d.dst).isSome then s.landOwn t d (line j + e * ds) (convertBytes d.stype d.dtype body)
    else s.sendBytes t d (line j + e * ds) d.stype d.dtype body

/-- TRANSPOSE of whole lines to elsewhere: the issuing engine converts every element itself (R186). -/
def State.transposeOut (s : State) (t : Nat) (d : Desc) (lines : List (List Byte)) : State :=
  let ds := deSize d.dtype
  let cv := lines.map (fun raw =>
    convertBytes d.stype d.dtype (if d.stype = 8 then lineBlocks raw else raw))
  (upFrom 0 (d.line / deSize d.stype)).foldl (fun s (k : Nat) =>
    s.sendBytes t d ((d.dst : Int) + k * d.dstride).toNat 0 0 (cv.flatMap (fun l => (l.drop (k * ds)).take ds))) s

/-- Whether pieces are used in order: BS16 groups of blocks, ACCUM ascending (R185). -/
def Desc.inOrder (d : Desc) : Bool := d.stype == 8 || d.mode == 2

/-- Pieces that unit `u` of an in-order transfer needs: those of group `u`, or piece `u`. -/
def Desc.unitPieces (d : Desc) (u : Nat) : List (Nat × Piece) :=
  let ps := (upFrom 0 d.pieces.length).zip d.pieces
  if d.stype = 8 then ps.filter (fun p => p.2.unit == u) else ps.filter (fun p => p.1 == u)

/-- The flight of a descriptor. -/
def Fetch.flight (f : Fetch) (seq : Nat) : Option Flight := f.flights.find? (fun x => x.desc.seq == seq)

/-- Use parked pieces while the next unit is whole. -/
def State.settle (s : State) (t seq : Nat) : Nat → State
  | 0 => s
  | fuel + 1 =>
    match (s.tile t).fetch.flight seq with
    | none => s
    | some f =>
      let ps := f.desc.unitPieces f.landed
      if ps.isEmpty || ps.any (fun p => f.parked.all (fun e => e.1 != p.1)) then s
      else
        let raw := ps.flatMap (fun p => f.parked.read [] p.1)
        let j := (ps.head?.map (fun p => p.2.line)).getD 0
        let off := (ps.head?.map (fun p => p.2.off)).getD 0
        let s := s.updFlight t seq (fun x => { x with landed := x.landed + 1
                                                      parked := x.parked.keep (fun k => !ps.any (fun p => p.1 == k)) })
        State.settle (s.useData t f.desc j off raw) t seq fuel

/-- Data of piece `k` has come (R185): it is used at once, or parked for its line or its order. -/
def State.gotData (s : State) (t seq k : Nat) (data : List Byte) : State :=
  match (s.tile t).fetch.flight seq with
  | none => s
  | some f =>
    let s :=
      if f.desc.inOrder then
        (s.updFlight t seq (fun x => { x with parked := x.parked.put k data })).settle t seq (f.desc.pieces.length + 1)
      else
        match f.desc.pieces[k]? with
        | some p => (s.useData t f.desc p.line p.off data).updFlight t seq (fun x => { x with landed := x.landed + 1 })
        | none => s
    if f.desc.mode = 3 then s.mcNext t else s

/-! ## Starting, issuing, completing (R182, R187 to R192) -/

/-- The own scratchpad may be read (R192): 6 tc have passed and every core store before the FETCH is written. -/
def State.ownReadOk (s : State) (t : Nat) (d : Desc) : Bool :=
  s.slotsRun && decide (d.tc + 6 ≤ s.esc.tc)
    && !(s.tile t).groups.any (fun g => g.items.any (fun i => decide (i.cyc < d.cyc)))
    && !(s.tile t).wides.any (fun w => decide (w.cyc < d.cyc))

/-- The landing signal of a descriptor that moves nothing has an increment of 0 (R187). -/
def State.zeroSignal (s : State) (t : Nat) (d : Desc) : State :=
  let dev := d.dst / 2 ^ 48
  if d.lsig = 0 then s
  else if d.lsig = 2 then s.emitSig (unitId 1 t) false (some t) (2 ^ 30 + d.lidx) 0 dev 0 t
  else
    (if d.mode = 3 then d.targets else [windowTile d.dst]).foldl (fun s x =>
      s.emitSig (unitId 1 t) false (some t) (x * 65536 + d.lidx % 64) 0 dev 0 t) s

/-- A TRANSPOSE out of the own scratchpad to elsewhere: its destination lines need every source line. -/
def State.ownGathers (s : State) (t : Nat) (d : Desc) : Bool := d.mode == 1 && (ownOff s.self t d.dst).isNone

/-- Queue the read of the next line of an own-scratchpad source at offset `o` of the scratchpad: it takes the exchange slots of its
rows in its turn (R105, R109). -/
def State.ownRead (s : State) (t : Nat) (f : Flight) (o : Nat) : State :=
  let d := f.desc
  (s.updFlight t d.seq (fun x => { x with issued := x.issued + 1 })).landArrive t
    { off := ((o : Int) + f.issued * d.sstride).toNat, data := [], acc := none, kind := 4, read := none, want := d.slen, got := []
      sig := none, ack := none, seq := some d.seq, held := 0, piece := some f.issued, unit := unitId 1 t, dev := s.self }

/-- Use the lines of an own-scratchpad source that have been read and not used. -/
def State.ownUse (s : State) (t : Nat) (f : Flight) : State :=
  let d := f.desc
  if s.ownGathers t d then
    if f.issued < d.nlines then s
    else
      (s.updFlight t d.seq (fun x => { x with parked := [], landed := d.nlines })).transposeOut t d
        ((upFrom 0 d.nlines).map (f.parked.read []))
  else
    let j := f.landed
    (s.updFlight t d.seq (fun x => { x with parked := x.parked.keep (· != j), landed := j + 1 })).useData t d j 0 (f.parked.read [] j)

/-- An own-scratchpad source whose latest line has been read, and the offset of its first line. -/
def State.ownReady (s : State) (t : Nat) : Option (Flight × Nat) :=
  (s.tile t).fetch.flights.findSome? (fun f =>
    if 0 < f.issued ∧ f.landed < f.desc.nlines ∧ f.parked.any (fun e => e.1 + 1 == f.issued) then
      (ownOff s.self t f.desc.src).map (fun o => (f, o))
    else none)

/-- A line of an own-scratchpad source has been read: it is used, and the next is read, while slots are open (log entry 127). -/
def State.ownPump (s : State) (t : Nat) : Nat → State
  | 0 => s
  | fuel + 1 =>
    match s.ownReady t with
    | none => s
    | some (f, o) =>
      let s := s.ownUse t f
      let s := if f.desc.mode = 3 then s.mcNext t else s
      if f.issued < f.desc.nlines then
        match (s.tile t).fetch.flight f.desc.seq with
        | some g => State.ownPump (s.ownRead t g o) t fuel
        | none => s
      else if f.desc.mode = 3 then s else s.updFlight t f.desc.seq (fun x => { x with sentAll := true })

/-- FETCH_DESCRIPTOR_START (R182): the head of the queue starts once no earlier descriptor issues packets and no
FENCE.W holds it back; with the own scratchpad as source its first line is read as far as exchange slots are open. -/
def State.fetchStart (s : State) (t : Nat) : State :=
  let q := s.tile t
  match q.fetch.queue with
  | [] => s
  | d :: rest =>
    let own := ownOff s.self t d.src
    if !s.esc.live || q.fetch.flights.any (fun x => !x.sentAll) || decide (d.epoch > q.order.done)
        || (own.isSome && !d.empty && !s.ownReadOk t d) then s
    else
      let fl : Flight := { desc := d, issued := 0, parked := [], landed := 0, waiting := 0, sentAll := false }
      let s := s.setTile t { q with fetch := { q.fetch with queue := rest, flights := q.fetch.flights ++ [fl] } }
      if d.empty then (s.zeroSignal t d).updFlight t d.seq (fun x => { x with sentAll := true })
      else
        match own with
        | some o => (s.ownRead t fl o).ownPump t 4
        | none => s

def execFetchDescriptorStart (t : Nat) (s : State) : Out := guardUnit (tileOk t) (s.fetchStart t)

/-- FETCH_READ_ISSUE (R182): the next READ_REQ of the descriptor that issues, when fewer than 64 are outstanding and
the response buffer has its rows free. -/
def State.fetchReadIssue (s : State) (t : Nat) : State :=
  let q := s.tile t
  match q.fetch.flights.find? (fun x => !x.sentAll && (ownOff s.self t x.desc.src).isNone) with
  | none => s
  | some f =>
    match f.desc.pieces[f.issued]? with
    | none => s
    | some p =>
      if !s.esc.live ∨ q.fetch.reads.length ≥ 64 ∨ q.rspRows s.self t + rowCount p.len > 512 then s
      else
        let tag := q.fetch.nextTag
        let last := decide (f.issued + 1 = f.desc.pieces.length) && f.desc.mode != 3
        let s := s.setTile t { q with fetch := { q.fetch with
          nextTag := (tag + 1) % 65536
          reads := q.fetch.reads ++ [⟨tag, f.desc.seq, f.issued, p.addr, p.len, s.rc⟩]
          flights := q.fetch.flights.map (fun x =>
            if x.desc.seq = f.desc.seq then { x with issued := x.issued + 1, sentAll := last } else x) } }
        s.send 0 t (mkPacket { dest := p.addr, unit := unitId 1 t, dev := s.self, kind := 3, len := p.len, tag := tag })

def execFetchReadIssue (t : Nat) (s : State) : Out := guardUnit (tileOk t) (s.fetchReadIssue t)

/-- Every packet of a flight has been applied and all its data has landed (R189). -/
def Fetch.complete (f : Fetch) (x : Flight) : Bool :=
  x.sentAll && x.waiting == 0 && x.parked.isEmpty && !f.reads.any (fun r => r.seq == x.desc.seq)
    && !f.writes.any (fun w => w.seq == x.desc.seq)

/-- FETCH_DESCRIPTOR_COMPLETE (R189): the oldest complete descriptor signals CIDX if CSIG is set, in a cycle that is delivered
(R52). -/
def State.fetchComplete (s : State) (t : Nat) : State :=
  let q := s.tile t
  match (if s.esc.live then q.fetch.flights.find? q.fetch.complete else none) with
  | none => s
  | some f =>
    let s := s.setTile t { q with fetch := { q.fetch with
      flights := dropFirst (fun x => x.desc.seq == f.desc.seq) q.fetch.flights } }
    if f.desc.csig then s.applySig (tileCtr t f.desc.cidx) 1 (unitId 1 t) s.self else s

def execFetchDescriptorComplete (t : Nat) (s : State) : Out := guardUnit (tileOk t) (s.fetchComplete t)

/-- A READ_REQ of the engine completes with `data` (R191). -/
def State.readDone (s : State) (t : Nat) (r : ReadOut) (data : List Byte) : State :=
  (s.updTile t (fun q => { q with fetch := { q.fetch with
    reads := dropFirst (fun x => x.tag == r.tag) q.fetch.reads } })).gotData t r.seq r.piece data

/-- Record an error of a descriptor of the engine. -/
def State.descFail (s : State) (t code : Nat) (seq addr : Nat) : State :=
  match (s.tile t).fetch.flight seq with
  | some f => s.feErr t code f.desc.mode f.desc.off addr
  | none => s.feErr t code 0 0 addr

/-- READ_TIMEOUT (R191), in a cycle that is delivered: the engine acts on no other edge (R52). -/
def State.readTimeout (s : State) (t tag : Nat) : State :=
  match (s.tile t).fetch.reads.find? (fun r => r.tag == tag) with
  | none => s
  | some r =>
    if s.esc.live ∧ r.sent + s.fld F.XC_FE_CFG_TIMEOUT t 0 ≤ s.rc then
      (s.descFail t 8 r.seq r.addr).readDone t r (zeros r.len)
    else s

def execReadTimeout (t tag : Nat) (s : State) : Out := guardUnit (tileOk t) (s.readTimeout t tag)

/-- Queued RESERVE packets are granted in order of arrival while their rows are free; the GRANT leaves from the row port (R180). -/
def State.pumpReserves (s : State) (t : Nat) : Nat → State
  | 0 => s
  | fuel + 1 =>
    let q := s.tile t
    match q.reserves with
    | [] => s
    | p :: rest =>
      if s.landUsed t + p.n ≤ 16 then
        State.pumpReserves
          ((s.setTile t { q with reserves := rest, granted := q.granted + p.n }).send 14 t
            (mkPacket { dest := sysAddr p.srcDev 0, unit := p.srcUnit, dev := s.self, kind := 9, vc := 1, tag := p.tag }))
          t fuel
      else s

/-- LANDING_BUFFER_WRITE (R109): what waits in the landing buffer obtains the slots that are open. -/
def execLandingBufferWrite (t : Nat) (s : State) : Out :=
  guardUnit (tileOk t) (((s.landPump t).ownPump t 4).pumpReserves t 16)

/-! ## FETCH (R91, R187) -/

/-- Read, check and enqueue the descriptor at offset `o`: the state and the errors of the core. -/
def State.fetchDesc (s : State) (t x o : Nat) (word : Nat) : State × List CoreErr :=
  match (if o % 32 ≠ 0 then [⟨5, 0, word, o⟩] else []) ++ (if o + 32 > spSize then [⟨6, 0, word, spAddr t o⟩] else []) with
  | e :: es => (s, e :: es)
  | [] =>
    let (d, e, s) := s.coreLoad t x o 32
    let v (i : Nat) : Nat := ofBytes ((d.drop (8 * i)).take 8)
    let q := s.tile t
    let desc := decodeDesc (v 0) (v 1) (v 2) (v 3) o x s.esc.tc q.order.epoch q.order.seq
    let errs := e.map (fun c => (⟨c, 0, word, o⟩ : CoreErr))
    match s.descErr t (v 2) (v 3) (bits (v 0) 63 63 + bits (v 1) 63 63) desc with
    | some (c, a) => (s.feErr t c desc.mode o a, errs)
    | none => (s.setTile t { q with fetch := { q.fetch with queue := q.fetch.queue ++ [desc.moved] }
                                    order := { q.order with seq := q.order.seq + 1 } }, errs)

/-- FETCH stalls its word while all 8 entries are occupied (R91). -/
def execFetch (t : Nat) (w : W64) (s : State) : Out :=
  guardUnit (tileOk t)
    (if (s.tile t).fetch.queued ≥ 8 && (s.offer t w).2 then s.stall t F.TL_PERF_QUEUE_COUNT
     else
       s.issue t w (fun s x =>
         let q := s.tile t
         let (s, errs) := s.fetchDesc t x (q.s (fRa (slotA w))).toNat (slotA w)
         (s, { q.fall x with errs := errs })))

end Sys2Proof.Machine
end

