-- ==== Sys2Proof/Machine/Sync.lean ====
section
/-! DEFINITION. Counter operations of the tile and the order of writes and signals (R66 to R71, R90, R193 to R198):
SIG, SIG.R, SIGI, FENCE.W, CONS, READ, WAIT, WAITC. -/

namespace Sys2Proof.Machine

/-! ## Writes not delivered (R193) -/

/-- A write issued and not delivered: the FENCE.W operations before it, its place in the issue order, and a system
address for every part still to be applied. -/
structure PendW where
  epoch : Nat
  seq   : Nat
  addrs : List Nat
  deriving DecidableEq, Repr

/-- What a descriptor that has started still has to deliver. -/
def Fetch.leftAddrs (f : Fetch) (x : Flight) : List Nat :=
  if x.sentAll && x.waiting == 0 && x.parked.isEmpty && !f.reads.any (fun r => r.seq == x.desc.seq) then
    (f.writes.filter (fun w => w.seq == x.desc.seq)).flatMap (·.addrs)
  else x.desc.destAddrs

/-- Writes of an issuer that are not delivered. -/
def State.pendWrites (s : State) : Issuer → List PendW
  | .tile t =>
    let q := s.tile t
    q.memops.map (fun m => ⟨m.epoch, m.seq, [sysAddr s.self (spBase + t * 0x200000 + if m.len = 0 then 0 else m.dst)]⟩)
      ++ q.fetch.queue.map (fun d => ⟨d.epoch, d.seq, d.destAddrs⟩)
      ++ (q.fetch.flights.filter (fun x => !q.fetch.complete x)).map
          (fun x => ⟨x.desc.epoch, x.desc.seq, q.fetch.leftAddrs x⟩)
  | .rve r =>
    (s.root r).outs.filterMap (fun o => match o.op with
      | .write e n _ => some ⟨e, n, [o.addr]⟩
      | _ => none)

/-! ## Issuers -/

def State.orderOf (s : State) : Issuer → Order
  | .tile t => (s.tile t).order
  | .rve r => (s.rve r).order

def State.setOrder (s : State) (u : Issuer) (o : Order) : State :=
  match u with
  | .tile t => s.updTile t (fun q => { q with order := o })
  | .rve r => s.updRve r (fun v => { v with order := o })

/-- Unit identifier of an issuer of signals (Table 2.15). -/
def issuerUnit : Issuer → Nat
  | .tile t => unitId 0 t
  | .rve r => unitId 3 r

/-- The tile that SELF names. -/
def issuerOwn : Issuer → Option Nat
  | .tile t => some t
  | .rve _ => none

/-- The buffer an issuer's packets enter (Table 6.6). -/
def issuerBuf : Issuer → Nat × Nat
  | .tile t => (0, t)
  | .rve r => (5, r)

/-! ## Scope of SIG.R (Table 6.9) -/

/-- Whether a write to system address `a` lies in the scope of a SIG.R to counter `k` of device `dev`. -/
def State.inScope (s : State) (k dev a : Nat) : Bool :=
  let here := a / 2 ^ 48 == s.self
  if dev ≠ s.self then !here
  else if k < 0x20000 then here && inWindows a && tileDie (windowTile a) == tileDie (k / 64)
  else if k < 0x30000 then here
  else
    here && (match Machine.place (a % 2 ^ 48) with
      | .store r _ => r == (k - 0x30000) / 128
      | .dram b => s.stackOf b == (k - 0x30000) / 128
      | _ => false)

/-- A signal may leave (R195, R196). -/
def State.canLeave (s : State) (u : Issuer) (h : HeldSig) : Bool :=
  decide (h.epoch ≤ (s.orderOf u).done) &&
    !(h.rel && (s.pendWrites u).any (fun p => decide (p.seq < h.seq) &&
      p.addrs.any (fun a => s.inScope ((crefKey none h.cref.toNat).getD 0) h.dev a)))

/-- A held signal leaves its issuer. -/
def State.depart (s : State) (u : Issuer) (h : HeldSig) : State :=
  s.emitSig (issuerUnit u) h.rel (issuerOwn u) h.cref.toNat h.n h.dev (issuerBuf u).1 (issuerBuf u).2

/-- Issue SIG or SIG.R on counter `k` of device `dev`: it leaves, or is held back (R195, R196). -/
def State.issueSig (s : State) (u : Issuer) (rel : Bool) (k n dev : Nat) : State :=
  let o := s.orderOf u
  let h : HeldSig := ⟨o.epoch, o.seq, rel, BitVec.ofNat 32 (keyCref k), n, dev⟩
  let s := s.setOrder u { o with seq := o.seq + 1 }
  if s.canLeave u h then s.depart u h
  else s.setOrder u { o with seq := o.seq + 1, held := o.held ++ [h] }

/-- The issuer runs in the present cycle: a tile's units act on delivered edges alone (R52), an RVE in freezes too (R55). -/
def State.issuerRuns (s : State) : Issuer → Bool
  | .tile _ => s.esc.live
  | .rve _ => true

/-- FENCE_RELEASE (R195): the oldest FENCE.W whose earlier writes are all delivered lets the plain signals issued
after it leave. -/
def State.fenceRelease (s : State) (u : Issuer) : State :=
  let o := s.orderOf u
  if s.issuerRuns u ∧ o.done < o.epoch ∧ (s.pendWrites u).all (fun p => decide (p.epoch > o.done)) then
    let free (h : HeldSig) : Bool := !h.rel && decide (h.epoch ≤ o.done + 1)
    let s := s.setOrder u { o with done := o.done + 1, held := o.held.filter (fun h => !free h) }
    (o.held.filter free).foldl (fun s h => s.depart u h) s
  else s

def execFenceRelease (u : Issuer) (s : State) : Out := guardUnit u.ok (s.fenceRelease u)

/-- SIG_R_DEPART (R196): the oldest SIG.R whose writes in scope are all delivered leaves. -/
def State.sigRDepart (s : State) (u : Issuer) : State :=
  let o := s.orderOf u
  match (if s.issuerRuns u then o.held.find? (fun h => h.rel && s.canLeave u h) else none) with
  | none => s
  | some h => (s.setOrder u { o with held := dropFirst (fun x => x.seq == h.seq) o.held }).depart u h

def execSigRDepart (u : Issuer) (s : State) : Out := guardUnit u.ok (s.sigRDepart u)

/-- FENCE.W (R195): writes and signals issued from now on follow every earlier write. -/
def State.fence (s : State) (u : Issuer) : State :=
  let o := s.orderOf u
  (s.setOrder u { o with epoch := o.epoch + 1, seq := o.seq + 1 }).fenceRelease u

/-! ## Slot A -/

/-- CREF operand of a slot A sync operation. -/
def State.crefA (s : State) (t : Nat) (a : Nat) : Nat := wbits ((s.tile t).s (fRd a)) 31 0

/-- BAD_CREF (R90): the operation is not performed. -/
def Tile.badCref (q : Tile) (x a cref : Nat) : Flow := { q.fall x with errs := [⟨7, 0, a, cref⟩] }

/-- SIG and SIG.R (R90, R176). -/
def State.sigOp (s : State) (t : Nat) (w : W64) (rel : Bool) : State :=
  let a := slotA w
  s.issue t w (fun s x =>
    let q := s.tile t
    let dev := if fRemote a then wbits (q.s (fRb a)) 14 0 else s.self
    match crefKey (some t) (s.crefA t a) with
    | none => (s, q.badCref x a (s.crefA t a))
    | some k => (s.issueSig (.tile t) rel k (wbits (q.s (fRa a)) 31 0) dev, q.fall x))

def execSig (t : Nat) (w : W64) (s : State) : Out := guardUnit (tileOk t) (s.sigOp t w false)
def execSigR (t : Nat) (w : W64) (s : State) : Out := guardUnit (tileOk t) (s.sigOp t w true)

/-- SIGI: own tile counter IDX, n = IMM16 (R176: always local). -/
def execSigi (t : Nat) (w : W64) (s : State) : Out :=
  let a := slotA w
  guardUnit (tileOk t) (s.issue t w (fun s x =>
    (s.issueSig (.tile t) false (tileCtr t (fIdx a)) (fImm a) s.self, (s.tile t).fall x)))

def execFenceW (t : Nat) (w : W64) (s : State) : Out :=
  guardUnit (tileOk t) (s.issue t w (fun s x => (s.fence (.tile t), (s.tile t).fall x)))

def execCons (t : Nat) (w : W64) (s : State) : Out :=
  let a := slotA w
  guardUnit (tileOk t) (s.issue t w (fun s x =>
    let q := s.tile t
    match crefKey (some t) (s.crefA t a) with
    | none => (s, q.badCref x a (s.crefA t a))
    | some k => (s.queueCons k (wbits (q.s (fRa a)) 31 0) (unitId 0 t), q.fall x)))

/-- S and C of a counter as tile `t` sees them: of a region counter, the shadow on its own tile die (R71). -/
def State.seenBy (s : State) (t k : Nat) : Nat × Nat × State :=
  if k ≥ 0x30000 then s.readShadow (tileDie t) k else ((s.ctr k).s, (s.ctr k).c, s)

def execRead (t : Nat) (w : W64) (s : State) : Out :=
  let a := slotA w
  guardUnit (tileOk t) (s.issue t w (fun s x =>
    match crefKey (some t) (s.crefA t a) with
    | none => (s, (s.tile t).badCref x a (s.crefA t a))
    | some k =>
      let (vs, vc, s) := s.seenBy t k
      (s.updTile t (fun q =>
        (q.putA (fRb a) (BitVec.ofNat 64 vs) (x + ctrLatency t k)).putA (fRb a + 1) (BitVec.ofNat 64 vc)
          (x + ctrLatency t k)), (s.tile t).fall x)))

/-! ## WAIT and WAITC -/

/-- Release latency of a tile's WAIT or WAITC (Table 3.5); the grant of a WAITC on a region counter reaches the tile
after a latency the spec leaves open (R71). -/
def State.releaseLat (s : State) (t k : Nat) (consume : Bool) : Nat × State :=
  if consume && decide (k ≥ 0x30000) then s.draw else (ctrLatency t k, s)

/-- The condition of a WAIT or WAITC holds (Table 2.7). -/
def State.waitHolds (s : State) (t k amt : Nat) (consume : Bool) : Bool × State :=
  if consume then (decide (amt ≤ s.value k), s)
  else
    let (vs, _, s) := s.seenBy t k
    (decide (amt ≤ vs), s)

/-- A request that is met in the present cycle lets its word issue `lat` cycles on, unless that is past the last cycle of the
segment: then the word has not issued and its request is granted nothing (R86). -/
def State.inSegment (s : State) (lat : Nat) : Bool := decide (s.cycleNow + lat ≤ s.esc.len)

/-- The word `p` stalls in the present cycle, and is counted (R90). -/
def State.hold (s : State) (t : Nat) (p : WaitWord) : State :=
  (s.updTile t (fun q => { q with wait := some p })).stall t F.TL_PERF_SYNC_COUNT

/-- WAIT and WAITC (R69, R90): the word stalls; a WAIT that is met has its release latency before it, a WAITC joins those
that are granted in order when the cycle ends. -/
def State.waitOp (s : State) (t : Nat) (w : W64) (consume : Bool) : State :=
  let a := slotA w
  match s.offer t w with
  | (s, false) => s
  | (s, true) =>
    let q := s.tile t
    let x := s.esc.tc
    match crefKey (some t) (s.crefA t a) with
    | none => s.advance t x q.pc (some w) (q.badCref x a (s.crefA t a))
    | some k =>
      let amt := if consume then wbits (q.s (fRa a)) 31 0 else wbits (q.s (fRa a)) 47 0
      if consume ∧ amt = 0 then s.advance t x q.pc (some w) (q.fall x)
      else
        let (ok, s) := if consume then (false, s) else s.waitHolds t k amt consume
        if ok && s.inSegment (ctrLatency t k) then s.hold t ⟨w, k, consume, amt, x, some (x + ctrLatency t k)⟩
        else
          { s.hold t ⟨w, k, consume, amt, x, none⟩ with
            waiters := insertWaiter ⟨unitId 0 t, k, consume, amt⟩ s.waiters }

def execWait (t : Nat) (w : W64) (s : State) : Out := guardUnit (tileOk t) (s.waitOp t w false)
def execWaitc (t : Nat) (w : W64) (s : State) : Out := guardUnit (tileOk t) (s.waitOp t w true)

/-- Release a tile's pending WAIT or grant its WAITC in the present cycle (R69). -/
def State.releaseTile (s : State) (v : Waiter) : State :=
  let t := v.unit
  match (s.tile t).wait with
  | none => s
  | some p =>
    let (lat, s) := s.releaseLat t v.key v.consume
    if !s.inSegment lat then s
    else
      let s := if v.consume then s.applyCons v.key v.amt v.unit s.self else s
      { s.updTile t (fun q => { q with wait := some { p with ready := some (s.esc.tc + lat) } }) with
        waiters := dropFirst (fun x => decide (x = v)) s.waiters }

/-- A word that waits, at the start of a cycle (R69, R86, R90): it issues in the cycle that its latency gives, once slot B's
unit accepts it; else it stalls in this cycle too. -/
def State.retryWait (s : State) (t : Nat) : State :=
  let q := s.tile t
  match q.wait with
  | none => s
  | some p =>
    match p.ready with
    | some c =>
      if s.esc.tc < c then s.stall t F.TL_PERF_SYNC_COUNT
      else if s.acceptB t (slotB p.word) q.s then
        (s.updTile t (fun q => { q with overlay := [] })).advance t s.esc.tc q.pc (some p.word) (q.fall s.esc.tc)
      else s.stall t F.TL_PERF_QUEUE_COUNT
    | none => s.stall t F.TL_PERF_SYNC_COUNT

end Sys2Proof.Machine
end

