-- ==== Sys2Proof/Machine/Filler.lean ====
section
/-! DEFINITION. The filler queue (R157, R261 to R265): MFQ, the passes of its entries and their completion. -/

namespace Sys2Proof.Machine

/-- Failures recorded in MX_ERR: 2 CLASS_MISMATCH, 3 DRAIN_TYPE, 4 DRAIN_BANK (R262). -/
def State.fillerFault (s : State) (t : Nat) (f : Filler) : List Nat :=
  (if mtClass f.mtA ≠ mtClass f.mtB then [2] else [])
    ++ (if mmaKind f.mma = .int32 ∧ mdOut f.mdrain = 1 then [3] else [])
    ++ (if (upFrom 0 f.repeats).any (fun p => (passErr f.mdrain (f.at 2 p) (f.pitch 2)).isEmpty
          && !s.drainBanksOk t f.mdrain (f.at 2 p) (f.pitch 2)) then [4] else [])

/-- MFQ (R261, R262): read, check and enqueue a descriptor. Every failure is recorded, under R98 or in MX_ERR. -/
def State.mfq (s : State) (t : Nat) (w : W64) : State :=
  let b := slotB w
  let q := s.tile t
  match matrixErr b q.sOld with
  | _ :: _ => s.checkFail t (bErrs t b q.sOld)
  | [] =>
    let (f, l, s) := s.mfqRead t q.bCyc (q.sOld (fRd b)).toNat
    let s := s.checkFail t (l.map (fun e => ⟨e.1, 1, b, e.2⟩))
    match f.coreFault, s.fillerFault t f with
    | [], [] => s.updTile t (fun q => { q with matrix := { q.matrix with filler := q.matrix.filler ++ [f] } })
    | _, m => m.foldl (fun s c => s.mxErr t c true q.bPc s.cycleNow) s

def execMfq (t : Nat) (w : W64) (s : State) : Out := guardUnit (tileOk t) (s.slotBOf t w (fun s => s.mfq t w))

/-! ## Passes (R263) -/

/-- The schedule of a pass whose MLD is taken as issued at `c`: the claims it makes, the reads and last read of its MLD, its
MMA, the cycle taken as its MDRAIN's issue, and its last drain write. -/
structure PassPlan where
  claims : List Claim
  reads  : List (Nat × Nat)
  lastRead : Nat
  mma    : MmaPlan
  last   : Nat
  endsAt : Nat
  deriving DecidableEq, Repr

/-- The tile slots that the memory operations `ms` will take from cycle `y` on, in `fuel` cycles (R107, R113, R157): no new
operation issues in a window. -/
def State.memAhead (s : State) (t : Nat) : Nat → Nat → List MemOp → List Claim
  | 0, _, _ => []
  | _, _, [] => []
  | fuel + 1, y, m :: rest =>
    if !m.runs (accessOff s.profile) y then State.memAhead s t fuel (y + 1) (m :: rest)
    else
      match m.rows[m.row]? with
      | none => State.memAhead s t fuel (y + 1) rest
      | some g =>
        let (banks, wr) := s.memopUse t m g
        if banks.any (fun b => (s.tile t).claimed y b) then State.memAhead s t fuel (y + 1) (m :: rest)
        else
          banks.map (fun b => ⟨y, b, false⟩) ++ State.memAhead s t fuel (y + 1)
            (if !wr then { m with half := some [] } :: rest
             else if m.row + 1 = m.rows.length then rest
             else { m with row := m.row + 1, half := none } :: rest)

/-- Tile slots that a pass leaves alone: every claim, and what the memory operations take up to cycle `b` (R157). DEDUCED (log
entry 125). -/
def State.slotsHeld (s : State) (t b : Nat) : List Claim :=
  let q := s.tile t
  let now := s.esc.tc + (if q.did.contains 1 then 1 else 0)
  q.claims ++ s.memAhead t (b + 1 - now) now q.memops

/-- Schedule the head entry's next pass from `c` in the slots that `held` leaves (R157, R263); none when a drain write meets one
of them. -/
def State.planPass (s : State) (t c : Nat) (held : List Claim) (f : Filler) : Option PassPlan :=
  let q := s.tile t
  let p := f.done
  let rows := mldRows f.mld (f.at 1 p) (f.pitch 1)
  let (cl, ys) := assignReads held (c + accessOff s.profile) (rows.map (fun g => (s.bankOf t g).1))
  let m := q.matrix.setBuf (mldBuf f.mld) (loadB f.mld (lastCyc 0 ys))
  let a := s.planMma t cl m f.mma (c + 1) (f.at 0 p) (f.pitch 0) 0
  let last := a.last f.mma
  let writes := s.drainClaims t f.mdrain last (f.at 2 p) (f.pitch 2)
  if writes.any (fun k => a.claims.any (fun x => x.cyc == k.cyc && x.bank == k.bank)) then none
  else some ⟨a.claims.drop held.length ++ writes, ys.zip rows, lastCyc 0 ys, a, last,
    drainFrom s.profile last + drainCycles f.mdrain - 1⟩

/-- No main matrix operation is outstanding and no main MDRAIN is incomplete at `c`. -/
def Matrix.idleAt (m : Matrix) (c : Nat) : Bool :=
  (m.outstanding c).isEmpty && m.mlds.all (·.filler) && m.mmas.all (·.filler)
    && (match m.drainEnd with
      | some e => decide (e < c)
      | none => true)

/-- Run pass `f.done` of the head entry: MLD, MMA on stream 1, drain on stream 3 (R157, R262). Its MMA does not enter the list that
MX_STATUS.MMA_OUT counts (DESIGN CHOICE of log entry 129). -/
def State.runPass (s : State) (t : Nat) (f : Filler) (p : PassPlan) : State :=
  s.updTile t (fun q =>
    let m := q.matrix.withMld (mldBuf f.mld) (loadB f.mld p.lastRead) p.reads true
    let m := (m.withMma f.mma p.mma true).withDrain s.profile f.mdrain p.last (f.at 2 f.done) (f.pitch 2) true
    { q with claims := q.claims ++ p.claims, matrix := { m with
      passEnd := some p.endsAt, passFrom := p.endsAt + 1, filler := { f with done := f.done + 1 } :: m.filler.tail } })

/-- The last cycle of the window that the core's BOUND_WAIT gives the filler: that of its boundary (R263). -/
def State.windowEnd (s : State) (t : Nat) : Option Nat :=
  (s.boundary ((s.tile t).sstep - 1)).map (fun b => s.esc.tc + (b - s.cycleNow))

/-- The pass of the head entry that begins in the present cycle: the entry and the pass's schedule (R263). -/
def State.passNow (s : State) (t : Nat) : Option (Filler × PassPlan) :=
  let q := s.tile t
  let now := s.esc.tc
  if q.core != .boundWait || !s.ticking || decide (now ≤ q.bCyc) || !q.matrix.idleAt now || decide (now < q.matrix.passFrom) then none
  else
    match q.matrix.filler, s.windowEnd t with
    | f :: _, some b =>
      if f.done < f.repeats then
        (s.planPass t now (s.slotsHeld t b) f).bind (fun p => if p.endsAt ≤ b then some (f, p) else none)
      else none
    | _, _ => none

/-- FILLER_PASS_BEGIN (R263): the head entry's next pass begins in the first cycle of a window in which it fits. -/
def State.fillerPassBegin (s : State) (t : Nat) : State :=
  match s.passNow t with
  | some (f, p) => s.runPass t f p
  | none => s

def execFillerPassBegin (t : Nat) (s : State) : Out := guardUnit (tileOk t) (s.fillerPassBegin t)

/-- The head entry has run all its passes and its last drain is in the scratchpad (R264). -/
def State.fillerDone (s : State) (t : Nat) : Bool :=
  let m := (s.tile t).matrix
  match m.filler with
  | f :: _ => f.done == f.repeats && (match m.passEnd with
      | some e => decide (e < s.esc.tc)
      | none => true)
  | [] => false

/-- FILLER_ENTRY_COMPLETE (R264). -/
def State.fillerComplete (s : State) (t : Nat) : State :=
  if s.fillerDone t then
    let q := s.tile t
    match q.matrix.filler with
    | f :: rest =>
      let s := s.setTile t { q with matrix := { q.matrix with filler := rest, passEnd := none } }
      if f.csig then s.applySig (tileCtr t f.cidx) 1 (unitId 0 t) s.self else s
    | [] => s
  else s

def execFillerEntryComplete (t : Nat) (s : State) : Out := guardUnit (tileOk t) (s.fillerComplete t)

end Sys2Proof.Machine
end

