-- ==== Sys2Proof/Machine/Exchange.lean ====
section
/-! DEFINITION. Compiled exchange (R159 to R171): the transfers of exchange entries and of switch entries on lanes,
crossbars and bridges. -/

namespace Sys2Proof.Machine

/-! ## Lanes (R159, R167) -/

/-- A lane slot: tile die, row, direction (0 portward, 1 outward), track and lane fc. -/
def laneKey (die row dir track fc : Nat) : Nat := (((die * 24 + row) * 2 + dir) * 4 + track) * 2 ^ 33 + fc

/-- Position at which the row port drives and samples: below position 0. -/
def portPos : Nat := 17

/-- Drive a row into a lane slot. -/
def State.driveLane (s : State) (k pos : Nat) (d : List Byte) : State :=
  { s with lanes := s.lanes.write [] k (s.lanes.read [] k ++ [⟨pos, d⟩]) }

/-- How far upstream of `at'` a driver stands in a direction; none when it is not upstream. The row port is upstream of
every position outward and downstream of every position portward. -/
def upstream (dir at' pos : Nat) : Option Nat :=
  if dir = 0 then
    (if pos = portPos then none else if at' = portPos then some pos else if pos > at' then some (pos - at') else none)
  else
    (if at' = portPos then none else if pos = portPos then some (at' + 1) else if pos < at' then some (at' - pos) else none)

/-- The nearest driver of a list (R167). -/
def nearest (dir at' : Nat) : List Drive → Option (Nat × List Byte)
  | [] => none
  | x :: xs =>
    match upstream dir at' x.pos, nearest dir at' xs with
    | some d, some (e, y) => if d < e then some (d, x.data) else some (e, y)
    | some d, none => some (d, x.data)
    | none, r => r

/-- What a position samples in fc `fc`: what its nearest upstream driver drove one fc before, else zero bytes. -/
def State.sampleLane (s : State) (die row dir track fc at' : Nat) : List Byte :=
  match nearest dir at' (s.lanes.read [] (laneKey die row dir track (fc - 1))) with
  | some (_, d) => d
  | none => zeros 32

/-! ## Exchange entries (R164 to R167, R171) -/

/-- Completion signal of an entry (R165). -/
def State.entrySignal (s : State) (t e : Nat) : State :=
  if s.fld F.XC_XPE_SIGEN t e = 1 then
    s.applySig (tileCtr t (s.fld F.XC_XPE_CIDX t e))
      (if s.fld F.XC_XPE_SIGB t e = 1 then s.fld F.XC_XPE_COUNT t e * 32 else 1) (unitId 2 t) s.self
  else s

/-- A second compiled access of one tile to one bank in one tc is not performed (R109). -/
def State.xConflict (s : State) (t g : Nat) : State :=
  let (b, r) := s.bankOf t g
  s.spErr t 4 3 (g * 32) b r

/-- A transfer takes its bank's exchange slot. -/
def State.xTake (s : State) (t g : Nat) : State := s.updTile t (fun q => { q with xUse := (s.bankOf t g).1 :: q.xUse })

/-- One send: read the row in the exchange slot and drive it in lane fc `fc`; one that may not be performed sends zero
bytes. -/
def State.xSend (s : State) (t e fc g : Nat) (meets : Bool) : State :=
  let (d, s) := if meets then (zeros 32, s.xConflict t g) else (s.xTake t g).spRead t 3 (g * 32) 32
  (s.driveLane (laneKey (tileDie t) (tileRow t) (s.fld F.XC_XPE_LDIR t e) (s.fld F.XC_XPE_TRACK t e) fc)
    ((s.physOf t).getD 0) d).addFld F.XC_PERF_XSEND_COUNT t 0 1

/-- One receive: sample the lane in fc `fc` and write the row in the exchange slot. -/
def State.xReceive (s : State) (t e fc g : Nat) (meets : Bool) : State :=
  let d := s.sampleLane (tileDie t) (tileRow t) (s.fld F.XC_XPE_LDIR t e) (s.fld F.XC_XPE_TRACK t e) fc
    ((s.physOf t).getD 0)
  let s := if meets then s.xConflict t g else (s.xTake t g).spWrite t 3 (g * 32) d
  s.addFld F.XC_PERF_XRECV_COUNT t 0 1

/-- EXCHANGE_TRANSFER (R164, R165): transfer `i` of entry `e`, the entry's next, in the delivered cycle of its scratchpad
access; after the last the entry signals in the cycle that follows, an entry with COUNT = 0 in the cycle after its START. -/
def State.exchangeTransfer (s : State) (t e i : Nat) : State :=
  let q := s.tile t
  let n := s.fld F.XC_XPE_COUNT t e
  if !(s.ticking && s.entryRuns t e && q.xDone.read 0 e == i) then s
  else if n = 0 then
    if i = 0 ∧ s.cycleNow = s.fld F.XC_XPE_START t e / 2 + 1 then
      (s.setTile t { q with xDone := q.xDone.write 0 e 1 }).entrySignal t e
    else s
  else if i < n ∧ s.cycleNow = s.xferTc t e i then
    let g := (s.xferRow t e i).toNat
    let meets := s.xMeets t e i
    let s := s.setTile t { q with xDone := q.xDone.write 0 e (i + 1)
                                  xSig := if i + 1 = n then q.xSig ++ [(s.esc.tc + 1, e)] else q.xSig }
    if s.fld F.XC_XPE_DIR t e = 0 then s.xSend t e (s.xferFc t e i) g meets else s.xReceive t e (s.xferFc t e i) g meets
  else s

def execExchangeTransfer (t e i : Nat) (s : State) : Out :=
  guardUnit (tileOk t && decide (e < 384)) (s.exchangeTransfer t e i)

/-! ## Switch entries (R161, R162, R168) -/

/-- What a crossbar output track carried in an fc. -/
def outKey (die port track fc : Nat) : Nat := ((die * 64 + port) * 32 + track) * 2 ^ 33 + fc

/-- The adjacent die behind die-to-die port 26 or 27, and the port there that leads back (Table 1.2, R161). -/
def farSide (die port : Nat) : Option (Nat × Nat) :=
  match die, port with
  | 0, 26 => some (1, 26)
  | 0, 27 => some (2, 26)
  | 1, 26 => some (0, 26)
  | 1, 27 => some (3, 26)
  | 2, 26 => some (0, 27)
  | 2, 27 => some (3, 27)
  | 3, 26 => some (1, 27)
  | 3, 27 => some (2, 27)
  | _, _ => none

/-- What enters input track `tr` of port `port` in fc `g`: a row port's lane one fc later (R159, R162), a bridge's far
output eight fc later; zero bytes where nothing drives it (R169). -/
def State.inputTrack (s : State) (die port tr g : Nat) : List Byte :=
  if port < 24 then s.sampleLane die port 0 tr g portPos
  else
    match farSide die port with
    | some (d, p) => s.xout.read (zeros 32) (outKey d p tr (g - 8))
    | none => zeros 32

/-- Output fc of transfer `i` of switch entry `e`. -/
def State.switchFc (s : State) (d e i : Nat) : Nat := s.fld F.XC_XSE_START d e + i * s.fld F.XC_XSE_PERIOD d e

/-- SWITCH_TRANSFER (R168): in output fc g the output track carries what entered the input track in fc g − 4, and a row
port drives it outward on its lane. -/
def State.switchTransfer (s : State) (d e i : Nat) : State :=
  let g := s.switchFc d e i
  if s.ticking && s.fld F.XC_XB_CFG_EN d 0 == 1 && decide (e ≤ s.fld F.XC_XB_CFG_LAST d 0)
      && bit (s.fld F.XC_XSE_CLASSMASK d e) s.esc.cls && decide (i < s.fld F.XC_XSE_COUNT d e)
      && decide (s.cycleNow = g / 2) then
    let data := s.inputTrack d (s.fld F.XC_XSE_IN_PORT d e) (s.fld F.XC_XSE_IN_TRACK d e) (g - 4)
    let port := s.fld F.XC_XSE_OUT_PORT d e
    let tr := s.fld F.XC_XSE_OUT_TRACK d e
    let s := { s with xout := s.xout.write (zeros 32) (outKey d port tr g) data }
    if port < 24 then s.driveLane (laneKey d port 1 tr g) portPos data else s
  else s

def execSwitchTransfer (d e i : Nat) (s : State) : Out :=
  guardUnit (decide (d < 4) && decide (e < 61440)) (s.switchTransfer d e i)

/-! ## What falls due in a cycle -/

/-- The compiled transfers of tile `t` that fall due in the present cycle, and the entries that move nothing (R109, R165). -/
def State.exchangeDue (s : State) (t : Nat) : State :=
  if !s.ticking || s.fld F.XC_XP_CFG_EN t 0 != 1 then s
  else
    let s := (s.xDue t).foldl (fun s x => s.exchangeTransfer t x.1 x.2) s
    ((upFrom 0 (s.fld F.XC_XP_CFG_LAST t 0 + 1)).filter (fun e => s.fld F.XC_XPE_COUNT t e == 0)).foldl
      (fun s e => s.exchangeTransfer t e 0) s

/-- Completion signals of entries whose last access fell in the cycle before (R165). -/
def State.entrySignals (s : State) (t : Nat) : State :=
  let q := s.tile t
  let due (x : Nat × Nat) : Bool := decide (x.1 ≤ s.esc.tc)
  if q.xSig.any due then
    (q.xSig.filter due).foldl (fun s x => s.entrySignal t x.2) (s.setTile t { q with xSig := q.xSig.filter (fun x => !due x) })
  else s

/-- The switch transfers of die `d` whose output fc falls in the present cycle. -/
def State.switchDue (s : State) (d : Nat) : State :=
  if !s.ticking || s.fld F.XC_XB_CFG_EN d 0 != 1 then s
  else
    (upFrom 0 (s.fld F.XC_XB_CFG_LAST d 0 + 1)).foldl (fun s e =>
      let start := s.fld F.XC_XSE_START d e
      let p := max 1 (s.fld F.XC_XSE_PERIOD d e)
      [2 * s.cycleNow, 2 * s.cycleNow + 1].foldl (fun s g =>
        let i := (g - start) / p
        if start ≤ g ∧ s.switchFc d e i = g ∧ !(s.xout.any (fun x => x.1 == outKey d (s.fld F.XC_XSE_OUT_PORT d e) (s.fld F.XC_XSE_OUT_TRACK d e) g)) then
          s.switchTransfer d e i
        else s) s) s

end Sys2Proof.Machine
end

