-- ==== Sys2Proof/Machine/Network.lean ====
section
/-! DEFINITION. The way of packets inside the device (R12, R13, R160, R170, R174, R177, R178): places and paths, the lane slots
and crossbar tracks that compiled traffic leaves free, and the move of one flit under credit. -/

namespace Sys2Proof.Machine

/-! ## Where a packet goes (R174) -/

/-- The unit that decodes a packet. -/
inductive Target where
  | tile (t : Nat)
  | root (r : Nat)
  /-- Ring die `g`; none: the first ring die reached. -/
  | ring (g : Option Nat)
  /-- The crossbar of tile die `d`, for its registers. -/
  | xbar (d : Nat)
  /-- The row port of tile `t`, for RESERVE (R180). -/
  | port (t : Nat)
  deriving DecidableEq, Repr

/-- A unit (Table 2.15); Table 1.3 places those of the ring dies. -/
def unitTarget (u : Nat) : Target :=
  let n := u % 4096
  match u / 4096 with
  | 0 | 1 | 2 => .tile n
  | 3 | 9 => .root n
  | 4 => .root (n / 64)
  | 5 => .ring (some (n / 6))
  | 6 => .ring (some 0)
  | 7 => .ring (some 1)
  | 8 => .ring (some 2)
  | _ => .ring none

/-- The unit of a counter: device counters are at ring die 2. -/
def ctrTarget (k : Nat) : Target :=
  if k < 0x20000 then .tile (k / 64) else if k < 0x30000 then .ring (some 2) else .root ((k - 0x30000) / 128)

/-- The block that holds a register, on the ring die that Table 1.3 gives it. -/
def State.regTarget (s : State) (a : Nat) : Target :=
  match s.regAt a with
  | some x =>
    match x.info.block with
    | .tl | .sp | .mx | .xt | .syt => .tile x.inst
    | .rt => .root x.inst
    | .xd => .xbar x.inst
    | .lk => .ring (some (x.inst / 6))
    | .en => .ring (some 0)
    | .es | .syd => .ring (some 2)
    | _ => .ring (some 1)
  | none => .ring (some 1)

/-- Where a packet goes: one for another device to the ring die of the link that routing selects. DESIGN CHOICE (log entry 43): a
DEST that no unit holds is decoded at ring die 1, where the understory is. -/
def State.target (s : State) (p : Packet) : Target :=
  if p.destDev ≠ s.self then
    match s.route p.dest with
    | .out n _ _ => .ring (some (n / 6))
    | _ => .ring none
  else if p.kind = 4 ∨ p.kind = 7 ∨ p.kind = 9 then unitTarget p.srcUnit
  else if p.kind = 5 then ((crefKey none p.cref).map ctrTarget).getD (.ring none)
  else
    match Machine.place p.destAddr with
    | .tile t _ => if p.kind = 8 then .port t else .tile t
    | .dram a => .root (s.stackOf a)
    | .store r _ => .root r
    | .live a => s.regTarget a
    | _ => .ring (some 1)

/-! ## Paths (R11 to R13, R178) -/

/-- Row port of a tile: die × 24 + row. -/
def rowPort (t : Nat) : Nat := t / 16

/-- The tile die to cross to next on the way from tile die `d` to `e`: the diagonal die is reached through d XOR 1 (R12). -/
def nextDie (d e : Nat) : Nat := if d + e = 3 then Nat.xor d 1 else e

/-- Die-to-die port of die `d` to the adjacent die `e`: 26 to the one of lower number (R161). -/
def bridgePort (d e : Nat) : Nat := if (farSide d 26).any (fun x => x.1 == e) then 26 else 27

/-- The crossbar input at the far side of a bridge. -/
def bridgeSpot (d e : Nat) : Spot := ⟨3, e * 2 + (bridgePort e d - 26)⟩

/-- The output port by which a packet leaves the crossbar of tile die `d`, and the buffer it enters there; no buffer: it is
delivered. -/
def fromCrossbar (x : Target) (vc d : Nat) : Nat × Option Spot :=
  let cross (e : Nat) : Nat × Option Spot := (bridgePort d (nextDie d e), some (bridgeSpot d (nextDie d e)))
  match x with
  | .tile t => if tileDie t = d then (tileRow t, if vc = 0 then some ⟨1, t⟩ else none) else cross (tileDie t)
  | .root r => if r / 2 = d then (24 + r % 2, if vc = 0 then some ⟨4, r⟩ else none) else cross (r / 2)
  | .ring _ => (28, some ⟨6, d⟩)
  | .xbar e => cross e
  | .port t => if tileDie t = d then (tileRow t, none) else cross (tileDie t)

/-- The ring die to which a packet travels: that of its target's tile die, which it enters by its ring port. -/
def ringGoal (x : Target) (g : Nat) : Nat :=
  match x with
  | .tile t => tileDie t
  | .root r => r / 2
  | .ring h => h.getD g
  | .xbar d => d
  | .port t => tileDie t

/-- The ring segment from ring die `g` towards `h`: the shorter way, between opposite dies the one of increasing number (R13);
from ring die 3 to ring die 0 a flit moves to the second buffer class and stays in it (R178). -/
def ringSpot (g h cls : Nat) : Spot :=
  if (h + 4 - g) % 4 = 3 then ⟨8, ((g + 3) % 4 * 2 + 1) * 2 + cls⟩
  else ⟨8, (g + 1) % 4 * 2 * 2 + (if g = 3 then 1 else cls)⟩

/-- Where a flit stands on the ring: ring die and buffer class. -/
def ringAt (h : Spot) : Option (Nat × Nat) :=
  match h.buf with
  | 6 | 12 => some (h.inst, 0)
  | 8 => some (h.inst / 4, h.inst % 2)
  | _ => none

/-- The crossbar that a flit enters as it leaves a place, by tile die. -/
def enters (x : Target) (vc : Nat) (h : Spot) : Option Nat :=
  match h.buf with
  | 2 => some (h.inst / 24)
  | 3 | 5 => some (h.inst / 2)
  | 11 => if vc = 0 then some (h.inst / 2) else none
  | 13 => some h.inst
  | _ =>
    match ringAt h, x with
    | some _, .ring _ => none
    | some (g, _), _ => if ringGoal x g = g then some g else none
    | none, _ => none

/-- The crossbar that a flit crosses to one of its output ports as it leaves a place: none where it is bound for the crossbar. -/
def crosses (x : Target) (vc : Nat) (h : Spot) : Option Nat := (enters x vc h).filter (fun d => decide (x ≠ .xbar d))

/-- The place after `h` on the way of a packet; none: it is delivered. -/
def nextSpot (x : Target) (vc : Nat) (h : Spot) : Option Spot :=
  match enters x vc h with
  | some d => if x = .xbar d then none else (fromCrossbar x vc d).2
  | none =>
    match h.buf with
    | 9 => some ⟨0, h.inst⟩
    | 0 | 14 => some ⟨2, rowPort h.inst⟩
    | 11 => some ⟨5, h.inst⟩
    | _ =>
      match ringAt h with
      | some (g, c) => if ringGoal x g = g then none else some (ringSpot g (ringGoal x g) c)
      | none => none

/-! ## The slot map (R160, R170): lane slots and tracks of the committed entries -/

/-- Fabric cycle `k` of the present tile cycle, where a segment cycle is delivered. -/
def State.fcNow (s : State) (k : Nat) : Option Nat := if s.ticking then some (2 * s.cycleNow + k) else none

/-- Fabric cycle `f` is one of START + i × PERIOD with i below COUNT. -/
def inTrain (start period count f : Nat) : Bool :=
  decide (start ≤ f) && (f - start) % max 1 period == 0 && decide ((f - start) / max 1 period < count)

/-- Entry `e` of tile `t` drives or samples its lane slot in fabric cycle `f`. -/
def State.xpeIn (s : State) (t e f : Nat) : Bool :=
  s.entryRuns t e && inTrain (s.fld F.XC_XPE_START t e) (s.fld F.XC_XPE_PERIOD t e) (s.fld F.XC_XPE_COUNT t e) f

/-- Entries of an exchange program that is enabled. -/
def State.xpeList (s : State) (t : Nat) : List Nat :=
  if s.fld F.XC_XP_CFG_EN t 0 = 1 then upFrom 0 (s.fld F.XC_XP_CFG_LAST t 0 + 1) else []

/-- A compiled transfer of tile `t` uses its exchange port in direction `dir` (0 send, 1 receive) in fabric cycle `f`. -/
def State.portTaken (s : State) (t dir f : Nat) : Bool :=
  (s.xpeList t).any (fun e => s.fld F.XC_XPE_DIR t e == dir && s.xpeIn t e f)

/-- A switch entry of die `d` drives track `tr` of output port `port` in fabric cycle `f`. -/
def State.trackTaken (s : State) (d port tr f : Nat) : Bool :=
  s.fld F.XC_XB_CFG_EN d 0 == 1 &&
    (upFrom 0 (s.fld F.XC_XB_CFG_LAST d 0 + 1)).any (fun e =>
      s.fld F.XC_XSE_OUT_PORT d e == port && s.fld F.XC_XSE_OUT_TRACK d e == tr && bit (s.fld F.XC_XSE_CLASSMASK d e) s.esc.cls
        && inTrain (s.fld F.XC_XSE_START d e) (s.fld F.XC_XSE_PERIOD d e) (s.fld F.XC_XSE_COUNT d e) f)

/-- A switch entry of die `d` takes what enters input track `tr` of port `port` in fabric cycle `f`: four before its output
(R168). -/
def State.inTaken (s : State) (d port tr f : Nat) : Bool :=
  s.fld F.XC_XB_CFG_EN d 0 == 1 &&
    (upFrom 0 (s.fld F.XC_XB_CFG_LAST d 0 + 1)).any (fun e =>
      s.fld F.XC_XSE_IN_PORT d e == port && s.fld F.XC_XSE_IN_TRACK d e == tr && bit (s.fld F.XC_XSE_CLASSMASK d e) s.esc.cls
        && inTrain (s.fld F.XC_XSE_START d e) (s.fld F.XC_XSE_PERIOD d e) (s.fld F.XC_XSE_COUNT d e) (f + 4))

/-- A compiled transfer uses a lane slot in fabric cycle `f`: a receive reserves it as a send does, and so does the switch entry
that drives it, or that takes it from the row port one fabric cycle later. -/
def State.laneTaken (s : State) (die row dir tr f : Nat) : Bool :=
  (upFrom (die * 384 + row * 16) 16).any (fun t => (s.xpeList t).any (fun e =>
      s.fld F.XC_XPE_LDIR t e == dir && s.fld F.XC_XPE_TRACK t e == tr && s.xpeIn t e f))
    || (if dir = 1 then s.trackTaken die row tr f else s.inTaken die row tr (f + 1))

/-- An output track of a die-to-die port is taken also where a switch entry of the far die takes what it carries, eight fabric
cycles later (R162). -/
def State.outTaken (s : State) (d port tr f : Nat) : Bool :=
  s.trackTaken d port tr f || (farSide d port).any (fun x => s.inTaken x.1 x.2 tr (f + 8))

/-- The first fabric cycle and track of the present cycle for which `ok` holds. -/
def firstSlot (tracks : Nat) (ok : Nat → Nat → Bool) : Option (Nat × Nat) :=
  ([0, 1].flatMap (fun k => (upFrom 0 tracks).map (fun tr => (k, tr)))).find? (fun p => ok p.1 p.2)

/-- A slot is free: no flit has it, and no compiled traffic by `taken` (R170). -/
def State.free (s : State) (k : Nat) (u : List SlotUse) (taken : Nat → Bool) : Bool :=
  !u.any (fun x => s.slotUse.contains x) && !((s.fcNow k).any taken)

/-- The packet carries a line of a TRANSPOSE from the fetch engine of tile `t` to another unit. -/
def State.transposed (s : State) (t : Nat) (p : Packet) : Bool :=
  p.kind == 1 && p.srcUnit == unitId 1 t && p.srcDev == s.self && (s.tile t).fetch.writes.any (fun w => w.tag == p.tag
    && (s.tile t).fetch.flights.any (fun x => x.desc.seq == w.seq && x.desc.mode == 1))

/-- The slots by which a flit of tile `t` goes to its row port: its port drives one lane slot in a fabric cycle (R160), and of
TRANSPOSE bytes (`trans`) one in a tile cycle, 16 bytes in a fabric cycle (R190). -/
def State.driveSlots (s : State) (t : Nat) (trans : Bool) : Option (List SlotUse) :=
  let use (k tr : Nat) : List SlotUse :=
    .drive t k :: .lane (tileDie t) (tileRow t) 0 tr k :: (if trans then [.trans t] else [])
  (firstSlot 4 (fun k tr => s.free k (use k tr) (fun f =>
    s.portTaken t 0 f || s.laneTaken (tileDie t) (tileRow t) 0 tr f))).map (fun p => use p.1 p.2)

/-- Tracks of a crossbar port (Table 6.1). -/
def outTracks (port : Nat) : Nat := if port < 24 then 4 else if port = 28 then 16 else 32

/-- The slots by which a flit leaves the crossbar of die `d` by a port; one for a tile goes on in a lane slot, which the tile
samples one fabric cycle later (R159). -/
def State.outSlots (s : State) (d port : Nat) (x : Target) : Option (List SlotUse) :=
  let use (k tr : Nat) : List SlotUse :=
    .track d port tr k :: (match x, decide (port < 24) with
      | .tile t, true => [.lane d port 1 tr k, .sample t (k + 1)]
      | _, _ => [])
  (firstSlot (outTracks port) (fun k tr => s.free k (use k tr) (fun f =>
    s.outTaken d port tr f || (match x, decide (port < 24) with
      | .tile t, true => s.laneTaken d port 1 tr f || s.portTaken t 1 (f + 1)
      | _, _ => false)))).map (fun p => use p.1 p.2)

/-- The input track by which a flit enters the crossbar of die `d` by a row port, where no switch entry takes it (R170), or the share
of a root or ring port (Table 1.5). -/
def State.enterSlots (s : State) (d port : Nat) : Option (List SlotUse) :=
  (firstSlot (outTracks port) (fun k tr => s.free k [.into d port tr k] (fun f => s.inTaken d port tr f))).map
    (fun p => [.into d port p.2 p.1])

/-- As `enterSlots` for a flit that leaves a place by crossbar input `port`: one in a buffer of a row port or die-to-die port has
entered already. -/
def State.intoSlots (s : State) (d port : Nat) : Option (List SlotUse) :=
  if port < 24 ∨ port = 26 ∨ port = 27 then some [] else s.enterSlots d port

/-- The share of a ring segment that a flit takes as it enters it: 16 flits in a fabric cycle (R13), in both buffer classes
together. -/
def State.segSlots (s : State) (h : Spot) : Option (List SlotUse) :=
  let i := h.inst / 2
  (firstSlot 16 (fun k tr => s.free k [.seg i tr k] (fun _ => false))).map (fun p => [.seg i p.2 p.1])

/-- What flits hold of the fabric cycles after the present tile cycle, as the next edge counts them. -/
def laterUse (live : Bool) (u : List SlotUse) : List SlotUse :=
  u.filterMap (fun x => match x with
    | .sample t k => if !live then some x else if k < 2 then none else some (.sample t (k - 2))
    | _ => none)

/-! ## Moving flits (R55, R177) -/

/-- Input port of a place at the crossbar that it crosses. -/
def inPort (h : Spot) : Nat :=
  match h.buf with
  | 2 => h.inst % 24
  | 3 => 26 + h.inst % 2
  | 5 | 11 => 24 + h.inst % 2
  | 13 => 0
  | _ => 28

/-- A flit needs a delivered cycle of the tile dies to leave a place: not between root and ring ports, nor within the ring, nor
for a signal (R55). -/
def needsCycle (p : Packet) (x : Target) (h : Spot) : Bool :=
  if p.kind = 5 then false
  else
    match enters x p.vc h with
    | some d => x == .xbar d || !((h.buf == 5 || h.buf == 11 || (ringAt h).isSome) && decide (24 ≤ (fromCrossbar x p.vc d).1)
        && (fromCrossbar x p.vc d).1 != 26 && (fromCrossbar x p.vc d).1 != 27)
    | none => h.buf == 0 || h.buf == 9 || h.buf == 14

/-- A tile die in reset: its crossbar passes nothing. -/
def State.dieHeld (s : State) (d : Nat) : Bool := s.seqr.held.contains (5 + d)

/-- What a flit takes to leave a place; `head`: it is the header. None: it cannot leave in the present cycle. -/
def State.leaveSlots (s : State) (p : Packet) (x : Target) (h : Spot) (head : Bool) : Option (List SlotUse) :=
  if (!s.esc.live && needsCycle p x h) || (enters x p.vc h).any s.dieHeld then none
  else
    match enters x p.vc h with
    | some d =>
      (if x = .xbar d then some [] else s.outSlots d (fromCrossbar x p.vc d).1 x).bind (fun u =>
        (s.intoSlots d (inPort h)).map (fun v => u ++ v))
    | none =>
      if h.buf = 9 then s.driveSlots h.inst (!head && s.transposed h.inst p)
      else if h.buf = 0 ∨ h.buf = 14 then s.enterSlots (tileDie h.inst) (tileRow h.inst)
      else
        match nextSpot x p.vc h with
        | some g => if g.buf = 8 then s.segSlots g else some []
        | none => some []

/-- Key of the credits of a place, where it has any. -/
def Spot.credit (h : Spot) (vc : Nat) : Option Nat := if bufferFlits h.buf vc = 0 then none else some (creditKey h.buf h.inst vc)

/-- RESERVE packets and multicast payloads, which no row that a round holds may keep waiting (R178, R180). -/
def ofRound (p : Packet) : Bool := p.mc || p.kind == 8

/-- Flits of a buffer that other requests leave to the rounds (DESIGN CHOICE of log entry 43): one of a tile's inbound buffer, and a
round's payload and header in a crossbar input. -/
def roundFlits (buf vc : Nat) : Nat := if vc ≠ 0 then 0 else if buf = 0 then 1 else if buf = 2 ∨ buf = 3 then 9 else 0

/-- A credit of the place is held by its sender; in a landing buffer rows that wait and rows granted are no credits. -/
def State.hasCredit (s : State) (h : Spot) (p : Packet) : Bool :=
  match h.credit p.vc with
  | some k => decide ((if h.buf = 1 then s.landUsed h.inst else s.credits.read 0 k)
      < bufferFlits h.buf p.vc - (if ofRound p then 0 else roundFlits h.buf p.vc))
  | none => true

/-- A landing buffer takes the flits of one packet at a time, so that each packet in it becomes whole (log entry 43). -/
def State.landingFree (s : State) (j : Nat) (h : Spot) : Bool :=
  h.buf != 1 || (upFrom 0 s.net.length).all (fun i => i == j || (match s.net[i]? with
    | some y => y.whole || !y.way.any (fun e => e.1 == h && decide (0 < e.2))
    | none => true))

/-- One more, or one less, flit in a place. -/
def State.addCredit (s : State) (h : Spot) (vc : Nat) (up : Bool) : State :=
  match h.credit vc with
  | some k => { s with credits := s.credits.write 0 k (if up then s.credits.read 0 k + 1 else s.credits.read 0 k - 1) }
  | none => s

/-- Change the flits in place `i` of a way. -/
def wayAdd (w : List (Spot × Nat)) (i : Nat) (f : Nat → Nat) : List (Spot × Nat) := w.modify i (fun e => (e.1, f e.2))

/-- The place after place `i` of a packet's way: every flit follows the first. A copy of a multicast payload lands in the rows
granted to it (R180). -/
def Transit.after (y : Transit) (x : Target) (i : Nat) : Option Spot :=
  match y.way[i + 1]? with
  | some e => some e.1
  | none =>
    if 0 < y.got then none
    else ((y.way[i]?).bind (fun e => nextSpot x y.pkt.vc e.1)).filter (fun g => !(g.buf == 1 && y.pkt.mc))

/-- A flit of `y` moves from place `i` to the next, or to the destination. -/
def Transit.moved (y : Transit) (i : Nat) (next : Option Spot) : Transit :=
  let w := wayAdd y.way i (· - 1)
  match next with
  | none => { y with way := w, got := y.got + 1 }
  | some h => { y with way := if i + 1 < w.length then wayAdd w (i + 1) (· + 1) else w ++ [(h, 1)] }

/-- A hop found CHECK wrong (R179): the crossbar of die `d` records it once, and passes the flit on. -/
def State.hopCheck (s : State) (y : Transit) (d port : Nat) (first : Bool) : State :=
  if first && !y.pkt.checkOk then s.xbErr d port 1 y.pkt else s

/-- The copies that the first crossbar makes of a multicast payload, once its last flit has left the crossbar's input (R180). -/
def Transit.splits (y : Transit) (h : Spot) : List Transit :=
  if h.buf = 2 ∧ y.way.all (fun e => e.2 == 0 || !(e.1.buf == 9 || e.1.buf == 0 || e.1.buf == 2)) then
    y.copies.map (fun p => ⟨p, [(⟨13, h.inst / 24⟩, p.flits)], 0, [], none⟩)
  else []

/-- What the flit of the packet at place `j` of the pool takes to leave place `i` of its way, if a credit and a slot allow it. -/
def State.leavesBy (s : State) (j i : Nat) (y : Transit) (h : Spot) (n : Nat) : Option (List SlotUse) :=
  let x := s.target y.pkt
  if n = 0 || !((y.after x i).all (fun g => s.hasCredit g y.pkt && s.landingFree j g)) then none
  else s.leaveSlots y.pkt x h (n == y.pkt.flits)

/-- The packet at place `j` of the pool moves a flit out of place `i` of its way, if a credit and a slot allow it. -/
def State.moveFlit (s : State) (j i : Nat) : State :=
  match s.net[j]? with
  | none => s
  | some y =>
    match y.way[i]? with
    | none => s
    | some (h, n) =>
        let x := s.target y.pkt
        let next := y.after x i
        match s.leavesBy j i y h n with
        | none => s
        | some u =>
          let y' := y.moved i next
          let more := y'.splits h
          let y' := if more.isEmpty then y' else { y' with copies := [] }
          let s := { s with net := s.net.set j y' ++ more, slotUse := u ++ s.slotUse }
          let s := s.addCredit h y.pkt.vc false
          let s := match next with
            | some g => s.addCredit g y.pkt.vc true
            | none => s
          match crosses x y.pkt.vc h, next with
          | some d, some g => if g.buf = 1 then s else s.hopCheck y d (inPort h) (i + 1 == y.way.length)
          | _, _ => s

/-- The place that holds flits without a credit, from which they go on by themselves. -/
def Spot.flows (h : Spot) (vc : Nat) : Bool := bufferFlits h.buf vc == 0

/-- Flits of the packet at place `j` that hold no credit go on: `fuel` moves. -/
def State.flow (s : State) (j : Nat) : Nat → State
  | 0 => s
  | fuel + 1 =>
    match s.net[j]? with
    | none => s
    | some y =>
      let is := ((upFrom 0 y.way.length).filter (fun i => match y.way[i]? with
        | some (h, n) => h.flows y.pkt.vc && decide (0 < n)
        | none => false))
      State.flow (is.foldr (fun i s => s.moveFlit j i) s) j fuel

/-- Every flit that needs no credit return goes on as far as credits and slots allow, older packets first. -/
def State.pumpFlits (s : State) : State :=
  (upFrom 0 s.net.length).foldl (fun s j => s.flow j (match s.net[j]? with
    | some y => 6 * y.pkt.flits
    | none => 0)) s

/-- The ring die where a packet that has crossed the ring stands. -/
def Transit.ringDie (y : Transit) : Nat := ((y.way.getLast?).bind (fun e => ringAt e.1)).elim 0 (·.1)

/-- A transit packet that has reached the ring die of its link takes its place in the link's queue (R281). -/
def State.transitOut (s : State) (y : Transit) : State :=
  match y.via with
  | some v => ({ s with net := dropFirst (fun x => decide (x = y)) s.net }).routeFrom (errLink v.src) v.src v.last (some y.ringDie) y.pkt
  | none => s

/-- Transit packets that are whole at their ring die go on. -/
def State.pumpTransit (s : State) : State :=
  (s.net.filter (fun y => y.via.isSome && y.whole)).foldl State.transitOut s

/-- The reset domain that holds a packet's destination (Table 13.1): tile dies, root dies, and ring logic for the others; device
counters are the escapement's. -/
def State.domainOf (s : State) (p : Packet) : Nat :=
  match s.target p with
  | .tile t | .port t => 5 + tileDie t
  | .xbar d => 5 + d
  | .root _ => 4
  | .ring _ => if p.kind = 5 then 9 else 3

/-- Every flit of the packet has crossed the ring, to the ring die of its destination. -/
def State.atRingGoal (s : State) (y : Transit) : Bool :=
  y.way.all (fun e => e.2 == 0 || (ringAt e.1).any (fun r => ringGoal (s.target y.pkt) r.1 == r.1))

/-- Packets for units in reset are discarded at the ring die of their destination (R374). -/
def State.dropHeld (s : State) : State :=
  { s with net := s.net.filter (fun y => y.via.isSome || !s.seqr.held.contains (s.domainOf y.pkt) || !s.atRingGoal y) }

/-- What a reset that leaves the link layer running keeps of the packets under way (R374): transit packets, and those wholly in
ring segments or on their way there from a link, of which one for another device passes on as transit packets do. -/
def State.ringKept (s : State) : List Transit :=
  s.net.filterMap (fun y =>
    if y.via.isSome then some y
    else if y.got = 0 && y.way.all (fun e => e.2 == 0 || e.1.buf == 8 || (e.1.buf == 12 && y.pkt.srcDev != s.self)) then
      some (if y.pkt.destDev = s.self then y else { y with via := some ⟨none, none⟩ })
    else none)

/-- The place in its way of a packet's flits in a buffer of a channel. -/
def Transit.inBuffer (y : Transit) (h : Spot) (vc : Nat) : Option Nat :=
  if y.pkt.vc = vc then y.way.findIdx? (fun e => e.1 == h && decide (0 < e.2)) else none

/-- The oldest packet with a flit in a buffer of a channel that can leave, by its place in the pool and the buffer's in its way: none
keeps another waiting for a credit that it lacks (R178), and those to one target keep their order but for a round's (log entry 43). -/
def State.flitAt (s : State) (h : Spot) (vc : Nat) : Option (Nat × Nat) :=
  (upFrom 0 s.net.length).findSome? (fun j => (s.net[j]?).bind (fun y => (y.inBuffer h vc).bind (fun i =>
    (y.way[i]?).bind (fun e =>
      if (ofRound y.pkt || !(s.net.take j).any (fun z => (z.inBuffer h vc).isSome && decide (s.target z.pkt = s.target y.pkt)))
          && (s.leavesBy j i y e.1 e.2).isSome then some (j, i)
      else none))))

/-- CREDIT_RETURN (R177): a flit leaves buffer `buf` of instance `inst`, and its credit returns to the sender, whose waiting
flits then go on. The flits of a landing buffer leave it when their packet is decoded. -/
def State.creditReturn (s : State) (buf inst vc : Nat) : State :=
  match (if buf = 1 then none else s.flitAt ⟨buf, inst⟩ vc) with
  | some (j, i) => (s.moveFlit j i).pumpFlits
  | none => s

/-- XC_PERF_CWAIT (Table 6.17): fabric cycles of the present cycle in which a flit of a tile was ready and did not leave: it left in
the second, or waits still. -/
def State.countCreditWait (s : State) : State :=
  let waits := s.net.filterMap (fun y => match y.way with
    | (⟨9, t⟩, n) :: _ => if 0 < n then some t else none
    | _ => none)
  let late := s.slotUse.filterMap (fun u => match u with
    | .drive t 1 => some t
    | _ => none)
  (waits ++ late).eraseDups.foldl (fun s t =>
    let n := b2n (!s.slotUse.contains (.drive t 0)) + b2n (waits.contains t && !s.slotUse.contains (.drive t 1))
    s.addFld F.XC_PERF_CWAIT_COUNT t 0 n) s

/-! ## What a die, a root die or the ring holds (R57, Tables 6.20, 13.6) -/

/-- Part of the device in which a place lies: 0 + die a tile die's lanes, crossbar and bridges, 4 + r a root die and its root
port, 12 the ring. DESIGN CHOICE (log entry 43): a packet that waits at a tile's exchange port is held in the lanes of its die. -/
def Spot.zone (h : Spot) : Nat :=
  match h.buf with
  | 0 | 1 | 9 | 14 => tileDie h.inst
  | 2 => h.inst / 24
  | 3 => h.inst / 2
  | 13 => h.inst
  | 4 | 5 | 11 => 4 + h.inst
  | _ => 12

/-- Part of the device in which a target lies. -/
def Target.zone : Target → Nat
  | .tile t | .port t => tileDie t
  | .xbar d => d
  | .root r => 4 + r
  | .ring _ => 12

/-- A packet has a flit in a part that `p` accepts. -/
def State.inZone (s : State) (y : Transit) (p : Nat → Bool) : Bool :=
  y.way.any (fun e => decide (0 < e.2) && p e.1.zone) || (decide (0 < y.got) && p (s.target y.pkt).zone)

/-- A packet holds a credit of a buffer that `p` accepts. -/
def Transit.holds (y : Transit) (p : Spot → Bool) : Bool :=
  y.way.any (fun e => decide (0 < e.2) && decide (bufferFlits e.1.buf y.pkt.vc ≠ 0) && p e.1)

/-- A buffer of tile die `d`, or one whose credit a part of it holds. -/
def Spot.ofDie (h : Spot) (d : Nat) : Bool :=
  match h.buf with
  | 0 | 1 => tileDie h.inst == d
  | 2 => h.inst / 24 == d
  | 3 => h.inst / 2 == d || (farSide (h.inst / 2) (26 + h.inst % 2)).any (fun x => x.1 == d)
  | 4 | 5 => h.inst / 2 == d
  | 6 => h.inst == d
  | _ => false

end Sys2Proof.Machine
end

