-- ==== Sys2Proof/Machine/Quiet.lean ====
section
/-! DEFINITION. The groups of quiescence that tiles, crossbars, root dies, ring and links form (R57). -/

namespace Sys2Proof.Machine

/-- A packet of the checkpoint engine, or an answer to one (R57). -/
def ckptPacket (p : Packet) : Bool := p.srcUnit / 4096 == 9

/-- The core does not hold the group open (R57). -/
def CoreState.quiet : CoreState → Bool
  | .run => false
  | _ => true

/-- Entries of the gather buffer are freed (R110). -/
def Tile.gatherEmpty (q : Tile) : Bool := q.groups.all (·.done) && q.loads.isEmpty

/-- A tile's queues are empty, and no memory operation is outstanding (R57). -/
def Tile.queuesEmpty (q : Tile) : Bool :=
  q.fetch.queued == 0 && q.matrix.filler.isEmpty && q.gatherEmpty && q.memops.isEmpty

/-- Tiles. -/
def State.quietTiles (s : State) : Bool := s.tiles.all (fun e => e.2.core.quiet && e.2.queuesEmpty)

/-- Packets but those of the checkpoint engine. -/
def State.packets (s : State) : List Transit := s.net.filter (fun y => !ckptPacket y.pkt)

/-- Crossbars: no packet in a lane, a crossbar or a bridge, every credit returned; rows of a landing buffer hold theirs. -/
def State.quietXbars (s : State) : Bool :=
  s.packets.all (fun y => !s.inZone y (fun z => decide (z < 4)) && !y.holds (fun _ => true))
    && s.tiles.all (fun e => e.2.landing.isEmpty && e.2.reserves.isEmpty)

/-- An access in a request queue is the checkpoint engine's. -/
def DramReq.ckpt (q : DramReq) : Bool := match q.op with
  | .packet p => ckptPacket p
  | _ => false

/-- Root dies: no request waits for service or response, and request queues and accumulate pipelines are empty. -/
def State.quietRoots (s : State) : Bool :=
  s.packets.all (fun y => !s.inZone y (fun z => decide (4 ≤ z) && decide (z < 12)))
    && (upFrom 0 8).all (fun r => (s.root r).reqs.all DramReq.ckpt)

/-- The bytes received of a packet that is not yet whole are of the checkpoint engine: its header names it. -/
def ckptBytes (d : List Byte) : Bool := ckptPacket ⟨BitVec.ofNat 256 (ofBytes (d.take 32)), []⟩

/-- A link holds no packet but the checkpoint engine's, in its transmit or its receive buffer. -/
def Link.quiet (x : Link) : Bool :=
  x.txq.all (fun e => e.2.all (fun t => ckptPacket t.pkt)) && x.replay.all (fun h => h.pkts.all (fun p => ckptPacket p.1))
    && x.rxBytes.all (fun e => ckptBytes e.2)

/-- Ring and links. -/
def State.quietLinks (s : State) : Bool :=
  s.links.all (fun e => e.2.quiet) && s.packets.all (fun y => !s.inZone y (fun z => z == 12))

/-- Ethernet (R350): no WRITE of an intake buffer is unapplied, no READ_REQ of an RDMA READ is unanswered, and no
requester operation but a checkpoint write awaits acknowledgement. -/
def State.quietEth (s : State) : Bool :=
  s.ports.all (fun e => e.2.intake.all (fun m => m.outs.isEmpty) && e.2.reads.all (fun x => x.outs.isEmpty))
    && s.qps.all (fun e => e.2.ops.all (fun o => o.read.isNone && decide (o.root < 8)))

/-- ES_QUIET.GROUPS (Table 2.14). -/
def State.quietGroups (s : State) : Nat :=
  b2n s.quietTiles + 2 * b2n s.quietXbars + 4 * b2n s.quietRoots + 8 * b2n s.quietLinks + 16 * b2n s.quietEth

/-- The device is quiescent (R57). -/
def State.quiescent (s : State) : Bool :=
  s.quietTiles && s.quietXbars && s.quietRoots && s.quietLinks && s.quietEth

end Sys2Proof.Machine
end

