-- ==== Sys2Proof/Machine/Regions.lean ====
section
/-! DEFINITION. Root dies: refresh, scrubbing and path health (R202, R207 to R210), and the regions of the
accumulation store (R217 to R236). -/

namespace Sys2Proof.Machine

/-! ## Refresh (R207 to R210) -/

/-- The DRAM address of a byte of a line (Table 7.1 read backwards). -/
def dramAddr (mode st seg n b : Nat) : Nat :=
  if mode = 0 then
    let hi := n * 2 ^ 16
    hi + (seg ^^^ bits hi 20 16 ^^^ bits hi 30 26) * 2 ^ 11 + (st ^^^ bits hi 18 16 ^^^ bits hi 24 22) * 2 ^ 8 + b
  else
    let hi := n * 2 ^ 13
    st * 2 ^ 35 + hi + (seg ^^^ bits hi 17 13) * 2 ^ 8 + b

/-- Scrub the next line of the segment that a path serves (R207). -/
def State.scrub (s : State) (r path : Nat) : State :=
  match s.segOf r path with
  | none => s
  | some seg =>
    let n := (s.root r).scrub.read 0 seg
    let (_, s) := s.transfer 2 (dramAddr s.dramMode r seg n 0)
    let s := (upFrom 0 32).foldl (fun s i => s.meetWord 2 (dramAddr s.dramMode r seg n (8 * i))) s
    s.updRoot r (fun q => { q with scrub := q.scrub.write 0 seg ((n + 1) % 2 ^ 22) })

def State.debt (s : State) (r path : Nat) : Int := (s.root r).debt.read 0 path
def State.setDebt (s : State) (r path : Nat) (d : Int) : State :=
  s.updRoot r (fun q => { q with debt := q.debt.write 0 path d })

/-- rc edge until which a path is occupied by a refresh. -/
def State.refEnd (s : State) (r path : Nat) : Nat := (s.root r).refEnd.read 0 path

/-- One refresh of a path: it is occupied for 35 rc, after the refresh in progress, and the scrub follows (R207, R208). -/
def State.refreshOne (s : State) (r path : Nat) : State :=
  let s := s.updRoot r (fun q => { q with refEnd := q.refEnd.write 0 path (max s.rc (q.refEnd.read 0 path) + 35) })
  (s.addFld F.RT_REF_STATUS_ISSUED r 0 1).scrub r path

/-- An access is in progress on a path: its retries are not over (R202, R209). -/
def State.accessing (s : State) (r path : Nat) : Bool := decide (s.edge < (s.root r).retry.read 0 path)

/-- One interval for one path: D rises, or a forced refresh, after the access in progress, keeps it at 8 (R209). -/
def State.tickPath (s : State) (r path : Nat) : State :=
  if s.debt r path ≥ 8 then
    let s := s.addFld F.RT_REF_STATUS_FORCED r 0 1
    if s.accessing r path then s.updRoot r (fun q => { q with forced := q.forced ++ [path] }) else s.refreshOne r path
  else s.setDebt r path (s.debt r path + 1)

/-- The forced refreshes whose access in progress is over. -/
def State.forcedRefresh (s : State) (r : Nat) : State :=
  let due := (s.root r).forced.filter (fun p => !s.accessing r p)
  if due.isEmpty then s
  else due.foldl (fun s p => s.refreshOne r p) (s.updRoot r (fun q => { q with forced := q.forced.filter (fun p => !due.contains p) }))

/-- REFRESH_TICK (R208): at every 390th rc edge after the reset of the root dies. -/
def State.refreshTick (s : State) : State :=
  if s.atRc && decide (s.refFrom < s.rc) && (s.rc - s.refFrom) % 390 == 0 && s.refTick != s.rc + 1 then
    (upFrom 0 8).foldl (fun s r => (upFrom 0 34).foldl (fun s p => s.tickPath r p) s) { s with refTick := s.rc + 1 }
  else s

def execRefreshTick (s : State) : Out := .next s.refreshTick

/-- The delivered cycle lies in an active refresh window (R210), which the root die follows with no lag (log entry 142). -/
def State.inRefWin (s : State) (r : Nat) : Bool :=
  (upFrom 0 16).any (fun w => bit (s.fld F.RT_REFWIN_CLASSMASK r w) s.esc.cls
    && decide (s.fld F.RT_REFWIN_START r w ≤ s.cycleNow)
    && decide (s.cycleNow < s.fld F.RT_REFWIN_START r w + s.fld F.RT_REFWIN_LEN r w))

/-- A refresh opportunity (R209). -/
def State.refreshOk (s : State) (r : Nat) : Bool := !s.esc.segOn || s.esc.frozen.isSome || s.inRefWin r

/-- REFRESH (R208, R209): a path in an opportunity, with D above −4 and no refresh or access in progress, refreshes. -/
def State.refresh (s : State) (r path : Nat) : State :=
  if s.refreshOk r && decide (-4 < s.debt r path) && decide (s.refEnd r path ≤ s.rc) && !s.accessing r path then
    (s.setDebt r path (s.debt r path - 1)).refreshOne r path
  else s

def execRefresh (r path : Nat) (s : State) : Out := guardUnit (rootOk r && decide (path < 34)) (s.refresh r path)

/-- PERIODIC_INTERFACE_TRAINING (R202): a path that fails it is marked failed. -/
def State.ifTraining (s : State) (r path : Nat) (ok : Bool) : State :=
  if ok then s else s.pathFail r path

def execPeriodicInterfaceTraining (r path : Nat) (ok : Bool) (s : State) : Out :=
  guardUnit (rootOk r && decide (path < 34)) (s.ifTraining r path ok)

/-! ## Regions -/

/-- Region states (Table 7.8). -/
def rgIdle : Nat := 0
def rgOpen : Nat := 1
def rgCheck : Nat := 2
def rgRelease : Nat := 3
def rgClosed : Nat := 4

def State.rgState (s : State) (r i : Nat) : Nat := s.fld F.RT_RGN_STAT_STATE r i
def State.rgBase (s : State) (r i : Nat) : Nat := s.fld F.RT_RGN_CFG_BASE r i
def State.rgCount (s : State) (r i : Nat) : Nat := s.fld F.RT_RGN_CFG_COUNT r i
/-- Effective window exponent of an opening. -/
def State.rgW (s : State) (r i : Nat) : Int := signed 10 (s.fld F.RT_RGN_STAT_W r i)
/-- Region `i` is configured and holds record `x`. -/
def State.rgHolds (s : State) (r i x : Nat) : Bool :=
  s.fld F.RT_RGN_CFG_EN r i == 1 && decide (s.rgBase r i ≤ x) && decide (x < s.rgBase r i + s.rgCount r i)
/-- OPEN, CHECK or RELEASE. -/
def State.rgActive (s : State) (r i : Nat) : Bool := s.rgState r i == 1 || s.rgState r i == 2 || s.rgState r i == 3

/-- Unit identifier of a region close (Table 2.15). -/
def closeUnit (r : Nat) : Nat := unitId 4 (r * 64 + 63)

/-- Record an error of the accumulation store (Table 7.18); every one marks the step unclean. Of an error that concerns no packet and
no OPEN, UNIT is 0, DEVICE this device and ADDR 0 (log entry 138). -/
def State.accErr (s : State) (r code attr detail region unit dev addr : Nat) : State :=
  (s.rtUnclean r).capture F.RT_ACC_ERR_VALID F.RT_ACC_ERR_MORE r
    [(F.RT_ACC_ERR_CODE, code), (F.RT_ACC_ERR_ATTR, attr), (F.RT_ACC_ERR_DETAIL, detail),
     (F.RT_ACC_ERR_REGION, region), (F.RT_ACC_ERR_UNIT, unit), (F.RT_ACC_ERR_DEVICE, dev),
     (F.RT_ACC_ERR_ADDR_ADDR, addr), (F.RT_ACC_ERR_WHEN_BEAT, s.beat)]
    (s.errNote 7 code unit r addr)

/-- Lines of a run of records. -/
def linesOf (base n : Nat) : List Nat := if n = 0 then [] else upFrom (base / 16) ((base + n - 1) / 16 - base / 16 + 1)

/-- Two runs of records share a line. -/
def shareLine (b1 n1 b2 n2 : Nat) : Bool :=
  decide (b1 / 16 ≤ (b2 + n2 - 1) / 16) && decide (b2 / 16 ≤ (b1 + n1 - 1) / 16)

/-- OUTFMT and OUTADDR keep Table 7.9. -/
def outOk (fmt addr n : Nat) : Bool :=
  match fmt with
  | 0 => addr == 0
  | 1 => addr % 64 == 0 && decide (addr + 4 * n ≤ dramEnd)
  | 2 => addr % 64 == 0 && decide (addr + 2 * n ≤ dramEnd)
  | _ => addr % 16 == 0 && inStore addr

/-- The first failing condition of an OPEN, 1 to 7 in the order of R225. -/
def State.openFault (s : State) (r w0 w1 w2 w3 : Nat) : Option Nat :=
  let i := bits w0 6 0
  if s.fld F.RT_RGN_CFG_EN r i = 0 then some 1
  else if s.rgState r i ≠ rgIdle ∧ s.rgState r i ≠ rgClosed then some 2
  else if (upFrom 0 128).any (fun j => j != i && s.rgActive r j
      && shareLine (s.rgBase r i) (s.rgCount r i) (s.rgBase r j) (s.rgCount r j)) then some 3
  else if !windowOk (signed 10 (bits w0 17 8) + s.raise) then some 4
  else if !outOk (bits w0 19 18) (bits w2 62 0) (s.rgCount r i) then some 5
  else if bit w1 48 && (crefKey none (bits w0 63 32)).isNone then some 6
  else if bit w0 7 || bits w0 23 20 != 0 || bits w1 63 49 != 0 || bit w2 63 || w3 != 0 then some 7
  else none

/-- A zero mark on a line: every record of it reads VALUE 0 with FLAGS 0 (R226). -/
def State.zeroLine (s : State) (r l : Nat) : State :=
  let k := s.recKey r (16 * l)
  let out (m j : Nat) : Bool := decide (j < m * k) || decide (m * (k + 16) ≤ j)
  s.updRoot r (fun q => { q with store := q.store.keep (out 1), storeBad := q.storeBad.keep (out 2) })

/-- Set every status flag of a region's opening to 0. -/
def State.rgClear (s : State) (r i : Nat) : State :=
  s.setFlds r i [(F.RT_RGN_STAT_NF, 0), (F.RT_RGN_STAT_OVF, 0), (F.RT_RGN_STAT_RESIDUE, 0),
    (F.RT_RGN_STAT_WMISMATCH, 0), (F.RT_RGN_STAT_INCOMPLETE, 0), (F.RT_RGN_STAT_OVERCOUNT, 0),
    (F.RT_RGN_RES_RR, 0), (F.RT_RGN_RES_FR, 0)]

/-- RR and every rr[p] of a region are 0 (R218). -/
def State.rrClear (s : State) (r i : Nat) : State :=
  s.updRoot r (fun q => { q with rr := q.rr.keep (fun k => k / 32 != i) })

/-- Note that a packet of the region was resolved, or that it opened (R232). -/
def State.rgSeen (s : State) (r i : Nat) : State :=
  s.updRoot r (fun q => { q with quiet := q.quiet.write 0 i s.rc })

/-- A region that enters CHECK with a record flagged PINF, NINF or NAN (R234). -/
def State.flagNf (s : State) (r i : Nat) : State :=
  if (upFrom (s.rgBase r i) (s.rgCount r i)).any (fun x => recFlags (s.record r x) % 8 != 0) then
    (s.setFld F.RT_RGN_STAT_NF r i 1).setFld F.RT_STEP_STATUS_NF r 0 1
  else s

/-- A region with an OVF record: its flag OVF, the step's, and WINDOW_OVERFLOW, once in an opening (R235). -/
def State.flagOvf (s : State) (r i : Nat) : State :=
  if s.fld F.RT_RGN_STAT_OVF r i = 0
      ∧ (upFrom (s.rgBase r i) (s.rgCount r i)).any (fun x => recFlags (s.record r x) / flOvf % 2 == 1) then
    ((s.setFld F.RT_RGN_STAT_OVF r i 1).setFld F.RT_STEP_STATUS_OVF r 0 1).accErr r 0xD 0 0 i 0 s.self 0
  else s

/-- The records of a region are read: a correctable word of them is corrected, written back and counted (R214). -/
def State.fixRecords (s : State) (r i : Nat) : State :=
  (upFrom (s.rgBase r i) (s.rgCount r i)).foldl (fun s x => (s.fixHalf r x 0).fixHalf r x 1) s

/-- The region enters CHECK (R234, R235). -/
def State.enterCheck (s : State) (r i : Nat) : State :=
  (((s.setFld F.RT_RGN_STAT_STATE r i rgCheck).fixRecords r i).flagNf r i).flagOvf r i

/-- OPEN (R225, R226) by unit `unit`: the four words of the open record. -/
def State.openRegion (s : State) (r unit w0 w1 w2 w3 : Nat) : State :=
  let i := bits w0 6 0
  match s.openFault r w0 w1 w2 w3 with
  | some d => s.accErr r 8 0 d i unit s.self 0
  | none =>
    let s := (linesOf (s.rgBase r i) (s.rgCount r i)).foldl (fun s l => s.zeroLine r l) s
    let s := ((s.rgClear r i).rrClear r i).rgSeen r i
    let s := s.setFlds r i
      [(F.RT_RGN_STAT_STATE, rgOpen), (F.RT_RGN_STAT_W, wrap 10 (signed 10 (bits w0 17 8) + s.raise)),
       (F.RT_RGN_STAT_OUTFMT, bits w0 19 18), (F.RT_RGN_STAT_DUE_OFS, bits w0 31 24),
       (F.RT_RGN_EXPECT_EXPECT, bits w1 47 0), (F.RT_RGN_OPENBEAT_BEAT, s.beat),
       (F.RT_RGN_OUT_OUTADDR, bits w2 62 0), (F.RT_RGN_DONE_DONE_EN, bits w1 48 48),
       (F.RT_RGN_DONE_DONE_CREF, bits w0 63 32)]
    if bits w1 47 0 = 0 then s.enterCheck r i else s

/-- REGION_CHECK_ENTRY (R228): S − C has reached EXPECT. -/
def State.regionCheckEntry (s : State) (r i : Nat) : State :=
  if s.rgState r i = rgOpen ∧ s.fld F.RT_RGN_EXPECT_EXPECT r i ≤ s.value (rgnCtr r i) then s.enterCheck r i else s

def execRegionCheckEntry (r i : Nat) (s : State) : Out :=
  guardUnit (rootOk r && decide (i < 128)) (s.regionCheckEntry r i)

/-! ## Accumulate packets (R220 to R222) -/

/-- Element size of a FORM's payload unit and elements per unit (Table 7.5). -/
def formUnit (form : Nat) : Nat × Nat :=
  match form with
  | 0 => (2, 1)
  | 1 => (72, 32)
  | _ => (16, 1)

/-- The first row of Table 7.6. -/
def accumBad (p : Packet) : Bool :=
  let form := p.n % 4
  form == 3 || p.len % (formUnit form).1 != 0 || (form == 1 && decide (p.len > 216)) || decide (p.len > 256)
    || decide (bits p.cref 30 0 ≥ resMod) || bit p.cref 31 || bits p.n 31 12 != 0 || p.status != 0
    || p.rel || p.mc || p.stype != 0 || p.dtype != 0 || p.destAddr % 16 != 0

/-- Physical pipeline that serves a logical one (R212). -/
def State.pipeOf (s : State) (r p : Nat) : Nat :=
  if s.fld F.RT_PIPEMAP_SPARE1_FOR r 0 = p then 33 else if s.fld F.RT_PIPEMAP_SPARE0_FOR r 0 = p then 32 else p

/-- Slice of a record (R212). -/
def sliceOf (x : Nat) : Nat := x / 16 % 32

/-- Add one element of packet `p` into its record and its pipeline's residue (R218, R222, R214). An element that meets an
uncorrectable word is not in VALUE, and its residue is in rr[p] (log entry 138). -/
def State.addElem (s : State) (r i : Nat) (p : Packet) (x : Nat) (a : Int × Nat) : State :=
  let bad := s.recCheck r x 0 ≥ 2 ∨ s.recCheck r x 1 ≥ 2
  let s := (s.fixHalf r x 0).fixHalf r x 1
  let s := if bad then
      (((s.setRecCheck r x 0 0).setRecCheck r x 1 0).setRecord r x
        (mkRecord 0 (recFlags (s.record r x) ||| flNan))).accErr r 0xC 0 0 i p.srcUnit p.srcDev p.dest
    else s
  let v := s.record r x
  let s := s.setRecord r x
    (if bad then mkRecord 0 (recFlags v ||| (a.2 % 16)) else mkRecord (recValue v + a.1) (recFlags v ||| (a.2 % 16)))
  s.updRoot r (fun q =>
    let k := i * 32 + sliceOf x
    { q with rr := q.rr.write 0 k ((q.rr.read 0 k + rot (res a.1) ((x - s.rgBase r i) % 31)) % resMod)
             pipes := (s.edge, (if q.pipes.1 = s.edge then q.pipes.2 else 0) ||| 2 ^ (sliceOf x / 8)) })

/-- Signal the region counter with `n` elements, the first at record `x` (R222). -/
def State.accSignal (s : State) (r i x n : Nat) : State :=
  s.applySig (rgnCtr r i) n (unitId 4 (r * 64 + s.pipeOf r (sliceOf x))) s.self

/-- Configured regions of root die `r` that contain a packet's DEST. -/
def State.regionsAt (s : State) (r : Nat) (p : Packet) : List Nat :=
  if inStore p.destAddr then (upFrom 0 128).filter (fun i => s.rgHolds r i ((p.destAddr - storeBase) % 0x4000000 / 16)) else []

/-- The open one of them. -/
def State.openRegionAt (s : State) (r : Nat) (p : Packet) : Option Nat := (s.regionsAt r p).find? (fun i => s.rgState r i == rgOpen)

/-- An ACCUM packet at its root die (Table 7.6): its ACK status and the state. The open region that DEST resolves to has met a packet,
whatever the tests say (R232). DESIGN CHOICE (log entry 75): of several regions that contain DEST, none of them open, NOT_OPEN
records the lowest. -/
def State.accumPacket (s : State) (r : Nat) (p : Packet) : Nat × State :=
  let err (s : State) (code region : Nat) : State := s.accErr r code 0 0 region p.srcUnit p.srcDev p.dest
  let held := s.regionsAt r p
  let open' := s.openRegionAt r p
  let s := open'.elim s (fun i => s.rgSeen r i)
  if accumBad p then (1, err s 1 0)
  else if p.len = 0 then (0, s)
  else
    let x := (p.destAddr - storeBase) % 0x4000000 / 16
    match held, open' with
    | [], _ => (1, err s 2 0)
    | i :: _, none => (1, err s 3 i)
    | _, some i =>
      let form := p.n % 4
      let n := p.len / (formUnit form).1 * (formUnit form).2
      let i0 := x - s.rgBase r i
      let w := signed 10 (bits p.n 11 2)
      if i0 + n > s.rgCount r i then (1, err s 2 i)
      else if w ≠ s.rgW r i then
        (0, (err (s.setFld F.RT_RGN_STAT_WMISMATCH r i 1) 4 i).accSignal r i x n)
      else
        let es := formElems form w p.payload
        let s := ((upFrom x n).zip es).foldl (fun s e => s.addElem r i p e.1 e.2) s
        let rr := (s.fld F.RT_RGN_RES_RR r i + rot (bits p.cref 30 0) (i0 % 31)) % resMod
        (0, (s.setFld F.RT_RGN_RES_RR r i rr).accSignal r i x n)

/-! ## Closing a region (R219, R228 to R231) -/

/-- Set OVF on every record whose VALUE is outside the 72-bit range (R228). -/
def State.flagRange (s : State) (r i : Nat) : State :=
  (upFrom (s.rgBase r i) (s.rgCount r i)).foldl (fun s x =>
    let v := s.record r x
    if (recValue v).natAbs > 2 ^ 71 - 1 then s.setRecord r x (mkRecord (recValue v) (recFlags v ||| flOvf)) else s) s

/-- fr[p] (R219). -/
def State.finalRes (s : State) (r i p : Nat) : Nat :=
  (upFrom 0 (s.rgCount r i)).foldl (fun a e =>
    let x := s.rgBase r i + e
    if sliceOf x = p then (a + rot (res (recValue (s.record r x))) (e % 31)) % resMod else a) 0

/-- A residue mismatch attributed to a pipeline (R219). -/
def State.pipeMismatch (s : State) (r p : Nat) : State :=
  let s := s.satFld F.RT_PIPE_MISMATCH_COUNT r (s.pipeOf r p) 1
  if s.fld F.RT_PIPE_MISMATCH_COUNT r (s.pipeOf r p) ≥ s.fld F.RT_ACC_CFG_FENCE_THRESH r 0 then
    s.setBit F.RT_PIPE_HEALTH_FAILED r 0 (s.pipeOf r p)
  else s

/-- The check of a region (R219). -/
def State.checkResidue (s : State) (r i : Nat) : State :=
  let fr := (upFrom 0 32).map (s.finalRes r i)
  let tot := fr.foldl (fun a x => (a + x) % resMod) 0
  let bad := (upFrom 0 32).filter (fun p => fr.getD p 0 != (s.root r).rr.read 0 (i * 32 + p))
  let s := s.setFld F.RT_RGN_RES_FR r i tot
  if tot = s.fld F.RT_RGN_RES_RR r i ∧ bad = [] then s
  else
    let s := (s.setFld F.RT_RGN_STAT_RESIDUE r i 1).setFld F.RT_STEP_STATUS_RESIDUE r 0 1
    bad.foldl (fun s p => s.pipeMismatch r p) (s.accErr r 6 (b2n bad.isEmpty) 0 i 0 s.self 0)

/-- A packet of root die `r` that waits for its answer. -/
def State.rootSend (s : State) (r : Nat) (op : RootOp) (mk : Nat → Packet) : State :=
  let q := s.root r
  let p := mk q.nextTag
  (s.setRoot r { q with nextTag := (q.nextTag + 1) % 65536
                        outs := q.outs ++ [⟨q.nextTag, op, p.dest, p.len⟩] }).send 5 r p

/-- Released bytes of region `i` to a DRAM address of this device: its own stack directly, at once or through the request queue,
another by a WRITE packet. -/
def State.releaseWrite (s : State) (r i a : Nat) (d : List Byte) : State :=
  if s.stackOf a = r then (if s.lineHeld a d.length then s.reqDram r ⟨a, d.length, .release i d⟩ else (s.dramWrite a d).2)
  else s.rootSend r (.release i) (fun tag => mkPacket
    { dest := sysAddr s.self a, unit := closeUnit r, dev := s.self, kind := 1, len := d.length, tag := tag, payload := d })

/-- Write released elements in pieces that cross no 256-byte boundary (R229). -/
def State.releaseOut (s : State) (r i addr : Nat) : Nat → List Byte → State
  | 0, _ => s
  | fuel + 1, d =>
    if d.isEmpty then s
    else
      let k := 256 - addr % 256
      State.releaseOut (s.releaseWrite r i addr (d.take k)) r i (addr + k) fuel (d.drop k)

/-- One packet of a FORWARD release (R230). -/
def State.forwardPkt (s : State) (r i k : Nat) : State :=
  let n := min 16 (s.rgCount r i - 16 * k)
  let d := (upFrom (s.rgBase r i + 16 * k) n).flatMap (s.recBytes r)
  s.rootSend r (.release i) (fun tag =>
    accumPkt (s.fld F.RT_RGN_OUT_OUTADDR r i + 256 * k) (closeUnit r) s.self 2 (s.rgW r i) tag d)

/-- Sum of the residues of the FORWARD packets, each at its place (R230). -/
def State.forwardRes (s : State) (r i : Nat) : Nat :=
  (upFrom 0 ((s.rgCount r i + 15) / 16)).foldl (fun a k =>
    let n := min 16 (s.rgCount r i - 16 * k)
    let p := packetResidue ((upFrom (s.rgBase r i + 16 * k) n).map (fun x => recValue (s.record r x)))
    (a + rot p (16 * k % 31)) % resMod) 0

/-- The release of a region by OUTFMT (R229, R230). -/
def State.release (s : State) (r i : Nat) : State :=
  let n := s.rgCount r i
  let out := s.fld F.RT_RGN_OUT_OUTADDR r i
  let elems (f : Fmt) (b : Nat) : List Byte := (upFrom (s.rgBase r i) n).flatMap (fun x =>
    toBytes (releaseCode f (recValue (s.record r x)) (recFlags (s.record r x)) (s.rgW r i)) b)
  match s.fld F.RT_RGN_STAT_OUTFMT r i with
  | 0 => s
  | 1 => s.releaseOut r i out (n + 2) (elems fp32 4)
  | 2 => s.releaseOut r i out (n + 2) (elems bf16 2)
  | _ =>
    let s' := (upFrom 0 ((n + 15) / 16)).foldl (fun s k => s.forwardPkt r i k) s
    if s.forwardRes r i = s.fld F.RT_RGN_RES_FR r i then s' else s'.accErr r 0xA 0 0 i (closeUnit r) s.self 0

/-- CONS of the counter's whole value, range flags, check, release (R228). -/
def State.closeRegion (s : State) (r i : Nat) : State :=
  let k := rgnCtr r i
  let v := s.value k
  let s := s.queueCons k v (closeUnit r)
  let s := if v > s.fld F.RT_RGN_EXPECT_EXPECT r i then
      (s.setFld F.RT_RGN_STAT_OVERCOUNT r i 1).accErr r 5 0 0 i 0 s.self 0
    else s
  let s := ((((s.fixRecords r i).flagRange r i).flagNf r i).flagOvf r i).checkResidue r i
  (s.setFld F.RT_RGN_STAT_STATE r i rgRelease).release r i

/-- REGION_CLOSE (R228): every admitted packet of a region in CHECK has been applied. -/
def State.regionClose (s : State) (r i : Nat) : State :=
  if s.rgState r i = rgCheck then s.closeRegion r i else s

def execRegionClose (r i : Nat) (s : State) : Out := guardUnit (rootOk r && decide (i < 128)) (s.regionClose r i)

/-- A write of the region's release into the own stack waits in the request queue. -/
def DramReq.releases (i : Nat) (q : DramReq) : Bool :=
  match q.op with
  | .release j _ => j == i
  | _ => false

/-- REGION_RELEASE_COMPLETE (R231): every write or forward has been made and answered. -/
def State.regionReleased (s : State) (r i : Nat) : State :=
  if s.rgState r i = rgRelease ∧ (s.root r).outs.all (fun o => decide (o.op ≠ .release i)) ∧ !(s.root r).reqs.any (·.releases i) then
    let s := s.setFld F.RT_RGN_STAT_STATE r i rgClosed
    if s.fld F.RT_RGN_DONE_DONE_EN r i = 1 then
      s.emitSig (closeUnit r) false none (s.fld F.RT_RGN_DONE_DONE_CREF r i) 1 s.self 5 r
    else s
  else s

def execRegionReleaseComplete (r i : Nat) (s : State) : Out :=
  guardUnit (rootOk r && decide (i < 128)) (s.regionReleased r i)

/-- The three conditions of a forced close, evaluated at an rc edge (R232). -/
def State.forceDue (s : State) (r i : Nat) : Bool :=
  let due := s.fld F.RT_RGN_OPENBEAT_BEAT r i + s.fld F.RT_RGN_STAT_DUE_OFS r i
  s.atRc && (match s.esc.lastEnd with
      | some b => decide (due ≤ b)
      | none => false)
    && s.quietTiles && s.quietXbars && s.quietLinks
    && decide ((s.root r).quiet.read 0 i + s.fld F.RT_ACC_CFG_QUIET_LIMIT r 0 ≤ s.rc)

/-- REGION_FORCE_CLOSE (R232). -/
def State.regionForceClose (s : State) (r i : Nat) : State :=
  if s.rgState r i = rgOpen ∧ s.forceDue r i then
    ((s.setFld F.RT_RGN_STAT_INCOMPLETE r i 1).accErr r 7 0 0 i 0 s.self 0).closeRegion r i
  else s

def execRegionForceClose (r i : Nat) (s : State) : Out :=
  guardUnit (rootOk r && decide (i < 128)) (s.regionForceClose r i)

end Sys2Proof.Machine
end

