-- ==== Sys2Proof/Machine/Escapement.lean ====
section
/-! DEFINITION. The escapement within a segment (R46 to R62, R394): delivered cycles, due checks, freezes, releases,
boundaries, clearing points, segment start and end, and hold accounting. -/

namespace Sys2Proof.Machine

/-! ## Edges and cycles (R2, R52, R53, R394) -/

/-- Ceiling term k_c (R393). -/
def State.kCeil (s : State) : Nat := 256 - s.fld F.PW_CEIL_TILE_CEIL 0 0
def State.kProt (s : State) : Nat := s.fld F.PW_STATUS_K_PROT 0 0

/-- The tile swallow rate k (R393). -/
def State.kRate (s : State) : Nat := max s.kCeil (max s.kBudget s.kProt)

/-- The term that set k: 0 ceiling, 1 budget, 2 droop, 3 thermal; of equal ones the later (R397). -/
def State.kTerm (s : State) : Nat :=
  if s.kRate = s.kProt then (if !s.reg.hot.isEmpty then 3 else 2) else if s.kRate = s.kBudget then 1 else 0

/-- Tile-clock edge `e`, counted from the origin of the release, is swallowed (R394). -/
def State.swallowedAt (s : State) (e : Nat) : Bool := swallows s.kRate (e - 6 * s.seqr.clk0)

/-- The present edge is held back from the tiles: by a freeze until its release delivers, or by a commit's apply hold
(R35, R52, R53). -/
def State.edgeHeld (s : State) : Bool :=
  s.esc.hold.isSome || (s.esc.frozen.isSome && match s.esc.resume with
    | some e => decide (s.edge < e)
    | none => true)

/-- The tiles run again: freezes of the cycle that is delivered are over (R53). -/
def State.thaw (s : State) : State :=
  if s.esc.frozen.isSome then
    { s with
      esc := { s.esc with frozen := none, resume := none, tilesOk := false, forced := false, cause := 0
                          freezes := s.esc.freezes.filter (fun f => f.cycle != s.esc.next) }
      run := if s.run = .held then .running else s.run }
  else s

/-- The present edge is delivered, as the next segment cycle or as an inter-segment cycle (R435), unless it is held back or
swallowed. -/
def State.deliver (s : State) : State :=
  let s := { s with esc := { s.esc with live := false } }
  if s.edgeHeld then s
  else if s.swallowedAt s.edge then s.addFld F.PW_SWALLOW_COUNT 0 s.kTerm 1
  else
    let s := s.thaw
    { s with esc := { s.esc with
        live := true, tc := s.esc.tc + 1, next := if s.esc.segOn then s.esc.next + 1 else s.esc.next } }

/-- A commit's apply hold ends at rc edge x + 4 (R35). -/
def State.endHold (s : State) : State :=
  match s.esc.hold with
  | some x => if 6 * (x + 4) ≤ s.edge then { s with esc := { s.esc with hold := none } } else s
  | none => s

/-! ## Due checks and freezes (R50 to R54) -/

/-- Due entries of cycle `d` in the current segment, in table order. -/
def State.dues (s : State) (d : Nat) : List Due :=
  match s.curClass with
  | some c => c.dues.filter (fun e => e.cycle == d)
  | none => []

/-- A due entry is met (R50): a region counter is seen through the shadow on the tile die local to it (R71). -/
def State.dueMet (s : State) (e : Due) : Bool × State :=
  match crefKey none e.cref with
  | none => (decide (e.value = 0), s)
  | some k =>
    if k ≥ 0x30000 then
      let (vs, vc, s) := s.readShadow ((k - 0x30000) / 128 / 2) k
      (decide (e.value ≤ vs - vc), s)
    else (decide (e.value ≤ s.value k), s)

/-- Cause of the first unmet entry of a list. -/
def State.firstUnmet (s : State) : List Due → Option Nat × State
  | [] => (none, s)
  | e :: es =>
    match s.dueMet e with
    | (true, s) => State.firstUnmet s es
    | (false, s) => (some e.cause, s)

/-- Issue a freeze (R51, R54, R58). -/
def State.issueFreeze (s : State) (f : Freeze) : State := { s with esc := { s.esc with freezes := s.esc.freezes ++ [f] } }

/-- DUE_CHECK (R51): the entries of due cycle `d`, once, in delivered cycle `d` − 20. -/
def State.dueCheck (s : State) (d : Nat) : State :=
  if s.ticking ∧ s.esc.next = d - 19 ∧ 20 ≤ d ∧ s.dues d ≠ [] ∧ !s.esc.dueDone.contains d then
    let s := { s with esc := { s.esc with dueDone := s.esc.dueDone ++ [d] } }
    match s.firstUnmet (s.dues d) with
    | (some c, s) => s.issueFreeze ⟨d, .due, c⟩
    | (none, s) => s
  else s

def execDueCheck (d : Nat) (s : State) : Out := .next (s.dueCheck d)

/-- Freezes of the cycle to be delivered next. -/
def State.heads (s : State) : List Freeze := s.esc.freezes.filter (fun f => f.cycle == s.esc.next)

/-- The segment runs on: no freeze is in effect and no commit hold stands. -/
def State.flowing (s : State) : Bool := s.esc.segOn && s.esc.frozen.isNone && s.esc.hold.isNone

/-- A freeze takes effect for the cycle that would be delivered next; its first rc edge is `x` (R52). -/
def State.freezeFrom (s : State) (x : Nat) : State :=
  match s.heads with
  | [] => s
  | f :: fs =>
    if s.flowing then
      { s with
        esc := { s.esc with
          frozen := some x, resume := none, tilesOk := false, forced := false
          cause := match (f :: fs).find? (fun g => decide (g.kind = FreezeKind.due)) with
            | some g => g.cause
            | none => f.cause }
        run := if s.run = .running then .held else s.run }
    else s

/-- FREEZE (R52): a freeze takes effect for the cycle that the next edge would carry; an edge that is swallowed carries none
(R394). -/
def State.freeze (s : State) : State := if s.swallowedAt (s.edge + 1) then s else s.freezeFrom (s.edge / 6 + 1)

def execFreeze (s : State) : Out := .next s.freeze

/-! ## Release (R53, R56) -/

/-- Cause of the first unmet due entry of the freeze in effect. -/
def State.unmetCause (s : State) : Option Nat × State :=
  match s.heads.find? (fun f => decide (f.kind = FreezeKind.due)) with
  | some f => s.firstUnmet (s.dues f.cycle)
  | none => (none, s)

/-- A clearing point is undecided under the freeze in effect (R58). -/
def State.clearingOpen (s : State) : Bool := s.heads.any (fun f => decide (f.kind = FreezeKind.clearing))

/-- Rc edges of the freeze in effect up to now, when it waits and this is one of them. -/
def State.frozenFor (s : State) : Option Nat :=
  match s.esc.frozen, s.esc.resume with
  | some x, none => if s.atRc ∧ x ≤ s.rc then some (s.rc - x + 1) else none
  | _, _ => none

/-- Issue the release at the present rc edge: the cycle is delivered at the edge of rc x + 4 (R53). -/
def State.issueRelease (s : State) : State := { s with esc := { s.esc with resume := some (6 * (s.rc + 4)) } }

/-- RELEASE (R53): every entry of the freeze is met and no clearing point is undecided. -/
def State.escRelease (s : State) : State :=
  if s.frozenFor.isSome && !s.clearingOpen then
    match s.unmetCause with
    | (none, s) => s.issueRelease
    | (some c, s) => { s with esc := { s.esc with cause := c } }
  else s

def execRelease (s : State) : Out := .next s.escRelease

/-- The clearing point of the freeze in effect is a miss (R58). -/
def State.clearMiss (s : State) : State :=
  ({ s with esc := { s.esc with
      freezes := s.esc.freezes.filter (fun f => f.cycle != s.esc.next || decide (f.kind = FreezeKind.due)) } }).addFld
    F.ES_CLEAR_MISS_COUNT 0 0 1

/-- FORCED_RELEASE (R56): the freeze has lasted LIMIT rc. -/
def State.forcedRelease (s : State) : State :=
  match s.frozenFor with
  | some n =>
    if s.fld F.ES_HOLD_CFG_LIMIT 0 0 ≤ n then
      let s := if s.clearingOpen then s.clearMiss else s
      let s := ((s.setFld F.ES_HOLD_STATUS_FORCED 0 0 1).markUnclean).issueRelease
      { s with esc := { s.esc with forced := true } }
    else s
  | none => s

def execForcedRelease (s : State) : Out := .next s.forcedRelease

/-! ## Boundaries (R48, R86, R99, R100) -/

/-- A tile core at boundary `j`, cycle `b`: a core on time runs on, one still running is overrun, one entered in the
segment begins (R86, R99, R100). -/
def State.boundaryCore (s : State) (t j b : Nat) : State :=
  let q := s.tile t
  let last := s.boundary (j + 1) == none
  match q.core with
  | .boundWait =>
    if q.sstep = j + 1 then
      (if last then s else s.setTile t { q with core := .run, cyc := s.esc.tc + 1, fetchAt := s.esc.tc + 1 })
    else s
  | .run => if q.sstep ≤ j then s.coreErr t q.pc b ⟨10, 0, 0, j⟩ else s
  | .parkedErr => (s.tileUnclean t).satFld F.TL_ERR_COUNT_COUNT t 0 1
  | .waiting =>
    if q.startAt = some j && !last then
      s.setTile t { q with core := .run, cyc := s.esc.tc + 1, fetchAt := s.esc.tc + 1, sstep := j + 1, startAt := none }
    else s
  | _ => s

/-- BOUNDARY_CHECK (R48): boundary `j` of the segment, once, in its cycle. -/
def State.boundaryCheck (s : State) (j : Nat) : State :=
  match s.boundary j with
  | some b =>
    if s.ticking ∧ s.esc.next = b + 1 ∧ !s.esc.bndDone.contains j then
      (s.tiles.map (·.1)).foldl (fun s t => s.boundaryCore t j b)
        { s with esc := { s.esc with bndDone := s.esc.bndDone ++ [j] } }
    else s
  | none => s

def execBoundaryCheck (j : Nat) (s : State) : Out := .next (s.boundaryCheck j)

/-! ## Clearings (R57 to R60) -/

/-- Spare fields of root die `r`'s control line (Table 8.1). -/
def State.ctlSpares (s : State) (r : Nat) : Nat × Nat := (bits (s.ctl r 6) 5 0, bits (s.ctl r 6) 13 8)

/-- Spare fields that a clearing would apply (R249). -/
def State.sparesPending (s : State) : Bool :=
  (upFrom 0 8).any (fun r => decide (s.ctlSpares r ≠ ((s.rve r).spare0, (s.rve r).spare1)))

/-- An action is pending at a clearing point inside a segment (R58). -/
def State.actionPending (s : State) : Bool :=
  s.sparesPending || (match s.commit with
    | some c => c.target == 0
    | none => false)

/-- Spare fields apply (R249). -/
def State.applySpares (s : State) : State :=
  (upFrom 0 8).foldl (fun s r =>
    let (a, b) := s.ctlSpares r
    if a = (s.rve r).spare0 ∧ b = (s.rve r).spare1 then s else s.updRve r (fun v => { v with spare0 := a, spare1 := b })) s

/-- The boundary before beat `k` is a system clearing (R60). -/
def State.sysClearing (s : State) (k : Nat) : Bool :=
  let base := s.fld F.ES_SYSCLR_BASE_BASE 0 0
  let p := s.fld F.ES_CLEAR_CFG_SYS_PERIOD 0 0
  p != 0 && decide (base ≤ k) && (k - base) % p == 0

/-- A clearing takes place in cycle `cyc` of the current beat (Table 2.14). -/
def State.recordClearing (s : State) (cyc : Nat) : State :=
  (s.setFlds 0 0 [(F.ES_CLEAR_LAST_BEAT, s.beat), (F.ES_CLEAR_INFO_CYCLE, cyc)]).addFld F.ES_CLEAR_INFO_COUNT 0 0 1

/-- The pending actions apply; a target-1 commit only with `sys` (R33, R58). A commit that applies holds the tiles from
this rc edge (R35). -/
def State.applyPending (s : State) (sys : Bool) : State :=
  let s := if s.sparesPending then s.applySpares.capUpdate else s
  match s.commit with
  | some c =>
    if c.target = 0 || sys then { s.applyCommit with esc := { s.applyCommit.esc with hold := some s.rc } } else s
  | none => s

/-- Boundary cycle `b` of the current segment is a clearing point. -/
def State.clearPoint (s : State) (b : Nat) : Bool :=
  match s.curClass with
  | some c => ((c.bounds.zip c.clear).dropLast).any (fun p => p.1 == b && p.2)
  | none => false

/-- Decide a clearing point at boundary cycle `b` (R58). -/
def State.decidePoint (s : State) (b : Nat) : State :=
  let s := { s with esc := { s.esc with decided := s.esc.decided ++ [b] } }
  if s.actionPending then s.issueFreeze ⟨b, .clearing, 5⟩ else s

/-- CLEARING_POINT_DECISION (R58): in delivered cycle `b` − 20; for `b` below 20 before the segment starts. -/
def State.clearingDecision (s : State) (b : Nat) : State :=
  if s.clearPoint b && !s.esc.decided.contains b then
    if (s.ticking ∧ 20 ≤ b ∧ s.esc.next = b - 19) ∨ (s.esc.due0 ∧ b < 20) then s.decidePoint b else s
  else s

def execClearingPointDecision (b : Nat) (s : State) : Out := .next (s.clearingDecision b)

/-- CLEARING_TILES_CHECK (R58): at the first rc edge of the freeze. -/
def State.clearingTiles (s : State) : State :=
  if s.frozenFor = some 1 ∧ s.clearingOpen ∧ !s.esc.tilesOk then
    if s.quietTiles then { s with esc := { s.esc with tilesOk := true } } else s.clearMiss.escRelease
  else s

def execClearingTilesCheck (s : State) : Out := .next s.clearingTiles

/-- CLEARING (R58): every group is quiet, so the point is a clearing and its actions apply. -/
def State.clearing (s : State) : State :=
  if s.frozenFor.isSome && s.clearingOpen && s.esc.tilesOk && s.quiescent then
    let s := (s.recordClearing s.esc.next).applyPending false
    ({ s with esc := { s.esc with
      freezes := s.esc.freezes.filter (fun f => f.cycle != s.esc.next || decide (f.kind = FreezeKind.due)) } }).escRelease
  else s

def execClearing (s : State) : Out := .next s.clearing

/-- CLEARING_WAIT_LIMIT (R58). -/
def State.clearingLimit (s : State) : State :=
  match s.frozenFor with
  | some n =>
    if s.clearingOpen ∧ s.esc.tilesOk ∧ !s.quiescent ∧ s.fld F.ES_CLEAR_CFG_WAIT_LIMIT 0 0 ≤ n then s.clearMiss.escRelease
    else s
  | none => s

def execClearingWaitLimit (s : State) : Out := .next s.clearingLimit

/-- The clearing at the segment end (R59, R60): once, at the first rc edge at which the device is quiescent. -/
def State.endClearing (s : State) : State :=
  if s.esc.ended && !s.esc.cleared && s.atRc && (s.run == .running || s.run == .held) && s.quiescent then
    let sys := s.sysClearing (s.beat + 1) && decide (s.fld F.ES_COMMIT_BEAT_BEAT 0 0 ≤ s.beat + 1)
    let s := (s.recordClearing s.esc.len).applyPending sys
    { s with esc := { s.esc with cleared := true } }
  else s

/-! ## Segment start and end (R46, R49, R86, R147, R265) -/

/-- A draw counter of a generator (Table 5.12). -/
def isDraw (k : Nat) : Bool :=
  let f := F.MX_SR_DRAWS_DRAWN
  decide (f.block.base ≤ k / 64) && decide (k / 64 < f.block.base + 1536 * f.block.stride)
    && decide (f.off ≤ (k / 64 - f.block.base) % f.block.stride)
    && decide ((k / 64 - f.block.base) % f.block.stride < f.off + 4 * f.stride)

/-- A tile at the start of a segment, whose cycle 0 is delivered tile-clock edge `c` of the run. -/
def State.startTile (s : State) (step beat c : Nat) (t : Nat) (q : Tile) : Tile :=
  if (s.physOf t).isNone then q
  else
    { q with
      core := match q.core with
        | .waiting | .segmentEnd | .boundWait => .run
        | c => c
      startAt := none, sstep := 0, beat := beat, cyc := c, fetchAt := c, xDone := []
      matrix := { q.matrix with key := srKey (s.fld F.MX_SR_SEED_SEED t 0) step t, step := step } }

/-- SEGMENT_START (R46): the first rc edge at least 8 rc after the adoption carries cycle 0, unless a boundary in cycle 0 is
a clearing point to decide (R58). -/
def State.segmentStart (s : State) : State :=
  if s.esc.due0 ∧ s.atRc ∧ s.esc.adopted + 48 ≤ s.edge then
    let step := s.fld F.ES_STEP_NUM_STEP 0 0
    let held := s.esc.freezes.any (fun f => f.cycle == 0)
    let on := s.esc.live && !held
    let tiles := SMap.mapRange Tile.fresh (s.startTile step s.beat (s.esc.tc + b2n (!on))) 0 1536 s.tiles
    let s := { s with
      tiles := tiles, lanes := [], xout := [], regs := s.regs.keep (fun k => !isDraw k)
      esc := { s.esc with due0 := false, segOn := true, ended := false, next := b2n on, live := on } }
    if s.swallowedAt s.edge then s else s.freezeFrom s.rc
  else s

def execSegmentStart (s : State) : Out := .next s.segmentStart

/-- A tile at the end of a segment (R86, R265): what it has claimed goes on (R435). -/
def Tile.segmentEnd (q : Tile) : Tile :=
  { q with
    core := match q.core with
      | .run | .boundWait => .segmentEnd
      | c => c
    startAt := none, wait := none, matrix := { q.matrix with filler := [], passEnd := none } }

/-- Filler entries that remain queued at L are discarded (R265). -/
def State.dropFiller (s : State) (t : Nat) : State :=
  let s := s.fillerComplete t
  match (s.tile t).matrix.filler with
  | [] => s
  | l => ((s.tileUnclean t).updTile t (fun q => { q with matrix := { q.matrix with filler := [] } })).note
      (s.tileNote 3 0 (unitId 0 t) t l.length)

/-- Every tile stops at the present cycle (R49, R86). -/
def State.stopTiles (s : State) : State :=
  { s with
    tiles := SMap.mapVals Tile.fresh (fun _ q => q.segmentEnd) s.tiles
    waiters := s.waiters.filter (fun w => decide (4096 ≤ w.unit)) }

/-- SEGMENT_END (R49, R86): cycle L has been delivered. -/
def State.segmentEnd (s : State) : State :=
  if s.ticking ∧ s.esc.next = s.esc.len + 1 then
    let s := { s with esc := { s.esc with segOn := false, ended := true, freezes := [], lastEnd := some s.beat } }
    ((s.tiles.map (·.1)).foldl State.dropFiller s).stopTiles
  else s

def execSegmentEnd (s : State) : Out := .next s.segmentEnd

/-- A segment that stops where it stands: DRAINING by ABORT, or FAULTED. -/
def State.stopSegment (s : State) : State :=
  let s := s.thaw
  ({ s with esc := { s.esc with segOn := false, due0 := false, ended := false, freezes := [], frozen := none
                                resume := none, hold := none } }).stopTiles

/-! ## Hold accounting (R61, R62) -/

/-- Boundary wait (R49): a run with no segment, outside the beats of a PERMUTE. -/
def State.boundaryWait (s : State) : Bool :=
  (s.run == .running || s.run == .held) && !s.esc.segOn && (s.esc.ended || s.esc.due0)

/-- The cause charged at the present rc edge (R61), by a freeze whose first rc edge has come: after a forced release a freeze for a
due point charges none. -/
def State.chargeCause (s : State) : Option Nat × State :=
  match s.esc.frozen.filter (fun x => decide (x ≤ s.rc)) with
  | some _ =>
    if s.esc.forced && s.heads.any (fun f => decide (f.kind = FreezeKind.due)) && (match s.esc.resume with
        | some e => decide (e < 6 * (s.rc + 4))
        | none => false) then (none, s)
    else
      let (u, s) := if s.esc.resume.isSome then (none, s) else s.unmetCause
      match u with
      | some c => (some c, { s with esc := { s.esc with cause := c } })
      | none =>
        if s.esc.hold.isSome then (some 6, s)
        else if s.clearingOpen then (some 5, { s with esc := { s.esc with cause := 5 } }) else (some s.esc.cause, s)
  | none => if s.esc.hold.isSome then (some 6, s) else if s.boundaryWait then (some 7, s) else (none, s)

/-- HOLD_ACCOUNTING (R61, R62): once at every rc edge, after its other events. -/
def State.holdAccounting (s : State) : State :=
  if s.atRc ∧ s.esc.charged ≠ s.rc + 1 ∧ (s.run = .running ∨ s.run = .held) then
    let s := { s with esc := { s.esc with charged := s.rc + 1 } }
    match s.chargeCause with
    | (some c, s) =>
      let s := s.addFld F.ES_HOLD_CNT_COUNT 0 c 1
      if c = 7 then s else s.satFld F.ES_HOLD_BEAT_CURRENT 0 0 1
    | (none, s) => s
  else s

def execHoldAccounting (s : State) : Out := .next s.holdAccounting

/-- HOLD_BEAT_ROLLOVER (R62). -/
def State.rollover (s : State) : State :=
  let last := s.fld F.ES_HOLD_BEAT_CURRENT 0 0
  let s := s.setFlds 0 0 [(F.ES_HOLD_BEAT_LAST, last), (F.ES_HOLD_BEAT_CURRENT, 0)]
  if s.fld F.ES_HOLD_CFG_BUDGET 0 0 < last then
    (s.setFld F.ES_HOLD_STATUS_OVER 0 0 1).satFld F.ES_HOLD_STATUS_OVER_COUNT 0 0 1
  else s

end Sys2Proof.Machine
end

