-- ==== Sys2Proof/Machine/Checkpoint.lean ====
section
/-! DEFINITION. Checkpoints of the root dies (R303 to R308), the copy of moved tiles' images (R311), and the writes of a
PERMUTE round (R259). -/

namespace Sys2Proof.Machine

/-! ## Places (R304, R306) -/

/-- Bytes of the checkpoint set, D. -/
def State.ckptLen (s : State) (r : Nat) : Nat :=
  (s.fld F.RT_CKPT_SET_MLEN r 0 + s.fld F.RT_CKPT_SET_GLEN r 0) * 1024
def State.ckptPart (s : State) (r : Nat) : Nat :=
  ckptP (s.fld F.RT_CKPT_SET_MLEN r 0) (s.fld F.RT_CKPT_SET_GLEN r 0)

/-- T of parity mode. -/
def stripeLen (d : Nat) : Nat := (d + 7 * 256 - 1) / (7 * 256) * 256

/-- Start of the own part (`peer` = 0) or peer part (1) of a slot. -/
def State.partAddr (s : State) (r slot peer : Nat) : Nat :=
  s.fld F.RT_CKPT_AREA_BASE r 0 + (2 * slot + peer) * s.ckptPart r

/-- Offset of a part's data. -/
def partData : Nat := 0x10000

def State.ckptMode (s : State) : Nat := s.fld F.RT_CKPT_CFG_MODE 0 0
def State.ckptHost (s : State) : Bool := s.fld F.RT_CKPT_CFG_HOST 0 0 == 1
def State.ckptBusy (s : State) (r : Nat) : Bool := s.fld F.RT_CKPT_STATUS_BUSY r 0 == 1

/-- A checkpoint of some root die is in progress. -/
def State.anyCkpt (s : State) : Bool := (upFrom 0 8).any s.ckptBusy

/-- First bytes of the job image hash. -/
def State.jobHash8 (s : State) : List Byte := match s.job with
  | some j => j.hash.take 8
  | none => zeros 8

/-- A header (Table 10.3). -/
structure CkptHdr where
  step  : Nat
  dev   : Nat
  root  : Nat
  kind  : Nat
  raise : Nat
  mlen  : Nat
  glen  : Nat
  crc   : Nat
  hash  : List Byte
  index : Nat
  valid : Bool
  deriving DecidableEq, Repr

/-- Its 256 bytes. -/
def CkptHdr.bytes (h : CkptHdr) : List Byte :=
  toBytes (h.step % 2 ^ 48) 8 ++ toBytes h.dev 2 ++ toBytes (h.root + h.kind * 16) 1 ++ toBytes h.raise 1
    ++ toBytes h.mlen 4 ++ toBytes h.glen 4 ++ toBytes h.crc 4 ++ h.hash ++ toBytes h.index 8
    ++ toBytes (b2n h.valid) 1 ++ zeros 215

/-- A header read back. -/
def readHdr (d : List Byte) : CkptHdr :=
  let f (o n : Nat) : Nat := ofBytes ((d.drop o).take n)
  { step := f 0 8 % 2 ^ 48, dev := f 8 2, root := f 10 1 % 8, kind := f 10 1 / 16 % 4, raise := f 11 1, mlen := f 12 4
    glen := f 16 4, crc := f 20 4, hash := (d.drop 24).take 8, index := f 32 8, valid := f 40 1 % 2 == 1 }

/-! ## Packets of a root die -/

/-- WRITE packets of a root die with system address `a`, cut so that none crosses a 256-byte boundary (R172). -/
def State.rootCut (s : State) (r unit : Nat) (op : RootOp) (a : Nat) : Nat → List Byte → State
  | 0, _ => s
  | fuel + 1, d =>
    if d.isEmpty then s
    else
      let k := 256 - a % 256
      let p := d.take k
      State.rootCut (s.rootSend r op (fun tag => mkPacket
        { dest := a, unit := unit, dev := s.self, kind := 1, len := p.length, tag := tag, payload := p })) r unit op
        (a + k) fuel (d.drop k)

/-- Unit identifier of a root die's checkpoint engine. -/
def ckptUnit (r : Nat) : Nat := unitId 9 r

/-- What the checkpoint engine meets does not mark the step unclean (R308). -/
def State.keepClean (old s : State) : State :=
  (upFrom 0 8).foldl (fun s r => s.setFld F.RT_STEP_STATUS_UNCLEAN r 0 (old.fld F.RT_STEP_STATUS_UNCLEAN r 0))
    { s with unclean := old.unclean, uncleanNext := old.uncleanNext }

/-- CHECKPOINT_FAULT (R308). -/
def State.ckptFault (s : State) (r : Nat) : State :=
  if s.ckptBusy r then
    s.setFlds r 0 [(F.RT_CKPT_STATUS_FAULT, 1), (F.RT_CKPT_STATUS_BUSY, 0)]
  else s

/-- An RDMA WRITE of the checkpoint engine to host storage, in packets of 4,096 bytes (R305). -/
def State.hostWrite (s : State) (r va : Nat) : Nat → List Byte → State
  | 0, _ => s
  | fuel + 1, d =>
    if d.isEmpty then s
    else
      let q := s.fld F.RT_CKPT_HOST_QP 0 0
      let x := s.qps.read Qp.fresh q
      if !x.conn || x.err then s.ckptFault r
      else
        let s : State := { s with
          qps := s.qps.write Qp.fresh q { x with sendPsn := (x.sendPsn + 1) % 2 ^ 24, ops := x.ops ++ [⟨x.sendPsn, r, none⟩] } }
        State.hostWrite (s.emit (.rdmaWrite q x.sendPsn (s.fld F.RT_CKPT_HOST_RKEY 0 0) va (d.take 4096))) r (va + 4096) fuel
          (d.drop 4096)

/-- Address in host storage of the own part of a slot. -/
def State.hostPart (s : State) (r slot : Nat) : Nat :=
  s.fld F.RT_CKPT_HOSTADDR_ADDR 0 0 + (2 * r + slot) * s.ckptPart r

/-! ## A checkpoint (R303, R305 to R308) -/

/-- Pieces of 256 bytes that a checkpoint copies: the own data, in parity mode with the zeros that fill stripe 6 (R306). -/
def State.ckptPieces (s : State) (r : Nat) : Nat :=
  let d := s.ckptLen r
  if s.ckptMode = 2 then 7 * stripeLen d / 256 else d / 256

/-- The start of a checkpoint of root die `r` for step `n`. Stripes of members that started before it stand in its parity window
(R306). -/
def State.ckptStart (s : State) (n r : Nat) : State :=
  let cur := (s.rve r).cur
  (s.setFld F.RT_CKPT_STATUS_BUSY r 0 1).updRoot r (fun q => { q with ckpt :=
    { step := n, slot := s.fld F.RT_CKPT_STATUS_NEXT_SLOT r 0, raise := s.raise, index := n / s.fld F.RT_CKPT_CFG_PERIOD 0 0
      xored := q.ckpt.xored, host := 0, hdrs := false, xbad := q.ckpt.xbad, mb := s.ctl r (8 + cur) % 2 ^ 38, gb := s.ctl r (10 + cur) % 2 ^ 38
      pos := 0, next := 0 } })

/-- The engine has sent `n` bytes: it may send again when RATE bytes in each rc allow it, 100 MB/s being one byte (R305). -/
def State.ckptSent (s : State) (r n : Nat) : State :=
  let k := s.fld F.RT_CKPT_CFG_RATE 0 0
  s.updRoot r (fun q => { q with ckpt := { q.ckpt with next := s.rc + (n + k - 1) / k } })

/-- The copy of piece `k` for another device (R305, R306). -/
def State.ckptSend (s : State) (r k : Nat) (d : List Byte) : State :=
  let at' (dev o : Nat) : Nat := sysAddr dev (s.partAddr r (s.root r).ckpt.slot 1 + partData + o)
  match s.ckptMode with
  | 1 => s.rootCut r (ckptUnit r) .checkpoint (at' (s.fld F.RT_CKPT_PEER_BUDDY 0 0) (256 * k)) 2 d
  | 2 =>
    let t := stripeLen (s.ckptLen r)
    let m := (s.fld F.RT_CKPT_PEER_MEMBER 0 0 + 256 * k / t + 1) % 8
    s.rootCut r (ckptUnit r) .checkpoint (at' ((ckptGroup s.fld).getD m 0) (256 * k % t)) 2 d
  | _ => s

/-- The own data up to piece `k`, once it fills 4,096 bytes or is complete, goes to host storage (R305); how many bytes went. -/
def State.ckptToHost (s : State) (r k : Nat) : Nat × State :=
  let d := s.ckptLen r
  let o := 256 * k / 4096 * 4096
  let n := 256 * (k + 1) - o
  let slot := (s.root r).ckpt.slot
  if s.ckptHost && decide (256 * k < d) && (n == 4096 || 256 * (k + 1) == d) then
    (n, s.hostWrite r (s.hostPart r slot + partData + o) 2 (s.dramBytes (s.partAddr r slot 0 + partData + o) n))
  else (0, s)

/-- The engine copies its next piece: it reads it, writes it into the own part and sends its copies (R303 to R306). It waits for the
paths of both lines (R208) and for RATE (R305); an uncorrectable word fails the checkpoint (R308). -/
def State.ckptPiece (s : State) (r : Nat) : State :=
  let c := (s.root r).ckpt
  let k := c.pos
  if !s.ckptBusy r || decide (s.ckptPieces r ≤ k) || decide (s.rc < c.next) then s
  else
    let m := s.fld F.RT_CKPT_SET_MLEN r 0 * 1024
    let src := if 256 * k < m then c.mb + 256 * k else c.gb + (256 * k - m)
    let dst := s.partAddr r c.slot 0 + partData + 256 * k
    let own := decide (256 * k < s.ckptLen r)
    if own && (s.lineHeld src 256 || s.lineHeld dst 256) then (s.startRetries src 256).startRetries dst 256
    else
      let (d, bad, s') := if own then s.dramRead src 256 else (zeros 256, false, s)
      let (ok, s') := if own && !bad then s'.dramWrite dst d else (true, s')
      let s' := s.keepClean s'
      if bad || !ok then s'.ckptFault r
      else
        let s := (s'.updRoot r (fun q => { q with ckpt := { q.ckpt with pos := k + 1 } })).ckptSend r k d
        let (n, s) := s.ckptToHost r k
        s.ckptSent r (n + if s.ckptMode = 0 then 0 else 256)

/-- The parity windows of root dies with no checkpoint in progress have met no stripe of the next one. DEDUCED (log entry 137): such a
stripe comes after the device is ready for the beat that adopts the commit, and every stripe of an earlier checkpoint before it. -/
def State.freshWindows (s : State) : State :=
  (upFrom 0 8).foldl (fun s r =>
    let c := (s.root r).ckpt
    if s.ckptBusy r || (c.xored == 0 && !c.xbad) then s
    else s.updRoot r (fun q => { q with ckpt := { q.ckpt with xored := 0, xbad := false } })) s

/-- CHECKPOINT_START (R303): a commit of step `n`. -/
def State.ckptStartAll (s : State) (n : Nat) : State :=
  if (s.ckptMode ≠ 0 ∨ s.ckptHost) ∧ n % s.fld F.RT_CKPT_CFG_PERIOD 0 0 = 0 then
    (upFrom 0 8).foldl (fun s r => s.ckptStart n r) s
  else s

/-- Whether a WRITE of a checkpoint engine to DRAM byte `a` lies in a parity window of root die `r` (R306). -/
def State.parityWindow (s : State) (r a : Nat) : Option Nat :=
  if s.ckptMode = 2 then
    (upFrom 0 2).find? (fun j => decide (s.partAddr r j 1 + partData ≤ a)
      && decide (a < s.partAddr r j 1 + partData + stripeLen (s.ckptLen r)))
  else none

/-- XOR bytes into the peer data of slot `j`, zeroed before the first of a checkpoint (R306); an uncorrectable word fails the
checkpoint and marks no step unclean (R308). -/
def State.parityXor (s : State) (r j a : Nat) (d : List Byte) : Bool × State :=
  let t := stripeLen (s.ckptLen r)
  let c := (s.root r).ckpt
  let first := c.xored == 0
  let s0 := s
  let s := if first then (s.dramWrite (s.partAddr r j 1 + partData) (zeros t)).2 else s
  let (old, bad, s) := s.dramRead a d.length
  let (ok, s) := if bad then (false, s) else s.dramWrite a (List.zipWith (· ^^^ ·) old d)
  let s := (State.keepClean s0 s).updRoot r (fun q =>
    { q with ckpt := { q.ckpt with xored := c.xored + d.length, xbad := q.ckpt.xbad || !ok } })
  (ok, if ok then s else s.ckptFault r)

/-- The header of a part of root die `r` whose data is `d`. -/
def State.ckptHdr (s : State) (r kind : Nat) (d : List Byte) : CkptHdr :=
  let c := (s.root r).ckpt
  { step := c.step, dev := s.self, root := r, kind := kind, raise := c.raise, mlen := s.fld F.RT_CKPT_SET_MLEN r 0
    glen := s.fld F.RT_CKPT_SET_GLEN r 0, crc := crc32 d, hash := s.jobHash8, index := c.index, valid := true }

/-- Every copy of root die `r`'s checkpoint has been written and acknowledged (R307). -/
def State.ckptDone (s : State) (r : Nat) : Bool :=
  let q := s.root r
  s.ckptBusy r && decide (s.ckptPieces r ≤ q.ckpt.pos) && decide (q.ckpt.next ≤ s.rc) && q.outs.all (fun o => decide (o.op ≠ .checkpoint))
    && s.qps.all (fun e => e.2.ops.all (fun o => o.read.isSome || o.root != r))
    && (s.ckptMode != 2 || decide (7 * stripeLen (s.ckptLen r) ≤ q.ckpt.xored))

/-- The headers that leave the root die: to its buddy and to host storage (R305). -/
def State.ckptHeaders (s : State) (r : Nat) (d : List Byte) : State :=
  let c := (s.root r).ckpt
  let s := (s.updRoot r (fun q => { q with ckpt := { q.ckpt with hdrs := true } })).ckptSent r
    ((if s.ckptMode = 1 then 256 else 0) + if s.ckptHost then 256 else 0)
  let s := if s.ckptMode = 1 then
      s.rootCut r (ckptUnit r) .checkpoint (sysAddr (s.fld F.RT_CKPT_PEER_BUDDY 0 0) (s.partAddr r c.slot 1)) 2
        (s.ckptHdr r 1 d).bytes
    else s
  if s.ckptHost then s.hostWrite r (s.hostPart r c.slot) 1 (s.ckptHdr r 0 d).bytes else s

/-- The root die writes its own headers with VALID = 1, and the checkpoint is the last done (R307). -/
def State.ckptFinish (s : State) (r : Nat) (d : List Byte) : State :=
  let c := (s.root r).ckpt
  let s := (s.dramWrite (s.partAddr r c.slot 0) (s.ckptHdr r 0 d).bytes).2
  let s := if s.ckptMode = 2 then
      (s.dramWrite (s.partAddr r c.slot 1)
        (s.ckptHdr r 2 (s.dramBytes (s.partAddr r c.slot 1 + partData) (stripeLen (s.ckptLen r)))).bytes).2
    else s
  s.setFlds r 0
    [(F.RT_CKPT_STATUS_BUSY, 0), (F.RT_CKPT_STATUS_LAST_DONE, c.step), (F.RT_CKPT_STATUS_NEXT_SLOT, 1 - c.slot)]

/-- The own headers, which a finished checkpoint writes. -/
def State.ckptOwnHdrs (s : State) (r : Nat) : List (Nat × Nat) :=
  let c := (s.root r).ckpt
  (s.partAddr r c.slot 0, 256) :: (if s.ckptMode = 2 then [(s.partAddr r c.slot 1, 256)] else [])

/-- CHECKPOINT_COMPLETE (R307), once every copy has been acknowledged: the headers that leave the root die are sent, and once
they are acknowledged too, or where there is none, the own headers are written, when their lines are free, and NEXT_SLOT inverts. -/
def State.ckptComplete (s : State) (r : Nat) : State :=
  if s.ckptDone r then
    let c := (s.root r).ckpt
    let d := s.dramBytes (s.partAddr r c.slot 0 + partData) (s.ckptLen r)
    if s.ckptMode = 2 ∧ c.xbad then s.ckptFault r
    else if (s.ckptMode = 1 ∨ s.ckptHost) ∧ !c.hdrs then s.ckptHeaders r d
    else if s.rangesHeld (s.ckptOwnHdrs r) then s.startRanges (s.ckptOwnHdrs r)
    else s.ckptFinish r d
  else s

def execCheckpointComplete (r : Nat) (s : State) : Out := guardUnit (rootOk r) (s.ckptComplete r)

/-! ## Images of moved tiles (R311) -/

/-- Tile `t` still waits for its image. -/
def State.keepMoved (s : State) (t : Nat) : State := { s with esc := { s.esc with moved := s.esc.moved ++ [t] } }

/-- The persistent image of tile `t` goes from the tile image area into its scratchpad. -/
def State.copyImage (s : State) (t : Nat) : State :=
  match s.job.bind (fun j => j.tiles.find? (fun x => x.tile == t)) with
  | some x =>
    let (d, _, s) := s.dramRead x.img x.plen
    if (s.physOf t).isSome then s.spWrite t 5 0 d else s
  | none => s

/-- The persistent image of tile `t` in the tile image area. -/
def State.tileImage (s : State) (t : Nat) : List (Nat × Nat) :=
  (s.job.bind (fun j => j.tiles.find? (fun x => x.tile == t))).toList.map (fun x => (x.img, x.plen))

/-- TILE_IMAGE_COPY_DONE (R311): at the step boundary, after the commit that moved the tiles; an image whose lines are not free is
copied at a later one. -/
def State.imageCopyDone (s : State) : State :=
  if !s.esc.segOn && s.esc.cleared then
    s.esc.moved.foldl (fun s t =>
        if s.rangesHeld (s.tileImage t) then (s.startRanges (s.tileImage t)).keepMoved t else s.copyImage t)
      { s with esc := { s.esc with moved := [] } }
  else s

def execTileImageCopyDone (s : State) : Out := .next s.imageCopyDone

/-! ## PERMUTE rounds (R259) -/

/-- The pieces of an entry, one a WRITE packet: source, destination and length (R259). -/
def permPieces (src dst : Nat) : Nat → Nat → List (Nat × Nat × Nat)
  | 0, _ => []
  | fuel + 1, n =>
    if n = 0 then []
    else
      let k := min n (256 - dst % 256)
      (src, dst, k) :: permPieces (src + k) (dst + k) fuel (n - k)

/-- Read one piece and send it; an uncorrectable word sets PERM_FAULT (R260). -/
def State.permPiece (s : State) (r src dst n : Nat) : State :=
  let s0 := s
  let (d, bad, s) := s.dramRead src n
  let s := State.keepClean s0 s
  (if bad then s.permFault r else s).rootCut r (unitId 3 r) .permute dst 2 d

/-- PERMUTE_ROUND_START: the round-`j` entries whose SRC lies in the stack of root die `r`, in table order. -/
def State.permuteSend (s : State) (r : Nat) (l : List PermEntry) : State :=
  (l.filter (fun e => s.stackOf e.src == r)).foldl (fun s e =>
    (permPieces e.src e.dst (e.len / 256 + 2) e.len).foldl (fun s p =>
      if s.lineHeld p.1 p.2.2 then s.reqDram r ⟨p.1, p.2.2, .permute p.2.1⟩ else s.permPiece r p.1 p.2.1 p.2.2) s) s

/-- Round `j` begins on every root die. -/
def State.permuteRound (s : State) (p : Permute) (j : Nat) : State :=
  (upFrom 0 8).foldl (fun s r => s.permuteSend r (p.entries.filter (fun e => e.round == j)))
    { s with permute := some { p with finished := [] } }

/-- A read of a PERMUTE round waits in the request queue. -/
def DramReq.permutes (q : DramReq) : Bool :=
  match q.op with
  | .permute _ => true
  | _ => false

/-- PERMUTE_ROUND_DONE (R259): every packet of the root die's round has been acknowledged. -/
def State.permuteDone (s : State) (r : Nat) : State :=
  match s.permute with
  | some p =>
    if p.b0 ≤ s.beat ∧ s.beat < p.b0 + p.rounds ∧ !p.finished.contains r
        ∧ (s.root r).outs.all (fun o => decide (o.op ≠ .permute)) ∧ !(s.root r).reqs.any DramReq.permutes then
      { s.setPerm r ((s.rve r).perm / 65536 * 65536 + (s.beat - p.b0)) with
        permute := some { p with finished := p.finished ++ [r] } }
    else s
  | none => s

def execPermuteRoundDone (r : Nat) (s : State) : Out := guardUnit (rootOk r) (s.permuteDone r)

end Sys2Proof.Machine
end

