-- ==== Sys2Proof/Machine/Steps.lean ====
section
/-! DEFINITION. Steps and attempts: what a device does at the adoption of a beat (R33, R45, R62, R291 to R301, R339,
R363), and when it becomes locally ready (R47, R59, R259, R307, R311). -/

namespace Sys2Proof.Machine

/-! ## Actions of Table 10.1 -/

/-- Slots of the input streams: the enabled streams. -/
def State.streams (s : State) : List Nat := (upFrom 0 4).filter (fun i => s.fld F.ES_INPUT_CFG_EN 0 i == 1)
/-- Device counter of slot `k` of stream `i`. -/
def State.slotCtr (s : State) (i k : Nat) : Nat :=
  devCtr (s.fld (if k = 0 then F.ES_INPUT_CFG_CIDX0 else F.ES_INPUT_CFG_CIDX1) 0 i)

/-- Regions OPEN since beat `last`, as root die and region. -/
def State.openedIn (s : State) (last : Nat) : List (Nat × Nat) :=
  (upFrom 0 8).flatMap (fun r => ((upFrom 0 128).filter (fun i =>
    s.rgState r i == rgOpen && s.fld F.RT_RGN_OPENBEAT_BEAT r i == last)).map (fun i => (r, i)))

/-- Root die and region of the job's open records. -/
def Job.openNames (j : Job) : List (Nat × Nat) := j.opens.map (fun p => (p.1, ofBytes (p.2.take 1) % 128))

/-- Apply an open record of the job (R225, R339). -/
def State.applyOpen (s : State) (unit : Nat) (p : Nat × List Byte) : State :=
  let w (i : Nat) : Nat := ofBytes ((p.2.drop (8 * i)).take 8)
  s.openRegion p.1 unit (w 0) (w 1) (w 2) (w 3)

/-- Level every counter but the ones kept (R296, Table 10.1). -/
def State.levelAll (s : State) (kept : List Nat) : State :=
  { s with counters := SMap.mapVals Counter.fresh (fun k c => if kept.contains k then c else { c with c := c.s }) s.counters }

/-- Invert CUR unless SKIP, when `commit`; clear SKIP (R252). -/
def State.stepCur (s : State) (commit : Bool) : State :=
  (upFrom 0 8).foldl (fun s r => s.setRve r (fun v =>
    { v with cur := if commit && !v.skip then 1 - v.cur else v.cur, skip := false })) s

/-- A region goes to IDLE at a replay (Table 10.1). -/
def State.idleRegion (s : State) (r i : Nat) : State :=
  ((s.setFld F.RT_RGN_STAT_STATE r i rgIdle).setFld F.RT_RGN_RES_RR r i 0).rrClear r i

/-- A stationary buffer and an accumulator after job load (R141). -/
def Matrix.clear (m : Matrix) : Matrix :=
  { m with buf0 := .empty, buf1 := .empty, acc0 := .zero, acc1 := .zero, outs := [], mlds := [], mmas := [], drains := []
           lastMma := none, drainEnd := none }

/-- A core in RESET with its registers zero (R100), its matrix unit as after job load. -/
def Tile.coreReset (q : Tile) : Tile :=
  { q with core := .reset, loop := none, sreg := [], vreg := [], sready := [], vready := [], cyc := 0, wait := none
           bWord := none, overlay := [], coreLds := [], startAt := none, fetchRows := [], loopRows := [], matrix := q.matrix.clear }

/-- The restart of a core for a replay (R297): RESET, then WAITING at ENTRY. -/
def State.restartCore (s : State) (t : Nat) (q : Tile) : Tile :=
  if (s.physOf t).isNone then q
  else { q.coreReset with core := .waiting, pc := s.fld F.TL_ENTRY_ENTRY t 0 }

/-- An RVE in END_WAIT runs on at the adoption of a beat (R239); `replay`: at ENTRY with its registers zero. -/
def State.nextRve (s : State) (replay : Bool) (r : Nat) : State :=
  let v := s.rve r
  let go (v : Rve) : Rve := if replay then { v with pc := s.ctl r 7 % 32768, x := [], z := [] } else v
  match v.st with
  | .endWait => s.setRve r (fun v => { go v with st := .run })
  | .permute => if v.back = .endWait then s.setRve r (fun v => { go v with back := .run }) else s
  | _ => s

def State.nextRves (s : State) (replay : Bool) : State := (upFrom 0 8).foldl (fun s r => s.nextRve replay r) s

/-- Commit of step `n` (Table 10.1); `ckpt`: a checkpoint may start. -/
def State.commitStep (s : State) (n last : Nat) (ckpt : Bool) : State :=
  let kept := (s.openedIn last).map (fun p => rgnCtr p.1 p.2)
  let s := (s.setFlds 0 0 [(F.ES_STEP_NUM_STEP, n + 1), (F.ES_STEP_STATUS_ATTEMPT, 1), (F.ES_STEP_STATUS_LAST_VERDICT, 1)]).stepCur true
  let s := s.levelAll (kept ++ s.streams.map (fun i => s.slotCtr i ((n + 1) % 2)))
  let s := s.streams.foldl (fun s i => s.setFld F.ES_INPUT_LANDED_BYTES 0 (2 * i + n % 2) 0) s
  let s := s.nextRves false
  let s := if ckpt then s.ckptStartAll n else s
  s.addFld F.ES_STEP_COUNT_COMMITS 0 0 1

/-- Replay of step `n` (Table 10.1). -/
def State.replayStep (s : State) (n last : Nat) : State :=
  let opens := match s.job with
    | some j => j.opens
    | none => []
  let names := match s.job with
    | some j => j.openNames
    | none => []
  let kept := (s.openedIn last).filter (fun p => names.contains p)
  let s := ((s.satFld F.ES_STEP_STATUS_ATTEMPT 0 0 1).setFld F.ES_STEP_STATUS_LAST_VERDICT 0 0 0).stepCur false
  let s := s.levelAll (kept.map (fun p => rgnCtr p.1 p.2) ++ s.streams.map (fun i => s.slotCtr i ((n + 1) % 2)))
  let s := s.streams.foldl (fun s i =>
    s.applySig (s.slotCtr i (n % 2)) (s.fld F.ES_INPUT_LANDED_BYTES 0 (2 * i + n % 2)) (unitId 8 0) s.self) s
  let s := (upFrom 0 8).foldl (fun s r => (upFrom 0 128).foldl (fun s i =>
    if kept.contains (r, i) || s.rgState r i == rgIdle then s else s.idleRegion r i) s) s
  let s := opens.foldl (fun s p => if kept.contains (p.1, ofBytes (p.2.take 1) % 128) then s else s.applyOpen (unitId 8 0) p) s
  let s := { s with tiles := SMap.mapRange Tile.fresh (s.restartCore) 0 1536 s.tiles }
  (s.nextRves true).addFld F.ES_STEP_COUNT_REPLAYS 0 0 1

/-! ## Adoption (R45) -/

/-- The device stops (R298, R363); a commit still pending follows the rules of STOPPED (R33). -/
def State.stopRun (s : State) : State :=
  { s.setFlds 0 0 [(F.ES_STEP_STATUS_ATTEMPT, 0), (F.ES_STEP_STATUS_POS, 0)] with
    run := .stopped, stopBeat := none, permute := none
    commit := s.commit.map (fun c => { c with
      reached := c.target == 1 && decide (s.fld F.ES_COMMIT_BEAT_BEAT 0 0 ≤ s.beat) }) }

/-- The segment of position POS is due (R46, R58, R326). -/
def State.dueSegment (s : State) : State :=
  match s.job with
  | some j =>
    let c := j.seq.getD (s.fld F.ES_STEP_STATUS_POS 0 0) 0
    let len := match j.classes[c]? with
      | some x => x.len
      | none => 0
    let s := { s with esc := { s.esc with
      due0 := true, ended := false, cls := c, len := len, freezes := [], frozen := none, resume := none, tilesOk := false
      forced := false, dueDone := [], bndDone := [], decided := [], cause := 0 } }
    (match j.classes[c]? with
      | some x => x.bounds
      | none => []).foldl (fun s b => if b < 20 then s.clearingDecision b else s) s
  | none => s

/-- An attempt begins with the beat adopted. -/
def State.beginAttempt (s : State) : State :=
  (s.setFlds 0 0 [(F.ES_STEP_STATUS_ACC_CLEAN, 1), (F.ES_STEP_STATUS_POS, 0),
    (F.ES_STEP_NEXT_BEAT, s.beat + s.fld F.ES_STEP_CFG_BEATS 0 0)])

/-- DRAIN_START (R363). -/
def State.drainStart (s : State) : State := { s with run := .draining, stopBeat := none, permute := none }

/-- A STOP takes effect at an adoption that begins an attempt (R363). -/
def State.stopsHere (s : State) : Bool := match s.stopBeat with
  | some b => decide (b ≤ s.beat)
  | none => false

/-- The attempt's segment, or DRAINING in its place. -/
def State.attemptOrDrain (s : State) : State :=
  let s := s.beginAttempt
  if s.stopsHere then s.drainStart else s.dueSegment

/-- RUN_START (R295, R339). -/
def State.runStart (s : State) : State :=
  let secs := match s.job with
    | some j => j.rootSecs
    | none => []
  let s := { s.setFld F.ES_STEP_STATUS_ATTEMPT 0 0 1 with run := .running }
  let s := secs.foldl (fun s x => s.setRve x.root (fun v => { v with st := .run, pc := s.ctl x.root 7 % 32768 })) s
  s.attemptOrDrain

/-- Every RVE enters PERMUTE (R259). -/
def State.enterPermute (s : State) : State :=
  (upFrom 0 8).foldl (fun s r =>
    if (s.rve r).st = .permute then s
    else (s.setRve r (fun v => { v with back := v.st, st := .permute })).setPerm r ((s.rve r).perm ||| 2 ^ 16)) s

/-- The PERMUTE ends: every RVE returns to its state. -/
def State.leavePermute (s : State) : State :=
  (upFrom 0 8).foldl (fun s r =>
    (s.setRve r (fun v => if v.st = .permute then { v with st := v.back } else v)).setPerm r
      ((s.rve r).perm - (if bit (s.rve r).perm 16 then 2 ^ 16 else 0))) { s with permute := none }

/-- An attempt has ended, before beat `b`. -/
def State.attemptOver (s : State) (b : Nat) : State := { s with crown := { s.crown with attemptEnds := s.crown.attemptEnds ++ [b] } }

/-- REPLAY_LIMIT_STOP, or the verdict's actions (R295, R297, R298); `perm`: the beat is b0 of a PERMUTE. Answers whether
the run goes on. -/
def State.verdict (s : State) (perm : Bool) : Bool × State :=
  let n := s.fld F.ES_STEP_NUM_STEP 0 0
  let v := s.fld F.ES_STEP_STATUS_ACC_CLEAN 0 0
  let s := (s.attemptOver s.beat).setFld F.ES_STEP_STATUS_ACC_CLEAN 0 0 1
  if v = 0 ∧ s.fld F.ES_STEP_CFG_REPLAY_LIMIT 0 0 ≤ s.fld F.ES_STEP_STATUS_ATTEMPT 0 0 then
    (false, (s.setFlds 0 0 [(F.ES_STEP_STATUS_LIMIT, 1), (F.ES_STEP_STATUS_LAST_VERDICT, 0)]).stopRun)
  else if v = 1 then (true, s.commitStep n (s.beat - 1) (!perm))
  else (true, s.replayStep n (s.beat - 1))

/-- DN_CLEAN goes into ACC_CLEAN at the adoption of every beat (R295). -/
def State.accClean (s : State) (clean : Bool) : State :=
  s.setFld F.ES_STEP_STATUS_ACC_CLEAN 0 0 (if clean then s.fld F.ES_STEP_STATUS_ACC_CLEAN 0 0 else 0)

/-- A beat outside a PERMUTE: the next of its attempt, or the first of the next attempt. -/
def State.plainBeat (s : State) : State :=
  if s.beat < s.fld F.ES_STEP_NEXT_BEAT 0 0 then ((s.addFld F.ES_STEP_STATUS_POS 0 0 1).nextRves false).dueSegment
  else
    match s.verdict false with
    | (true, s) => s.attemptOrDrain
    | (false, s) => s

/-- The adoptions of b0 + 1 to b0 + R of a PERMUTE leave ACC_CLEAN (R295). -/
def State.inRounds (s : State) : Bool := s.permute.any (fun p => decide (p.b0 < s.beat) && decide (s.beat ≤ p.b0 + p.rounds))

/-- The beat of a run that is adopted (R295). -/
def State.runBeat (s : State) : State :=
  match s.permute with
  | some p =>
    if s.beat = p.b0 then
      match s.verdict true with
      | (true, s) =>
        if s.stopsHere then s.beginAttempt.leavePermute.drainStart
        else (s.enterPermute.setFld F.ES_STEP_NEXT_BEAT 0 0 (p.b0 + p.rounds)).permuteRound p 0
      | (false, s) => s.leavePermute
    else if p.b0 < s.beat ∧ s.beat < p.b0 + p.rounds then s.permuteRound p (s.beat - p.b0)
    else if s.beat = p.b0 + p.rounds then s.leavePermute.attemptOrDrain
    else s.plainBeat
  | none => s.plainBeat

/-- A WAITING target-1 commit meets a beat boundary outside segments (R33). -/
def State.boundaryCommit (s : State) (was : RunState) : State :=
  match s.commit with
  | some c =>
    if c.target = 1 ∧ s.fld F.ES_COMMIT_BEAT_BEAT 0 0 ≤ s.beat ∧
        (was = .idle ∨ was = .loaded ∨ was = .armed ∨ was = .stopped ∨ (was = .draining ∧ s.quiescent)) then
      s.applyCommit
    else s
  | none => s

/-- A Chime that is due is not sent: its Chime beat is counted (R365, R419). -/
def Chime.miss (c : Chime) : Chime := { c with due := none, missed := if c.due.isSome then (c.missed + 1) % 2 ^ 32 else c.missed }

/-- A Chime beat is adopted (R365); one that falls in a restart of the Crown is counted in MISSED (R419). -/
def State.chimeBeat (s : State) : State :=
  let c := s.crown.chime
  if c.on && decide (c.base ≤ s.beat) && (s.beat - c.base) % c.n == 0 then
    (let c := { c.miss with due := some s.beat }
     { s with crown := { s.crown with chime := if s.seqr.held.contains 1 || s.fld F.RS_BOOT_PHASE 0 0 != 5 then c.miss else c } })
  else s

/-- The present beat is an override beat of a cause: 0 budget, 1 droop or thermal, 2 droop of a root die (R397). -/
def State.overMark (s : State) (i : Nat) : State :=
  let (b, n) := s.crown.overs.read (0, 0) i
  if n ≠ 0 ∧ s.beat < b + n then s
  else { s with crown := { s.crown with overs := s.crown.overs.write (0, 0) i (if n = 0 then (s.beat, 1) else (b, n + 1)) } }

/-- A cause acts now. -/
def State.overOn (s : State) (i : Nat) : Bool :=
  match i with
  | 0 => s.kBudget != 0
  | 1 => s.kProt != 0
  | _ => s.reg.droop.any (fun e => decide (4 ≤ e.1))

/-- The end of a beat: it is an override beat of each cause that acts; consecutive ones of a cause that has ended become one
record (R397; its CODE and INFO: log entry 66). -/
def State.overBeat (s : State) : State :=
  (upFrom 0 3).foldl (fun s i =>
    let s := if s.overOn i then s.overMark i else s
    let (b, n) := s.crown.overs.read (0, 0) i
    if n ≠ 0 ∧ b + n ≤ s.beat then
      { s.note { s.errNote 0xB 0 0 0 i with cls := 0, beat := b, count := n } with
        crown := { s.crown with overs := s.crown.overs.write (0, 0) i (0, 0) } }
    else s) s

/-- The beat that begins is an override beat of each cause that acts (R397). -/
def State.overBegin (s : State) : State := (upFrom 0 3).foldl (fun s i => if s.overOn i then s.overMark i else s) s

/-- BEAT_ADOPT (R45): the device adopts the beat after its own, with DN_CLEAN = `clean`. A PARKED RVE marks every beat
unclean, during a PERMUTE too (R248). -/
def State.adopt (s : State) (clean : Bool) : State :=
  let was := s.run
  let s : State := s.rollover.overBeat
  let s : State := s.setFlds 0 0 [(F.ES_BEAT_NUM_BEAT, s.beat + 1), (F.ES_BEAT_STATUS_LAST_CLEAN, b2n clean)]
  let s : State := s.overBegin
  let s : State := (upFrom 0 8).foldl (fun s r => s.setFlds r 0 [(F.RT_STEP_STATUS_UNCLEAN, 0), (F.RT_STEP_STATUS_NF, 0),
    (F.RT_STEP_STATUS_OVF, 0), (F.RT_STEP_STATUS_RESIDUE, 0)]) s
  let parked := (upFrom 0 8).filter (fun r =>
    decide ((s.rve r).st = .parked) || decide ((s.rve r).st = .permute ∧ (s.rve r).back = .parked))
  let s : State := parked.foldl (fun s r => s.setFld F.RT_STEP_STATUS_UNCLEAN r 0 1) s
  let s := { s with
    unclean := s.uncleanNext || !parked.isEmpty, uncleanNext := false
    tiles := SMap.mapVals Tile.fresh (fun _ q => { q with unclean := false }) s.tiles
    bt := { s.bt with domReady := none }
    esc := { s.esc with adopted := s.edge, ready := false, cleared := false, ended := false, due0 := false } }
  let s := s.chimeBeat
  let s := if s.inRounds then s else s.accClean clean
  let s :=
    match was with
    | .armed => if s.armBeat ≤ s.beat then s.runStart else s
    | .running | .held => s.runBeat
    | _ => s
  s.boundaryCommit was

/-! ## Local readiness (R47) -/

/-- The device is locally ready for its beat (R42, R47). -/
def State.locallyReady (s : State) : Bool := s.idleRun || s.esc.ready

/-- The present beat is the last of its attempt (R291), or the one before a PERMUTE. -/
def State.atStepBoundary (s : State) : Bool := decide (s.fld F.ES_STEP_NEXT_BEAT 0 0 = s.beat + 1)

/-- Every root program has reached the end of its work (R239). -/
def State.rvesDone (s : State) : Bool :=
  (upFrom 0 8).all (fun r => match (s.rve r).st with
    | .run => false
    | _ => true)

/-- The beats of a PERMUTE. -/
def State.inPermute (s : State) : Bool := match s.permute with
  | some p => decide (p.b0 ≤ s.beat) && decide (s.beat < p.b0 + p.rounds)
  | none => false

/-- The device waits at a step boundary for a checkpoint (R307). -/
def State.lateWait (s : State) : State :=
  (upFrom 0 8).foldl (fun s r => if s.ckptBusy r then s.setFld F.RT_CKPT_STATUS_LATE r 0 1 else s) s

/-- LOCAL_READY (R47, R59, R259, R307, R311): after the segment end, the clearing and what the beat waits for. -/
def State.localReady (s : State) : State :=
  if s.esc.ready || !(s.run == .running || s.run == .held) || !s.atRc then s
  else if s.inPermute then
    if s.quiescent && (match s.permute with
        | some p => (upFrom 0 8).all (fun r => p.finished.contains r)
        | none => true) then { s with esc := { s.esc with ready := true, readyAt := s.edge } }
    else s
  else
    let s := s.endClearing
    if s.esc.ended && s.esc.cleared && s.esc.hold.isNone && s.rvesDone then
      if s.atStepBoundary && s.anyCkpt then s.lateWait
      else if s.esc.moved.isEmpty then
        let s := { s with esc := { s.esc with ready := true, readyAt := s.edge } }
        let s := if s.atStepBoundary then s.freshWindows else s
        if s.permute.any (fun p => p.b0 == s.beat + 1) then s.enterPermute else s
      else s
    else s

def execLocalReady (s : State) : Out := .next s.localReady

/-- COMMIT_APPLY (R33, R35): a WAITING commit meets its clearing or beat. -/
def State.commitApply (s : State) : State :=
  match s.commit with
  | none => s
  | some c =>
    match s.run with
    | .running | .held => if s.esc.frozen.isSome then s.clearing else s.endClearing
    | .draining => if c.target = 0 ∧ s.atRc ∧ s.quiescent then s.applyCommit else s
    | .faulted => s
    | _ => if c.target = 0 || c.reached then s.applyCommit else s

def execCommitApply (s : State) : Out := .next s.commitApply

/-- RUN_STOPPED (R363): a DRAINING device is quiescent with no checkpoint in progress; it becomes locally ready. -/
def State.runStopped (s : State) : State :=
  if s.run = .draining ∧ s.atRc ∧ s.quiescent ∧ !s.anyCkpt then
    let s := { s.commitApply with esc := { s.esc with ready := true, readyAt := s.edge } }
    s.stopRun
  else s

def execRunStopped (s : State) : Out := .next s.runStopped

/-- MARK_UNCLEAN (R294): a write of 1 to ES_STEP_CTRL.MARK_UNCLEAN. -/
def execMarkUnclean (s : State) : Out := .next s.markUnclean

end Sys2Proof.Machine
end

