-- ==== Sys2Proof/Machine/BeatTree.lean ====
section
/-! DEFINITION. The beat tree (R39 to R45): beat words sent and received, the reduction over a subtree, reference edges
at the beat root, and the state FAULTED. -/

namespace Sys2Proof.Machine

/-- ROLE: 0 none, 1 member, 2 root (Table 2.9). -/
def State.role (s : State) : Nat := s.fld F.ES_BEAT_CFG_ROLE 0 0
/-- Link `n` leads to a child. -/
def State.isChild (s : State) (n : Nat) : Bool := s.role != 0 && bit (s.fld F.ES_BEAT_CFG_CHILD_MASK 0 0) n
/-- Link `n` leads to the parent. -/
def State.isParent (s : State) (n : Nat) : Bool := s.role == 1 && s.fld F.ES_BEAT_CFG_PARENT_LINK 0 0 == n

/-! ## Reduction (R44) -/

/-- The beat word held from child `n`; none while it contributes nothing. -/
def State.childWord (s : State) (n : Nat) : Option Nat :=
  let w := (s.bt.words.read 0 n).toNat
  if s.bt.heard.contains n && bit w 7 then some w else none

/-- The child is ready for the present beat. -/
def State.childReady (s : State) (n : Nat) : Bool := match s.childWord n with
  | some w => bits w 15 8 == s.beat % 256 && bit w 6
  | none => false

/-- Child links. -/
def State.children (s : State) : List Nat := (upFrom 0 24).filter s.isChild

def State.subtreeReady (s : State) : Bool := s.locallyReady && s.children.all s.childReady
def State.subtreeClean (s : State) : Bool :=
  !s.unclean && s.children.all (fun n => !s.childReady n || (match s.childWord n with
    | some w => bit w 5
    | none => true))
def State.subtreeNohold (s : State) : Bool :=
  s.esc.frozen.isNone && s.children.all (fun n => match s.childWord n with
    | some w => bit w 4
    | none => true)
def State.subtreeFault (s : State) : Bool :=
  s.run == .faulted || s.children.any (fun n => match s.childWord n with
    | some w => bit w 3
    | none => false)

/-- The beat word sent on link `n` (Table 2.1, R374). -/
def State.beatWord (s : State) (n : Nat) : W32 :=
  if s.bt.mute then 0
  else
    let down := if s.isChild n then s.beat % 256 * 2 ^ 24 + 2 ^ 23 + s.fld F.ES_BEAT_STATUS_LAST_CLEAN 0 0 * 2 ^ 22 else 0
    let up := if s.isParent n then
        s.beat % 256 * 256 + 128 + b2n s.subtreeReady * 64 + b2n (s.subtreeReady && s.subtreeClean) * 32
          + b2n s.subtreeNohold * 16 + b2n s.subtreeFault * 8
      else 0
    BitVec.ofNat 32 (down + up + (if s.role = 2 then b2n s.bt.tgl * 4 else 0))

/-! ## The beat root (R40, R42) -/

/-- What the beat root registers at an rc edge (R42): domain ready, and NOHOLD = 0 in the interval. -/
def State.registerBeat (s : State) : State :=
  if s.role = 2 then
    { s with bt := { s.bt with
      domReady := if s.subtreeReady then (match s.bt.domReady with
        | none => some s.rc
        | some x => some x) else none
      noHoldLow := s.bt.noHoldLow || (!s.subtreeNohold && s.bt.lastEdge != some s.rc) } }
  else s

/-- An edge reaches the root: a glitch, a missed edge, or an issue (R40, R42, R45). -/
def State.rootEdge (s : State) : State :=
  if s.bt.lastEdge.any (fun l => decide (s.rc - l < s.fld F.ES_REF_CFG_REF_MIN_GAP 0 0)) then
    s.addFld F.ES_BEAT_STATUS_GLITCHES 0 0 1
  else
    let held := s.bt.noHoldLow || !s.subtreeNohold
    let clean := s.subtreeClean
    let issue := s.bt.domReady.any (fun x => decide (x + 1 ≤ s.rc))
    let s := { s.setFld F.ES_BEAT_STATUS_REF_LOST 0 0 0 with
      bt := { s.bt with lastEdge := some s.rc, refFrom := s.rc, tgl := !s.bt.tgl, noHoldLow := false } }
    if issue then s.adopt clean
    else s.addFld (if held then F.ES_MISSED_EDGES_HELD else F.ES_MISSED_EDGES_UNHELD) 0 0 1

/-- A beat word accepted on REF_LINK (R40): the first only sets the held value. DESIGN CHOICE (log entry 130): an edge that comes
between two rc edges is registered at the later, as one of BEAT_IN is. -/
def State.refWord (s : State) (tgl : Bool) : State :=
  let s' := { s with bt := { s.bt with held := some tgl } }
  match s.bt.held with
  | none => s'
  | some h =>
    if h = tgl then s'
    else if s.atRc then s'.rootEdge
    else { s' with bt := { s'.bt with linkEdges := s.bt.linkEdges + 1 } }

/-- REF_EDGE (R40): ignored by a device whose role is not root, and from the source that REF_SRC does not name. An edge of BEAT_IN
is registered at the first rc edge that follows it (R430); DESIGN CHOICE (log entry 130): one in the tile-clock cycle of an rc edge
registers there. -/
def State.refEdge (s : State) (x : EdgeSource) : State :=
  if s.role = 2 then
    match x with
    | .beatIn =>
      if s.fld F.ES_BEAT_CFG_REF_SRC 0 0 = 0 then
        (if s.atRc then s.rootEdge else { s with bt := { s.bt with pinEdge := true } })
      else s
    | .refWord g => if s.fld F.ES_BEAT_CFG_REF_SRC 0 0 = 1 then s.refWord g else s
  else s

/-- `n` edges reach the root at one rc edge, one after another. -/
def State.rootEdges (s : State) : Nat → State
  | 0 => s
  | n + 1 => State.rootEdges s.rootEdge n

/-- At an rc edge the edges that came before it are registered (R42, R430). -/
def State.pinRegister (s : State) : State :=
  if s.atRc ∧ (s.bt.pinEdge ∨ s.bt.linkEdges ≠ 0) then
    let pin := b2n s.bt.pinEdge
    let words := s.bt.linkEdges
    let s := { s with bt := { s.bt with pinEdge := false, linkEdges := 0 } }
    if s.role = 2 then s.rootEdges (if s.fld F.ES_BEAT_CFG_REF_SRC 0 0 = 0 then pin else words) else s
  else s

def execRefEdge (x : EdgeSource) (s : State) : Out := .next (s.refEdge x)

/-- REF_TIMEOUT (R40). -/
def State.refTimeout (s : State) : State :=
  let t := s.fld F.ES_REF_CFG_REF_TIMEOUT 0 0
  if s.role = 2 ∧ t ≠ 0 ∧ s.bt.refFrom + t ≤ s.rc then s.setFld F.ES_BEAT_STATUS_REF_LOST 0 0 1 else s

def execRefTimeout (s : State) : Out := .next s.refTimeout

/-! ## Beat words received (R43, R45) -/

/-- A device-fatal condition without reset: FAULTED (Table 12.5), where no segment runs and ATTEMPT reads 0 (Table 10.8). -/
def State.enterFaulted (s : State) : State :=
  let s := s.stopSegment
  { s.setFld F.ES_STEP_STATUS_ATTEMPT 0 0 0 with run := .faulted, esc := { s.esc with ready := false } }

/-- BEAT_SEQUENCE_ERROR (R45). -/
def State.seqError (s : State) : State :=
  ((s.setFld F.ES_BEAT_STATUS_SEQ_ERR 0 0 1).note { s.errNote 6 0 (unitId 8 0) 0 0 with cls := 3 }).enterFaulted

/-- A beat word that a flit on link `n` brings (R43 to R45); none is taken while the escapement is in reset. -/
def State.takeBeat (s : State) (n : Nat) (w : W32) : State :=
  let v := w.toNat
  if s.seqr.held.contains 9 then s
  else
    let s := { s with bt := { s.bt with
      words := s.bt.words.write 0 n w
      heard := if s.isChild n && bit v 7 && !s.bt.heard.contains n then s.bt.heard ++ [n] else s.bt.heard } }
    let s := if s.role = 2 ∧ s.fld F.ES_BEAT_CFG_REF_LINK 0 0 = n then s.refEdge (.refWord (bit v 2)) else s
    if s.isParent n && bit v 23 then
      if bits v 31 24 = (s.beat + 1) % 256 then s.adopt (bit v 22)
      else if bits v 31 24 = s.beat % 256 then s else s.seqError
    else s

end Sys2Proof.Machine
end

