-- ==== Sys2Proof/Machine/Links.lean ====
section
/-! DEFINITION. Bahel links (R266 to R288): sending and receiving link flits, retry and credits, training and
retraining, and lane sparing. -/

namespace Sys2Proof.Machine

/-! ## Link flits (Tables 9.2, 9.3) -/

def flitCtrl (f : LinkFlit) (hi lo : Nat) : Nat := wbits f.ctrl hi lo

/-- Bytes 0 to 251. -/
def flitBytes (beat : W32) (ctrl : W64) (payload : List Byte) : List Byte :=
  toBytes beat.toNat 4 ++ toBytes ctrl.toNat 8 ++ payload

/-- A flit with its CRC (R268); the payload is filled with zeros. -/
def mkFlit (beat : W32) (ty seq ack stream fill crStream crTotal : Nat) (d : List Byte) : LinkFlit :=
  let ctrl : W64 := BitVec.ofNat 64 (seq % 4096 + ack % 4096 * 2 ^ 12 + ty % 4 * 2 ^ 24 + stream % 4 * 2 ^ 26
    + fill % 256 * 2 ^ 28 + crStream % 4 * 2 ^ 36 + crTotal % 4096 * 2 ^ 38)
  let pl := d ++ zeros (240 - d.length)
  { beat := beat, ctrl := ctrl, payload := pl, crc := BitVec.ofNat 32 (crc32 (flitBytes beat ctrl pl)), fec := [] }

/-- The 256 bytes of a flit (Table 9.2). -/
def wireBytes (f : LinkFlit) : List Byte := flitBytes f.beat f.ctrl f.payload ++ toBytes f.crc.toNat 4

/-- The physical lane of a lane position, with position `spare` on lane 8 (R266). -/
def laneOf (spare p : Nat) : Nat := if p = spare then 8 else p

/-- A codeword of RS(544,514): 514 data symbols of 10 bits, the lowest first, and 30 check symbols, which are free values: the spec
names the code and not its generator (log entry 139). -/
def rsCodeword (bits5140 : Nat) : List Nat :=
  let d := (upFrom 0 514).map (fun i => bits bits5140 (10 * i + 9) (10 * i))
  d ++ (upFrom 0 30).map (fun i => Config.rsCheck d i % 1024)

/-- The symbols of each physical lane: symbol s goes on lane position s mod 8, and a position on its lane of the far end's map. -/
def laneSymbols (txMap : Nat) (c : List Nat) : List (List Nat) :=
  (upFrom 0 9).map (fun l => (upFrom 0 8).flatMap (fun p =>
    if laneOf txMap p = l then (c.zipIdx.filter (fun x => x.2 % 8 == p)).map (·.1) else []))

/-- A flit joins the stream of bits that codewords are cut from; 5,140 bits make a codeword (R267). -/
def Link.encode (x : Link) (f : LinkFlit) : Link :=
  let n := x.encLen + 2048
  let v := x.encBits + ofBytes (wireBytes f) * 2 ^ x.encLen
  if n < 5140 then { x with encLen := n, encBits := v }
  else { x with encLen := n - 5140, encBits := v / 2 ^ 5140, lanes := laneSymbols x.txMap (rsCodeword (v % 2 ^ 5140)) }

/-- RS(544,514) corrects up to 15 symbols of a codeword (R267). -/
def codewordOk (c : Codeword) : Bool := decide (c.errs.length ≤ 15)

/-- The flit passes its CRC: it overlaps no codeword that the FEC could not correct (R267, R268). -/
def flitGood (f : LinkFlit) : Bool :=
  f.fec.all codewordOk && crc32 (flitBytes f.beat f.ctrl f.payload) == f.crc.toNat

/-- Receive buffer of a stream in packet flits (Table 9.4). -/
def streamFlits (st : Nat) : Nat :=
  match st with
  | 0 => 1536
  | 2 => 1024
  | _ => 512

/-- A link in state UP whose logic is out of reset. -/
def State.linkRuns (s : State) (n : Nat) : Bool := s.linkState n == lkUp && !s.seqr.held.contains 2

/-! ## Sending (R269, R270, R272, R274) -/

/-- Bytes a stream has queued. -/
def Link.ready (x : Link) (st : Nat) : Nat := ((x.txq.read [] st).map (fun t => t.left.length)).foldl (· + ·) 0
/-- Bytes of a packet flit that has entered a DATA flit only in part. -/
def Link.partFlit (x : Link) (st : Nat) : Nat := (((x.txq.read [] st).head?.map (fun t => t.left.length % 32)).getD 0)
/-- Bytes that credit lets a stream send. -/
def Link.allowed (x : Link) (st : Nat) : Nat := x.partFlit st + 32 * (streamFlits st - x.unret.read 0 st)
/-- Bytes the stream's next DATA flit would carry. -/
def Link.nextFill (x : Link) (st : Nat) : Nat := min 240 (min (x.ready st) (x.allowed st))

/-- Streams in their order of precedence. -/
def streamOrder : List Nat := [3, 2, 1, 0]

/-- The stream of the next DATA flit: one that has waited 16 flit times, else the first in order (R270). -/
def Link.pick (x : Link) : Option Nat :=
  let can := streamOrder.filter (fun st => decide (0 < x.nextFill st))
  match can.find? (fun st => decide (16 ≤ x.waited.read 0 st)) with
  | some st => some st
  | none => can.head?

/-- Take `n` bytes off a queue: what is left, the packets whose bytes were taken, and those that left whole. -/
def takeBytes : Nat → List TxPkt → List TxPkt × List Byte × List TxPkt × List TxPkt
  | _, [] => ([], [], [], [])
  | n, t :: l =>
    if n = 0 then (t :: l, [], [], [])
    else if t.left.length ≤ n then
      let (q, d, ps, gone) := takeBytes (n - t.left.length) l
      (q, t.left ++ d, t :: ps, t :: gone)
    else ({ t with left := t.left.drop n } :: l, t.left.take n, [t], [])

/-- Streams that wait one more flit time. -/
def Link.age (x : Link) (sent : Option Nat) : Link :=
  { x with waited := streamOrder.foldl (fun (w : SMap Nat) (st : Nat) =>
      if sent = some st ∨ x.nextFill st = 0 then w.write 0 st 0 else w.write 0 st (min 16 (w.read 0 st + 1))) x.waited }

/-- Put a flit on the wire, which encodes it, and count the flit time. -/
def State.wireOut (s : State) (n ty seq stream fill : Nat) (d : List Byte) : State :=
  let x := s.link n
  let f := mkFlit (s.beatWord n) ty seq (x.rxExp + 4095) stream fill x.crNext (x.rxFreed.read 0 x.crNext) d
  s.setLink n { x.encode f with
    wire := some f
    crNext := (x.crNext + 1) % 4, reqAge := min 64 (x.reqAge + 1) }

/-- A new DATA flit of stream `st`. -/
def State.sendData (s : State) (n st : Nat) : State :=
  let x := s.link n
  let k := x.nextFill st
  let (q, d, ps, gone) := takeBytes k (x.txq.read [] st)
  let entered := (k - min k (x.partFlit st) + 31) / 32
  let h : HeldFlit := { seq := x.txSeq, stream := st, payload := d, pkts := ps.map (fun t => (t.pkt, t.src))
                        cont := (x.txq.read [] st).head?.any (fun t => !t.whole) }
  let s := s.setLink n { x.age (some st) with
    txq := x.txq.write [] st q, txSeq := (x.txSeq + 1) % 4096, replay := x.replay ++ [h]
    unret := x.unret.write 0 st (x.unret.read 0 st + entered) }
  let s := gone.foldl (fun s t => s.freeRx t.src t.pkt) s
  (s.addFld F.LK_CNT_TXDATA_COUNT n 0 1).wireOut n 0 x.txSeq st k d

/-- LINK_FLIT_SEND (R269): one flit time of a link in state UP. A REPLAY_REQ goes first, then replays, then new data. -/
def State.flitSend (s : State) (n : Nat) : State :=
  if s.linkRuns n then
    let x := s.link n
    let dry := streamOrder.any (fun st => decide (0 < x.ready st) && x.allowed st == 0)
    let s := if dry then s.addFld F.LK_CNT_CWAIT_COUNT n 0 1 else s
    if x.sendReq then
      ((s.setLink n { x.age none with sendReq := false }).wireOut n 2 x.txSeq 0 0 []).updLink n (fun x => { x with reqAge := 0 })
    else
      match x.resend with
      | h :: rest =>
        (s.setLink n { x.age none with resend := rest }).wireOut n 0 h.seq h.stream h.payload.length h.payload
      | [] =>
        match (if x.replay.length < 512 then x.pick else none) with
        | some st => s.sendData n st
        | none => (s.setLink n (x.age none)).wireOut n 1 x.txSeq 0 0 []
  else s

def execLinkFlitSend (n : Nat) (s : State) : Out := guardUnit (linkOk n) (s.flitSend n)

/-! ## Receiving (R271 to R274) -/

/-- A REPLAY_REQ is due: the first of a wait, or 64 flit times after the last (R271). -/
def Link.request (x : Link) : Link :=
  if x.asking ∧ x.reqAge < 64 then x else { x with asking := true, sendReq := true }

/-- A received ACK covers a SEQ. -/
def covers (ack seq : Nat) : Bool := decide ((ack + 4096 - seq % 4096) % 4096 < 2048)

/-- ACK and credit fields take effect. -/
def Link.takeFields (x : Link) (f : LinkFlit) : Link :=
  let ack := flitCtrl f 23 12
  let st := flitCtrl f 37 36
  let tot := flitCtrl f 49 38
  let moved := x.replay.any (fun h => covers ack h.seq)
  { x with
    replay := x.replay.filter (fun h => !covers ack h.seq), resend := x.resend.filter (fun h => !covers ack h.seq)
    reqs := if moved then 0 else x.reqs
    unret := x.unret.write 0 st (x.unret.read 0 st - (tot + 4096 - x.crSeen.read 0 st) % 4096)
    crSeen := x.crSeen.write 0 st tot }

/-- Payload bytes that a header announces (R172): a READ_REQ carries none. -/
def announced (p : Packet) : Nat := if p.kind = 1 ∨ p.kind = 2 ∨ p.kind = 4 ∨ p.kind = 6 then p.h 14 8 0 else 0

/-- Whole packets of a stream's bytes, and the rest. -/
def wholePackets : Nat → List Byte → List Packet × List Byte
  | 0, d => ([], d)
  | fuel + 1, d =>
    if d.length < 32 then ([], d)
    else
      let h : Packet := { hdr := BitVec.ofNat 256 (ofBytes (d.take 32)), payload := [] }
      let n := announced h
      let k := 32 + (n + 31) / 32 * 32
      if d.length < k then ([], d)
      else
        let (ps, rest) := wholePackets fuel (d.drop k)
        ({ h with payload := (d.drop 32).take n } :: ps, rest)

/-- An accepted payload: whole packets go on by R278; CHECK is verified again at the ring die (R179). -/
def State.takePayload (s : State) (n st : Nat) (d : List Byte) : State :=
  let all := (s.link n).rxBytes.read [] st ++ d
  let (ps, rest) := wholePackets (all.length + 1) all
  let s := s.updLink n (fun x => { x with rxBytes := x.rxBytes.write [] st rest })
  ps.foldl (fun s p => (if p.checkOk then s else s.xbErr 4 0 1 p).routeOut (some ⟨n, st, (s.link n).session⟩) p) s

/-- A DATA flit by its SEQ (R271). -/
def State.takeData (s : State) (n : Nat) (f : LinkFlit) : State :=
  let x := s.link n
  let seq := flitCtrl f 11 0
  if seq = x.rxExp then
    ((s.setLink n { x with rxExp := (x.rxExp + 1) % 4096, asking := false }).addFld
      F.LK_CNT_RXDATA_COUNT n 0 1).takePayload n (flitCtrl f 27 26) (f.payload.take (flitCtrl f 35 28))
  else if (seq + 4096 - x.rxExp) % 4096 < 2048 then s.setLink n x.request
  else s

/-- A REPLAY_REQ (R272, R273). -/
def State.takeReplayReq (s : State) (n : Nat) (f : LinkFlit) (before : Link) : State :=
  let x := s.link n
  let moved := before.replay.any (fun h => covers (flitCtrl f 23 12) h.seq)
  let k := if moved then 0 else x.reqs + 1
  let s := (s.setLink n { x with resend := x.replay, reqs := k }).addFld F.LK_CNT_REPLAY_COUNT n 0 1
  if 8 ≤ k then (s.updLink n (fun x => { x with reqs := 0 })).linkRetrain n false else s

/-- A codeword ends (R267): each corrected symbol counts against the physical lane of its position, symbol mod 8; one that
cannot be corrected counts in LK_CNT_UNCORR. -/
def State.codeword (s : State) (n : Nat) (c : Codeword) : State :=
  if codewordOk c then
    c.errs.foldl (fun s e =>
      s.satFld F.LK_LANE_SER_CURRENT n (laneOf (s.fld F.LK_STATUS_SPARE_IN_USE n 0) (e % 8)) 1) s
  else s.addFld F.LK_CNT_UNCORR_COUNT n 0 1

/-- A link flit arrives under the command of TYPE `ty` (R271). One that fails its CRC is discarded whatever it reads; one
whose TYPE is reserved comes as an IDLE flit, and only its BEAT, ACK and credit fields take effect. -/
def State.flitIn (s : State) (n ty : Nat) (f : LinkFlit) : State :=
  if s.linkRuns n && (!flitGood f || f.type == ty || (ty == 1 && f.type == 3)) then
    let s := (f.fec.filter (·.last)).foldl (fun s c => s.codeword n c) s
    if !flitGood f then (s.addFld F.LK_CNT_CRC_COUNT n 0 1).updLink n Link.request
    else
      let before := s.link n
      let s := (s.updLink n (fun x => x.takeFields f)).takeBeat n f.beat
      match ty with
      | 0 => s.takeData n f
      | 2 => s.takeReplayReq n f before
      | _ => s
  else s

def execLinkDataFlit (n : Nat) (f : LinkFlit) (s : State) : Out := guardUnit (linkOk n) (s.flitIn n 0 f)
def execLinkIdleFlit (n : Nat) (f : LinkFlit) (s : State) : Out := guardUnit (linkOk n) (s.flitIn n 1 f)
def execReplayReq (n : Nat) (f : LinkFlit) (s : State) : Out := guardUnit (linkOk n) (s.flitIn n 2 f)

/-- REPLAY_REQ_RESEND (R271): the expected flit has not come in 64 flit times. -/
def execReplayReqResend (n : Nat) (s : State) : Out :=
  guardUnit (linkOk n)
    (if s.linkRuns n && (s.link n).asking && (s.link n).reqAge == 64 then
      s.updLink n (fun x => { x with sendReq := true }) else s)

/-- LANE_LOSS_OF_LOCK (R273): an active lane position of a link in state UP. -/
def execLaneLossOfLock (n pos : Nat) (s : State) : Out :=
  guardUnit (linkOk n && decide (pos < 8)) (if s.linkRuns n then s.linkRetrain n false else s)

/-- FAR_END_RETRAIN (Table 9.6): the far end trains, so this end loses lock. -/
def execFarEndRetrain (n : Nat) (s : State) : Out :=
  guardUnit (linkOk n) (if s.linkRuns n then s.linkRetrain n false else s)

/-! ## Lanes (R285, R286) -/

/-- Mark a physical lane failed. -/
def State.laneFail (s : State) (n l : Nat) : State :=
  if bit (s.fld F.LK_LANE_HEALTH_FAILED n 0) l then s
  else (s.addFld F.LK_LANE_HEALTH_FAILED n 0 (2 ^ l)).lkErr n 1 0 none

/-- Positions that fail with the spare in position `spare`. -/
def failedPositions (failed spare : Nat) : List Nat :=
  (upFrom 0 8).filter (fun p => bit failed (laneOf spare p))

/-- The lanes marked failed in a window take the link DOWN: a failed position while the spare is in use in another or has failed itself,
or two at once (R286, Table 9.6). -/
def State.lanesDown (s : State) (n before : Nat) : Bool :=
  let spare := s.fld F.LK_STATUS_SPARE_IN_USE n 0
  let now := s.fld F.LK_LANE_HEALTH_FAILED n 0
  let fresh := (failedPositions now spare).filter (fun p => !bit before (laneOf spare p))
  (s.linkState n == lkUp || s.linkState n == lkRetrain)
    && ((decide (spare < 8) && !(failedPositions now spare).isEmpty) || decide (2 ≤ fresh.length))

/-- LANE_SER_WINDOW (R285): a window of 2^24 codewords ends. `counts`: corrected symbols by physical lane beyond those that
the window's flit commands carried. -/
def State.serWindow (s : State) (n : Nat) (counts : List Nat) : State :=
  let before := s.fld F.LK_LANE_HEALTH_FAILED n 0
  let s := ((upFrom 0 9).zip counts).foldl (fun s c =>
    let v := satAdd 32 (s.fld F.LK_LANE_SER_CURRENT n c.1) c.2
    let s := (s.setFld F.LK_LANE_SER_LAST n c.1 v).setFld F.LK_LANE_SER_CURRENT n c.1 0
    if s.fld F.LK_LANE_CFG_SER_LIMIT n 0 < v then s.laneFail n c.1 else s) s
  if s.lanesDown n before then s.linkDown n 2 else s

def execLaneSerWindow (n : Nat) (counts : List Nat) (s : State) : Out := guardUnit (linkOk n) (s.serWindow n counts)

/-- The lane map that a training settles on (R286), from the lanes that failed it and those marked FAILED: none when the link cannot
train, or when its spare is in use and another active position is marked. -/
def laneChoice (failed marked spare : Nat) : Option (Nat × Bool) :=
  let sound (p : Nat) (auto : Bool) : Option (Nat × Bool) :=
    if p < 8 ∧ failedPositions marked p ≠ [] then none else some (p, auto)
  match failedPositions failed spare with
  | [] => sound spare false
  | [p] => if spare ≥ 8 ∧ !bit marked 8 then sound p true else none
  | _ => none

/-- Record the lanes that failed training, and the map; false when two positions have failed. -/
def State.trainLanes (s : State) (n spare : Nat) (x : TrainResult) : Bool × State :=
  let s := (upFrom 0 9).foldl (fun s l => if bit x.failed.toNat l then s.laneFail n l else s) s
  match laneChoice x.failed.toNat (s.fld F.LK_LANE_HEALTH_FAILED n 0) spare with
  | some (p, auto) =>
    let s := (s.setFld F.LK_STATUS_SPARE_IN_USE n 0 p).updLink n (fun y =>
      { y with mapNew := false, txMap := if x.ok then x.farMap.toNat else y.txMap })
    (true, if auto then s.setFld F.LK_STATUS_AUTO_SPARED n 0 1 else s)
  | none => (false, s)

/-! ## Training (R277, R282, R288) -/

/-- The far end is the neighbour in the opposite group (R277). -/
def State.wiredOk (s : State) (n : Nat) (x : TrainResult) : Bool :=
  let k := s.fld F.LK_CFG_DIM n 0
  let dir := s.fld F.LK_CFG_DIRN n 0
  let me := s.fld F.LK_TOPO_PHYS 0 0
  let far := x.farPhys.toNat
  let sz := s.dimSize k
  decide (k < s.ndim) && decide (far < s.radix s.ndim)
    && x.farDim.toNat == k && b2n x.farDirn == 1 - dir
    && (upFrom 0 s.ndim).all (fun j =>
      if j = k then s.coord far j == (s.coord me j + (if dir = 0 then 1 else sz - 1)) % sz else s.coord far j == s.coord me j)

/-- A new session; packets that waited for the link stay queued. -/
def Link.newSession (x : Link) : Link :=
  { Link.fresh with txq := x.txq, waited := x.waited, mapNew := x.mapNew, txMap := x.txMap, session := x.session + 1 }

/-- TRAINING_COMPLETE (R282, R285, R286): a training ends; the lanes that failed one that did not succeed are marked too. -/
def State.trained (s : State) (n : Nat) (x : TrainResult) : State :=
  if s.linkState n = lkTraining ∧ !s.seqr.held.contains 2 then
    let (ok, s) := s.trainLanes n (s.fld F.LK_LANEMAP_SPARE_FOR n 0) x
    if !ok then s.linkDown n 2
    else if !x.ok then s
    else
      let s := s.setFlds n 0 [(F.LK_FAR_VALID, 1), (F.LK_FAR_DIRN, b2n x.farDirn), (F.LK_FAR_DIM, x.farDim.toNat),
        (F.LK_FAR_PHYS, x.farPhys.toNat), (F.LK_HOPLAT_HOP_PS, x.hopPs.toNat)]
      if !s.wiredOk n x then s.linkDown n 3
      else
        let s := (s.updLink n Link.newSession).setLinkState n lkUp
        if s.fld F.ES_BEAT_CFG_REF_LINK 0 0 = n then { s with bt := { s.bt with held := none } } else s
  else s

def execTrainingComplete (n : Nat) (x : TrainResult) (s : State) : Out := guardUnit (linkOk n) (s.trained n x)

/-- RETRAIN_COMPLETE (R282 to R284, R286): an attempt to retrain ends. -/
def State.retrained (s : State) (n : Nat) (x : TrainResult) : State :=
  if s.linkState n = lkRetrain ∧ !s.seqr.held.contains 2 then
    let y := s.link n
    let spare := if y.mapNew then s.fld F.LK_LANEMAP_SPARE_FOR n 0 else s.fld F.LK_STATUS_SPARE_IN_USE n 0
    let (ok, s) := s.trainLanes n spare x
    if !ok then s.linkDown n 2
    else if x.ok then
      (s.updLink n (fun z => { z with resend := z.replay, attempts := 0, reqs := 0 })).setLinkState n lkUp
    else if y.attempts + 1 ≥ 3 then s.linkDown n 1
    else s.updLink n (fun z => { z with attempts := z.attempts + 1 })
  else s

def execRetrainComplete (n : Nat) (x : TrainResult) (s : State) : Out := guardUnit (linkOk n) (s.retrained n x)

end Sys2Proof.Machine
end

