-- ==== Sys2Proof/Machine/Ethernet.lean ====
section
/-! DEFINITION. RoCEv2 at the Ethernet ports (R343 to R350): intake windows, RDMA WRITE and RDMA READ into DRAM,
requester operations, congestion, and intake landings (R299, R346). -/

namespace Sys2Proof.Machine

/-! ## Ports and queue pairs -/

def State.port (s : State) (p : Nat) : Port := s.ports.read Port.fresh p
def State.setPort (s : State) (p : Nat) (x : Port) : State := { s with ports := s.ports.write Port.fresh p x }
def State.updPort (s : State) (p : Nat) (f : Port → Port) : State := s.setPort p (f (s.port p))
def State.qp (s : State) (q : Nat) : Qp := s.qps.read Qp.fresh q
def State.setQp (s : State) (q : Nat) (x : Qp) : State := { s with qps := s.qps.write Qp.fresh q x }
def State.updQp (s : State) (q : Nat) (f : Qp → Qp) : State := s.setQp q (f (s.qp q))

/-- PSN arithmetic: `a` − `b` in 24 bits. -/
def psnSub (a b : Nat) : Nat := (a + 2 ^ 24 - b % 2 ^ 24) % 2 ^ 24
def psnAdd (a n : Nat) : Nat := (a + n) % 2 ^ 24

/-- The queue pair takes packets that arrive on port `p`. -/
def State.qpOn (s : State) (p q : Nat) : Bool := let x := s.qp q; x.conn && !x.err && x.port == p

/-- Data of piece `k` of a RESTORE, or its failure (R315). -/
def State.restoreGot (s : State) (k : Nat) (ok : Bool) (d : List Byte) : State :=
  match s.crown.restore with
  | none => s
  | some r =>
    let r' : Restore := { r with left := r.left - 1, got := r.got.write [] k d, bad := if ok then r.bad else r.bad ++ [k] }
    { s with crown := { s.crown with restore := some r' } }

/-- An operation ends in an error (R308, R315). -/
def State.opFail (s : State) (o : RdmaOp) : State :=
  match o.read with
  | some k => s.restoreGot k false []
  | none => s.ckptFault o.root

/-- The queue pair enters the error state, and its outstanding operations fail (R308, R343). -/
def State.qpError (s : State) (q : Nat) : State :=
  (s.qp q).ops.foldl (fun s o => s.opFail o) (s.updQp q (fun x => { x with err := true, ops := [] }))

/-- A NAK after which the queue pair is in the error state (R343). -/
def State.qpFail (s : State) (q nak : Nat) : State := (s.emit (.roceAck q (s.qp q).expPsn nak)).qpError q

/-- A packet marked Congestion Experienced: one CNP a queue pair in 50 µs (R344). -/
def State.ecnMark (s : State) (q : Nat) (ce : Bool) : State :=
  let x := s.qp q
  if ce && (x.cnpAt == 0 || decide (x.cnpAt + 5000 ≤ s.rc + 1)) then
    ((s.emit (.cnp q)).updQp q (fun x => { x with cnpAt := s.rc + 1 })).addFld F.EN_CNT_CNP_TX_COUNT x.port 0 1
  else s

/-! ## Intake windows (R345) -/

/-- The enabled window of port `p` that a remote key names. -/
def State.winOf (s : State) (p rkey : Nat) : Option Nat :=
  (upFrom 0 16).find? (fun w => s.fld F.EN_WIN_EN p w == 1 && s.fld F.EN_WIN_RKEY p w == rkey)

/-- Every byte of the message lies within window `w`; a message of no bytes has none that does not. -/
def State.winHolds (s : State) (p w va n : Nat) : Bool :=
  let b := s.fld F.EN_WIN_BASE p w * 1024
  n == 0 || decide (b ≤ va) && decide (va + n ≤ b + s.fld F.EN_WIN_LEN p w * 1024)

/-- The window that grants the access, if any. -/
def State.grant (s : State) (p rkey va n : Nat) (write : Bool) : Option Nat :=
  match s.winOf p rkey with
  | some w =>
    if s.winHolds p w va n && s.fld (if write then F.EN_WIN_WR else F.EN_WIN_RD) p w == 1 then some w else none
  | none => none

/-! ## The intake path (R346, R347, R350) -/

/-- The device waits for quiescence: the path sends nothing into it (R350). -/
def State.intakePaused (s : State) : Bool :=
  (s.esc.frozen.isSome && s.esc.resume.isNone && s.clearingOpen)
    || (s.esc.ended && !s.esc.cleared && (s.run == .running || s.run == .held))

/-- Bytes of the 8 MiB buffer in use. -/
def Port.held (x : Port) : Nat :=
  (x.intake.map (fun m => m.buf.length + (m.outs.map (·.2)).foldl (· + ·) 0)).foldl (· + ·) 0

/-- Send the payload of the message at place `j` toward DRAM, in pieces that cross no 256-byte boundary. -/
def State.intakeSend (s : State) (p j : Nat) : Nat → State
  | 0 => s
  | fuel + 1 =>
    let x := s.port p
    match x.intake[j]? with
    | none => s
    | some m =>
      if m.buf.isEmpty then s
      else
        let k := 256 - m.next % 256
        let d := m.buf.take k
        let m' := { m with next := m.next + d.length, buf := m.buf.drop k, outs := m.outs ++ [(x.nextTag, d.length)] }
        State.intakeSend
          ((s.setPort p { x with intake := x.intake.set j m', nextTag := (x.nextTag + 1) % 65536 }).send 6 0
            (mkPacket { dest := sysAddr s.self m.next, unit := unitId 6 p, dev := s.self, kind := 1, len := d.length
                        tag := x.nextTag, payload := d }))
          p j fuel

/-- Send the READ_REQ packets of the RDMA READ at place `j`. -/
def State.ethReadSend (s : State) (p j : Nat) : Nat → State
  | 0 => s
  | fuel + 1 =>
    let x := s.port p
    match x.reads[j]? with
    | none => s
    | some m =>
      match m.todo with
      | [] => s
      | (a, n) :: rest =>
        let k := m.n - m.todo.length
        State.ethReadSend
          ((s.setPort p { x with reads := x.reads.set j { m with todo := rest, outs := m.outs ++ [(x.nextTag, k, n)] }
                                 nextTag := (x.nextTag + 1) % 65536 }).send 6 0
            (mkPacket { dest := sysAddr s.self a, unit := unitId 6 p, dev := s.self, kind := 3, len := n, tag := x.nextTag }))
          p j fuel

/-- Whatever the path may send now. -/
def State.pumpPort (s : State) (p : Nat) : State :=
  if s.intakePaused || s.seqr.held.contains 3 then s
  else
    let s := (upFrom 0 (s.port p).intake.length).foldl (fun s j =>
      s.intakeSend p j (((s.port p).intake[j]?.map (fun m => m.buf.length)).getD 0 + 1)) s
    (upFrom 0 (s.port p).reads.length).foldl (fun s j =>
      s.ethReadSend p j (((s.port p).reads[j]?.map (fun m => m.todo.length)).getD 0 + 1)) s

def State.pumpPorts (s : State) : State := (s.pumpPort 0).pumpPort 1

/-- A WRITE of the path was answered (R346). -/
def State.intakeAck (s : State) (p tag : Nat) (ok : Bool) : State :=
  let n := (s.port p).intake.findSome? (fun m => (m.outs.find? (fun o => o.1 == tag)).map (·.2))
  let s := s.updPort p (fun x => { x with intake := x.intake.map (fun m =>
    if m.outs.any (fun o => o.1 == tag) then
      { m with outs := m.outs.filter (fun o => o.1 != tag), bad := m.bad || !ok }
    else m) })
  if ok then s.addFld F.EN_CNT_INTAKE_BYTES_COUNT p 0 (n.getD 0) else s

/-- Where piece `k` of a read begins in its response. -/
def EthRead.off (m : EthRead) (k : Nat) : Nat := if k = 0 then 0 else 256 * k - m.va % 256

/-- The response to a read: whole, or the packets before the one with the first bad word and in its place a remote
operational error NAK (R348). -/
def State.readAnswer (s : State) (m : EthRead) : State :=
  let d (n : Nat) : List Byte := (upFrom 0 n).flatMap (fun k => m.got.read [] k)
  match m.bad with
  | none => s.emit (.readResponse m.qp m.psn (d m.n))
  | some k =>
    let f := m.off k / 4096
    (if f = 0 then s else s.emit (.readResponse m.qp m.psn ((d k).take (4096 * f)))).emit (.roceAck m.qp (psnAdd m.psn f) 4)

/-- Finished reads answer in order (R348). -/
def State.ethReadDone (s : State) (p : Nat) : Nat → State
  | 0 => s
  | fuel + 1 =>
    match (s.port p).reads with
    | [] => s
    | m :: rest =>
      if m.todo.isEmpty && m.outs.isEmpty then
        State.ethReadDone ((s.updPort p (fun x => { x with reads := rest })).readAnswer m) p fuel
      else s

/-- Data of a READ_REQ of an RDMA READ came back; an uncorrectable word ends the response (R348). -/
def State.ethReadRsp (s : State) (p tag : Nat) (ok : Bool) (d : List Byte) : State :=
  let s := s.updPort p (fun x => { x with reads := x.reads.map (fun m =>
    match m.outs.find? (fun o => o.1 == tag) with
    | some o =>
      let first := match m.bad with
        | some k => min k o.2.1
        | none => o.2.1
      { m with outs := m.outs.filter (fun o => o.1 != tag), got := m.got.write [] o.2.1 d
               bad := if ok then m.bad else some first }
    | none => m) })
  s.ethReadDone p ((s.port p).reads.length + 1)

/-! ## Responder (R343, R345 to R348) -/

/-- What the packet sequence check says of a packet. -/
inductive PsnCheck where
  | expected | duplicate | ahead
  deriving DecidableEq, Repr

def psnCheck (exp psn : Nat) : PsnCheck :=
  if psn = exp then .expected else if psnSub exp psn < 2 ^ 23 then .duplicate else .ahead

/-- A packet that is not the expected one: a duplicate is acknowledged again, a gap gives one NAK (R343, R347). -/
def State.psnMiss (s : State) (q : Nat) (c : PsnCheck) : State :=
  let x := s.qp q
  match c with
  | .expected => s
  | .duplicate => s.emit (.roceAck q (psnSub x.expPsn 1) 0)
  | .ahead => if x.nakked then s else (s.emit (.roceAck q x.expPsn 1)).setQp q { x with nakked := true }

/-- Payload of an expected RDMA WRITE packet joins the last message of its queue pair. -/
def Port.append (x : Port) (q : Nat) (d : List Byte) (last : Bool) : Port :=
  { x with intake := x.intake.map (fun m =>
      if m.qp = q ∧ !m.whole then { m with buf := m.buf ++ d, whole := last } else m) }

/-- An expected RDMA WRITE packet of a message already open. -/
def State.writeTake (s : State) (p q : Nat) (last : Bool) (d : List Byte) : State :=
  let x := s.qp q
  if (last && d.length != x.msgLeft) || (!last && (d.length != 4096 || decide (x.msgLeft ≤ 4096))) then s.qpFail q 3
  else
    let s := (s.updPort p (fun y => y.append q d last)).setQp q
      { x with expPsn := psnAdd x.expPsn 1, nakked := false, msgLeft := x.msgLeft - d.length }
    (if last then s.emit (.roceAck q x.expPsn 0) else s).pumpPort p

/-- An RDMA WRITE packet (R345 to R347). After one that the full buffer drops, the next draws a NAK. -/
def State.rdmaWrite (s : State) (p q psn : Nat) (first last ce : Bool) (rkey va dmaLen : Nat) (d : List Byte) : State :=
  let s := s.addFld F.EN_CNT_RXFRAME_COUNT p 0 1
  if !s.qpOn p q then s
  else
    let s := s.ecnMark q ce
    let x := s.qp q
    match psnCheck x.expPsn psn with
    | .expected =>
      let midst := (s.port p).intake.any (fun m => m.qp == q && !m.whole)
      if first = midst then s.qpFail q 3
      else if (s.port p).held + d.length > 0x800000 then
        (s.addFld F.EN_CNT_INTAKE_DROP_COUNT p 0 1).setQp q { x with nakked := false }
      else if first then
        match s.grant p rkey va dmaLen true with
        | none => s.qpFail q 2
        | some w =>
          ((s.updPort p (fun y => { y with intake := y.intake ++
            [{ qp := q, win := w, addr := va, len := dmaLen, next := va, buf := [], whole := false, outs := []
               bad := false }] })).updQp q (fun x => { x with msgLeft := dmaLen })).writeTake p q last d
      else s.writeTake p q last d
    | c => s.psnMiss q c

def execRdmaWrite (p q : Nat) (psn : BitVec 24) (first last ce : Bool) (rkey : W32) (va dmaLen : Nat) (d : List Byte)
    (s : State) : Out :=
  guardUnit (portOk p && qpOk q) (s.rdmaWrite p q psn.toNat first last ce rkey.toNat va dmaLen d)

/-- Addresses and lengths of the reads of `n` bytes at `a`, none crossing a 256-byte boundary. -/
def cutSpan : Nat → Nat → Nat → List (Nat × Nat)
  | 0, _, _ => []
  | fuel + 1, a, n =>
    if n = 0 then []
    else let k := min n (256 - a % 256); (a, k) :: cutSpan fuel (a + k) (n - k)

/-- An RDMA READ request (R348); it takes the sequence numbers of its responses. -/
def State.rdmaRead (s : State) (p q psn : Nat) (ce : Bool) (rkey va n : Nat) : State :=
  let s := s.addFld F.EN_CNT_RXFRAME_COUNT p 0 1
  if !s.qpOn p q then s
  else
    let s := s.ecnMark q ce
    let x := s.qp q
    let serve (s : State) : State :=
      let l := cutSpan (n / 256 + 2) va n
      ((s.updPort p (fun y => { y with reads := y.reads ++
        [{ qp := q, psn := psn, va := va, todo := l, outs := [], got := [], n := l.length, bad := none }] })).pumpPort p).ethReadDone
        p ((s.port p).reads.length + 2)
    match psnCheck x.expPsn psn with
    | .expected =>
      if (s.grant p rkey va n false).isNone then s.qpFail q 2
      else serve (s.setQp q { x with expPsn := psnAdd x.expPsn (max 1 ((n + 4095) / 4096)), nakked := false })
    | .duplicate => if (s.grant p rkey va n false).isNone then s.qpFail q 2 else serve s
    | c => s.psnMiss q c

def execRdmaRead (p q : Nat) (psn : BitVec 24) (ce : Bool) (rkey : W32) (va n : Nat) (s : State) : Out :=
  guardUnit (portOk p && qpOk q) (s.rdmaRead p q psn.toNat ce rkey.toNat va n)

/-! ## Requester (R305, R315, R343, R344) -/

/-- Resend what is outstanding from sequence number `psn` on (R343). -/
def State.resend (s : State) (q psn : Nat) : State :=
  let psnOf : Sent → Option Nat
    | .rdmaWrite q' n _ _ _ => if q' = q then some n else none
    | .rdmaRead q' n _ _ _ => if q' = q then some n else none
    | .send q' n _ => if q' = q then some n else none
    | _ => none
  let ops := (s.qp q).ops.filter (fun o => psnSub o.psn psn < 2 ^ 23)
  let again := ops.filterMap (fun o => s.sent.reverse.find? (fun e => psnOf e == some o.psn))
  again.foldl (fun s x => s.emit x) s

/-- An acknowledgement (0) or NAK (R343): 1 and 5 resend, 2 to 4 put the queue pair in the error state. -/
def State.roceAck (s : State) (q psn nak : Nat) (ce : Bool) : State :=
  let x := s.qp q
  if !x.conn || x.err then s
  else
    let s := (s.addFld F.EN_CNT_RXFRAME_COUNT x.port 0 1).ecnMark q ce
    let x := s.qp q
    let last := if nak = 0 then psn else psnSub psn 1
    let s := s.setQp q { x with ops := x.ops.filter (fun o => o.read.isSome || decide (psnSub last o.psn ≥ 2 ^ 23)) }
    match nak with
    | 0 => s
    | 1 | 5 => s.resend q psn
    | _ => s.qpError q

def execRoceAckReceive (q : Nat) (psn : BitVec 24) (nak : AckIn) (s : State) : Out :=
  guardUnit (qpOk q) (s.roceAck q psn.toNat nak.nak nak.ce)

/-- The response to an RDMA READ of a restore. -/
def State.readResponse (s : State) (q psn : Nat) (ce : Bool) (d : List Byte) : State :=
  let x := s.qp q
  if !x.conn || x.err then s
  else
    let s := (s.addFld F.EN_CNT_RXFRAME_COUNT x.port 0 1).ecnMark q ce
    let x := s.qp q
    match x.ops.find? (fun o => o.read.isSome && o.psn == psn) with
    | none => s
    | some o =>
      (s.setQp q { x with ops := dropFirst (fun y => decide (y = o)) x.ops }).restoreGot (o.read.getD 0) true d

def execRdmaReadResponse (q : Nat) (psn : BitVec 24) (d : DataIn) (s : State) : Out :=
  guardUnit (qpOk q) (s.readResponse q psn.toNat d.ce d.data)

/-- A congestion notification halves the rate, at most once in 50 µs (R344). -/
def State.cnp (s : State) (q : Nat) (ce : Bool) : State :=
  let p := (s.qp q).port
  let s := ((s.addFld F.EN_CNT_RXFRAME_COUNT p 0 1).addFld F.EN_CNT_CNP_RX_COUNT p 0 1).ecnMark q ce
  let x := s.qp q
  let x := { x with quietAt := s.rc + 1 }
  if x.halfAt = 0 ∨ x.halfAt + 5000 ≤ s.rc + 1 then
    s.setQp q { x with halvings := x.halvings + 1, halfAt := s.rc + 1 }
  else s.setQp q x

def execCnpReceive (q : CnpIn) (s : State) : Out :=
  guardUnit (qpOk q.q) (if (s.qp q.q).conn then s.cnp q.q q.ce else s)

/-- After 55 µs without a notification the rate rises by 5 % of line rate, up to line rate (R344). -/
def State.rateRaise (s : State) (q : Nat) : State :=
  let x := s.qp q
  if x.conn && decide (x.quietAt + 5500 ≤ s.rc + 1) then
    let n := x.num + 2 ^ x.halvings
    if 20 * 2 ^ x.halvings ≤ n then s.setQp q { x with num := 20, halvings := 0, quietAt := s.rc + 1 }
    else s.setQp q { x with num := n, quietAt := s.rc + 1 }
  else s

def execRateRaiseTimer (q : Nat) (s : State) : Out := guardUnit (qpOk q) (s.rateRaise q)

/-! ## Intake landings (R299, R300, R346) -/

/-- The input stream and slot that wholly holds `n` bytes at `a`. -/
def State.inputSlot (s : State) (a n : Nat) : Option (Nat × Nat) :=
  ((upFrom 0 4).flatMap (fun i => [(i, 0), (i, 1)])).find? (fun x =>
    let len := s.fld F.ES_INPUT_CFG_LEN 0 x.1 * 1024
    let b := s.fld F.ES_INPUT_CFG_BASE 0 x.1 + x.2 * len
    s.fld F.ES_INPUT_CFG_EN 0 x.1 == 1 && decide (b ≤ a) && decide (a + n ≤ b + len))

/-- Count a landing into an input slot (R299, R300). -/
def State.countLanding (s : State) (a n : Nat) : State :=
  match s.inputSlot a n with
  | none => s
  | some (i, k) =>
    if n = 0 then s
    else if k = s.fld F.ES_STEP_NUM_STEP 0 0 % 2 ∧ 2 ≤ s.fld F.ES_STEP_STATUS_ATTEMPT 0 0 then
      (s.setFld F.ES_STEP_STATUS_INPUT_OVERWRITE 0 0 1).markUnclean
    else s.addFld F.ES_INPUT_LANDED_BYTES 0 (2 * i + k) n

/-- The message has been applied whole, and none of its queue pair waits before it (R346). -/
def Intake.done (m : Intake) : Bool := m.whole && m.buf.isEmpty && m.outs.isEmpty

/-- The first message that can land: every earlier one of its queue pair has landed. -/
def firstLanding (seen : List Nat) : List Intake → Option Intake
  | [] => none
  | m :: l => if m.done && !seen.contains m.qp then some m else firstLanding (m.qp :: seen) l

/-- INTAKE_LANDING (R346): one whole RDMA WRITE message. A message with a discarded packet does not signal. -/
def State.intakeLanding (s : State) (p : Nat) : State :=
  let s := s.pumpPort p
  match firstLanding [] (s.port p).intake with
  | none => s
  | some m =>
    let s := s.updPort p (fun x => { x with intake := dropFirst (fun y => decide (y = m)) x.intake })
    if m.bad then s
    else
      let s := s.countLanding m.addr m.len
      if s.fld F.EN_WIN_LSIG p m.win = 1 then
        s.applySig (devCtr (s.fld F.EN_WIN_CIDX p m.win)) m.len (unitId 6 p) s.self
      else s

def execIntakeLanding (p : Nat) (s : State) : Out := guardUnit (portOk p) (s.intakeLanding p)

end Sys2Proof.Machine
end

