-- ==== Sys2Proof/Machine/JobImage.lean ====
section
/-! DEFINITION. Job images (R322, R323, R326, R332): the header, the directory, the sections and their contents, and the
FORMAT, IMAGE_HASH and SECTION checks. -/

namespace Sys2Proof.Machine

/-- Little-endian number of `n` bytes at offset `o` (R4). -/
def le (d : List Byte) (o n : Nat) : Nat := ofBytes ((d.drop o).take n)

/-- A failed check: its code (Table 11.17), the image offset of the failing field, ITEM and CLASS (Tables 11.13, 11.14). -/
structure JobFail where
  code : Nat
  off  : Nat
  item : Nat
  cls  : Nat
  deriving DecidableEq, Repr

/-- A failure with neither an item nor a class. -/
def failAt (code off : Nat) : JobFail := ⟨code, off, 0, 0⟩

/-- The failure at the lowest image offset. -/
def leastFail : List JobFail → Option JobFail
  | [] => none
  | x :: l => match leastFail l with
    | none => some x
    | some y => if x.off ≤ y.off then some x else some y

/-- A directory entry (Table 11.1), with the offset of the entry itself. -/
structure Sect where
  typ  : Nat
  inst : Nat
  off  : Nat
  len  : Nat
  dir  : Nat
  deriving DecidableEq, Repr

/-- An image with its directory. -/
structure Image where
  data : List Byte
  secs : List Sect
  deriving DecidableEq, Repr

/-! ## Header and directory (Table 11.1) -/

/-- Directory entry `i`. -/
def sectAt (d : List Byte) (i : Nat) : Sect :=
  let o := 256 + 24 * i
  ⟨le d o 2, le d (o + 2) 2, le d (o + 8) 8, le d (o + 16) 8, o⟩

/-- Number of directory entries. -/
def sectCount (d : List Byte) : Nat := le d 16 2

/-- Offset of the first malformed field of the header or directory. -/
def headerBad (d : List Byte) : Option Nat :=
  let n := sectCount d
  if d.length < 256 || le d 0 4 != 0x494A4245 then some 0
  else if le d 4 2 ≠ 1 then some 4
  else if le d 7 1 ≠ 0 then some 7
  else if le d 8 8 ≠ d.length ∨ d.length % 64 ≠ 0 then some 8
  else if n = 0 ∨ 8192 < n ∨ d.length < 256 + 24 * n then some 16
  else if le d 18 6 ≠ 0 then some 18
  else if le d 128 128 ≠ 0 then some 128
  else ((upFrom 0 n).find? (fun i => le d (260 + 24 * i) 4 != 0)).map (fun i => 260 + 24 * i)

def imageOf (d : List Byte) : Image := ⟨d, (upFrom 0 (sectCount d)).map (sectAt d)⟩

/-- IMAGE_HASH of an image: bytes 72 to 119 taken as zero (R322). -/
def imageHash (d : List Byte) : BitVec 384 := Config.sha384 (d.take 72 ++ zeros 48 ++ d.drop 120)

/-- A hash as its 48 bytes in the order of the standard. -/
def hashBytes (h : BitVec 384) : List Byte := (toBytes h.toNat 48).reverse

/-! ## Sections (R323, Table 11.2) -/

/-- Section types with the number of instances each has. DESIGN CHOICE (log entry 148): a type for which Table 11.2 gives no range
has instance 0 alone. -/
def sectTypes : List (Nat × Nat) :=
  [(0x01, 1), (0x02, 1), (0x03, 1), (0x04, 4), (0x10, 1536), (0x11, 1536), (0x12, 4), (0x20, 8), (0x21, 8), (0x30, 1),
   (0x31, 1), (0x32, 1), (0x40, 1), (0x41, 4)]

def Image.all (g : Image) (typ : Nat) : List Sect := g.secs.filter (fun x => x.typ == typ)
/-- The section of a type that occurs once; an empty one where it is missing. -/
def Image.one (g : Image) (typ : Nat) : Sect := (g.all typ).headD ⟨typ, 0, 0, 0, 0⟩
def Image.inst (g : Image) (typ i : Nat) : Option Sect := (g.all typ).find? (fun x => x.inst == i)
/-- A number at offset `o` of a section. -/
def Image.num (g : Image) (x : Sect) (o n : Nat) : Nat := le g.data (x.off + o) n
def Image.bytes (g : Image) (x : Sect) : List Byte := (g.data.drop x.off).take x.len

/-- Logical tiles of a class (R328): column 15 only where the row's bit is set. -/
def classTiles (rows16 : Nat) : List Nat :=
  (upFrom 0 1536).filter (fun t => t % 16 < 15 || bit rows16 (24 * tileDie t + tileRow t))

/-- ROWS16 of the class descriptor. -/
def Image.rows16 (g : Image) : Nat := g.num (g.one 1) 4 12
def Image.tilesOf (g : Image) : List Nat := classTiles g.rows16
/-- NCLASS. -/
def Image.nclass (g : Image) : Nat := g.num (g.one 3) 0 1
/-- BEATS of TIMING. -/
def Image.beats (g : Image) : Nat := g.num (g.one 2) 20 4

/-- Two sections overlap, or one overlaps the directory. -/
def Image.overlaps (g : Image) (i : Nat) (x : Sect) : Bool :=
  x.len != 0 && (decide (x.off < 256 + 24 * g.secs.length)
    || (g.secs.take i).any (fun y => y.len != 0 && decide (x.off < y.off + y.len) && decide (y.off < x.off + x.len)))

/-- A directory entry that R323 refuses by itself. -/
def Image.entryBad (g : Image) (x : Sect) : Bool :=
  (match sectTypes.find? (fun p => p.1 == x.typ) with
    | none => true
    | some p => decide (p.2 ≤ x.inst))
  || x.off % 64 != 0 || decide (g.data.length < x.off + x.len)

/-- A length that the contents of the type cannot have (log entry 40). -/
def Image.lengthBad (g : Image) (x : Sect) : Bool :=
  match x.typ with
  | 0x01 | 0x02 => x.len != 64
  | 0x04 => x.len % 16 != 0
  | 0x10 => x.len != 24
  | 0x11 => x.len != 8 + 16 * (bits (g.num x 0 8) 9 1 + 1)
  | 0x12 => x.len != 8 + 16 * (bits (g.num x 0 8) 16 1 + 1)
  | 0x20 => decide (x.len < 40) || x.len % 8 != 0 || decide (40 + 8 * 32768 < x.len)
  | 0x21 => x.len % 32 != 0
  | 0x30 => x.len % 24 != 0
  | 0x31 => decide (x.len < 8)
  | 0x32 => x.len % 16 != 0
  | 0x41 => x.len != 16
  | _ => false

/-- Instances a type must have exactly once; none where it may occur any number of times. -/
def Image.wanted (g : Image) (typ : Nat) : Option (List Nat) :=
  match typ with
  | 0x01 | 0x02 | 0x03 | 0x40 => some [0]
  | 0x04 => some (upFrom 0 g.nclass)
  | 0x10 | 0x11 => some g.tilesOf
  | 0x12 => some (upFrom 0 4)
  | _ => none

/-- An entry that repeats an instance, or names one that the image must not have. -/
def Image.extra (g : Image) (i : Nat) (x : Sect) : Bool :=
  let again := (g.secs.take i).any (fun y => y.typ == x.typ && y.inst == x.inst)
  match g.wanted x.typ with
  | some l => again || !l.contains x.inst
  | none => x.typ == 0x20 && again

/-- A required section is missing. -/
def Image.missing (g : Image) : Bool :=
  sectTypes.any (fun p => match g.wanted p.1 with
    | some l => l.any (fun i => (g.inst p.1 i).isNone)
    | none => false)

/-! ## SEGMENTS and POWER -/

/-- Bytes of SEQ. -/
def seqBytes (beats : Nat) : Nat := (2 * beats + 63) / 64 * 8

/-- A segment class as SEGMENTS gives it. -/
structure RawClass where
  off    : Nat
  len    : Nat
  bounds : List Nat
  clear  : List Bool
  deriving DecidableEq, Repr

/-- `n` segment classes from image offset `o`; none where they do not fit before `lim`. -/
def readClasses (d : List Byte) (lim : Nat) : Nat → Nat → Option (List RawClass)
  | 0, _ => some []
  | n + 1, o =>
    let nb := le d (o + 4) 4
    let e := o + 8 + 4 * nb + (nb + 63) / 64 * 8
    if lim < o + 8 ∨ lim < e then none
    else
      let m := le d (o + 8 + 4 * nb) ((nb + 63) / 64 * 8)
      (readClasses d lim n e).map (fun l =>
        ⟨o, le d o 4, (upFrom 0 nb).map (fun j => le d (o + 8 + 4 * j) 4), (upFrom 0 nb).map (bit m)⟩ :: l)

def Image.classes (g : Image) : Option (List RawClass) :=
  let x := g.one 3
  let o := 8 + seqBytes g.beats
  if x.len < o then none else readClasses g.data (x.off + x.len) (min g.nclass 4) (x.off + o)

/-- SEQ (R326). -/
def Image.seq (g : Image) : List Nat :=
  (upFrom 0 g.beats).map (fun i => bits (g.num (g.one 3) (8 + i / 4) 1) (2 * (i % 4) + 1) (2 * (i % 4)))

/-- A power window (Table 11.10) at image offset `o`. -/
def readWindow (d : List Byte) (o : Nat) : Window :=
  { off := o, start := le d o 4, nMat := (upFrom 0 6).map (fun k => le d (o + 4 + 2 * k) 2), nFetch := le d (o + 16) 2
    dramBw := (upFrom 0 8).map (fun r => bits (le d (o + 20) 5) (5 * r + 4) (5 * r))
    pipeGrp := (upFrom 0 8).map (fun r => bits (le d (o + 25) 3) (3 * r + 2) (3 * r)), rve := le d (o + 28) 1 }

/-- The windows of a class, with the offset of their NW. -/
structure RawPower where
  off  : Nat
  wins : List Window
  deriving DecidableEq, Repr

/-- Windows of `n` classes from offset `o`; none where they do not fit. -/
def readPower (d : List Byte) (lim : Nat) : Nat → Nat → Option (List RawPower)
  | 0, _ => some []
  | n + 1, o =>
    let nw := le d o 4
    let e := o + 8 + 32 * nw
    if lim < o + 8 ∨ lim < e then none
    else (readPower d lim n e).map (fun l => ⟨o, (upFrom 0 nw).map (fun w => readWindow d (o + 8 + 32 * w))⟩ :: l)

def Image.power (g : Image) : Option (List RawPower) :=
  let x := g.one 0x40
  if x.len < 8 then none else readPower g.data (x.off + x.len) (min g.nclass 4) (x.off + 8)

/-- Directory offset of the first entry that R323 refuses; 0 where a section is missing. -/
def Image.sectionBad (g : Image) : Option Nat :=
  let first (p : Nat → Sect → Bool) : Option Nat := (g.secs.zipIdx.find? (fun q => p q.2 q.1)).map (fun q => q.1.dir)
  (first (fun _ x => g.entryBad x)).orElse fun _ =>
  (first (fun i x => g.overlaps i x)).orElse fun _ =>
  (first (fun i x => g.extra i x)).orElse fun _ =>
  if g.missing then some 0
  else (first (fun _ x => g.lengthBad x)).orElse fun _ =>
    if g.classes.isNone then some (g.one 3).dir
    else if g.power.isNone then some (g.one 0x40).dir else none

/-! ## Items of the repeated sections -/

/-- Image offsets of the items of `n` bytes in the sections of a type, with the instance, in directory order. -/
def Image.items (g : Image) (typ n : Nat) : List (Nat × Nat) :=
  (g.all typ).flatMap (fun x => (upFrom 0 (x.len / n)).map (fun i => (x.inst, x.off + n * i)))

/-- DRAM sections: offset, device address and bytes. -/
def Image.dram (g : Image) : List (Nat × Nat × List Byte) :=
  (g.all 0x31).map (fun x => (x.off, g.num x 0 8, (g.bytes x).drop 8))

/-- TILE sections in ascending tile. -/
def Image.tiles (g : Image) : List (Nat × TileSec) :=
  g.tilesOf.filterMap (fun t => (g.inst 0x10 t).map (fun x => (x.off, ⟨t, g.num x 0 8, g.num x 8 8, g.num x 16 8⟩)))

/-- ROOT sections. -/
def Image.roots (g : Image) : List (Nat × RootSec) :=
  (g.all 0x20).map (fun x => (x.off, ⟨x.inst, g.num x 0 8, g.num x 8 8, g.num x 16 8, g.num x 24 8, g.num x 32 8⟩))

/-- Due entries of class `c` with their offsets. -/
def Image.dues (g : Image) (c : Nat) : List (Nat × Due) :=
  match g.inst 0x04 c with
  | none => []
  | some x => (upFrom 0 (x.len / 16)).map (fun i =>
    let o := x.off + 16 * i
    (o, ⟨le g.data o 4, le g.data (o + 4) 4, le g.data (o + 8) 4, le g.data (o + 12) 4⟩))

/-- INTAKE sections. -/
def Image.intake (g : Image) : List IntakeSec :=
  (g.all 0x41).map (fun x => ⟨x.off, x.inst, g.num x 0 1, g.num x 8 8⟩)

/-- What the device keeps of an image (R326, R338). -/
def Image.job (g : Image) : Job :=
  let tm := g.one 2
  let cd := g.one 1
  let t (o n : Nat) : Nat := g.num tm o n
  let pw := g.power.getD []
  { profile := le g.data 6 1, classId := g.num cd 2 2, rows16 := g.rows16, roots := g.num cd 16 1, eth := g.num cd 17 1
    links := g.num cd 18 3, minBudget := g.num cd 24 4, seq := g.seq
    classes := (g.classes.getD []).zipIdx.map (fun p =>
      ⟨p.1.off, p.1.len, p.1.bounds, p.1.clear, (g.dues p.2).map (·.2), ((pw[p.2]?).map (·.wins)).getD []⟩)
    period := t 0 4, holdBudget := t 4 4, depth := t 12 2, hopMax := t 16 4
    rootCycles := (upFrom 0 4).map (fun c => t (32 + 4 * c) 4), alloc := g.num (g.one 0x40) 0 4
    tiles := g.tiles.map (·.2), rootSecs := g.roots.map (·.2)
    opens := (g.items 0x21 32).map (fun p => (p.1, (g.data.drop p.2).take 32)), openOffs := (g.items 0x21 32).map (·.2)
    offClass := cd.off, offTiming := tm.off, offPower := (g.one 0x40).off, intake := g.intake
    hash := (g.data.drop 72).take 48 }

end Sys2Proof.Machine
end

