-- ==== Sys2Proof/Machine/JobCheck.lean ====
section
/-! DEFINITION. The configuration checks of a job (R334 to R337, Table 11.12): at LOAD over the image and the staged values
it brings, and the ones repeated at ARM. -/

namespace Sys2Proof.Machine

/-! ## What the loader stages (R338 step 5) -/

/-- A field value to stage: field key, value, and the image offset it comes from. -/
structure StageItem where
  key : Nat
  val : Nat
  off : Nat
  deriving DecidableEq, Repr

/-- The RWS fields of the register word at address `a`, from the word `v`. -/
def wordItems (a v off : Nat) : List StageItem :=
  match Machine.regAt a with
  | none => []
  | some x => (x.fields.filter (fun f => decide (f.acc = .rws))).map (fun f =>
      ⟨f.key x.inst x.idx, (v >>> f.lo) % 2 ^ f.width, off⟩)

/-- One field. -/
def fieldItem (f : RegField) (i v off : Nat) : StageItem := ⟨f.key i 0, v % 2 ^ f.width, off⟩

/-- Address of a field's register word, for instance `i` and index `j`. -/
def RegField.addr (f : RegField) (i j : Nat) : Nat := f.key i j / 64

/-- An EXCHANGE or SWITCH section: the configuration word, then two words an entry. -/
def Image.progItems (g : Image) (x : Sect) (cfg e0 : RegField) : List StageItem :=
  wordItems (cfg.addr x.inst 0) (g.num x 0 8) x.off
    ++ (upFrom 0 ((x.len - 8) / 16)).flatMap (fun e =>
      wordItems (e0.addr x.inst e) (g.num x (8 + 16 * e) 8) (x.off + 8 + 16 * e)
        ++ wordItems (e0.addr x.inst e + 8) (g.num x (16 + 16 * e) 8) (x.off + 16 + 16 * e))

/-- REGS entries: image offset, address and value. -/
def Image.regs (g : Image) : List (Nat × Nat × Nat) :=
  (g.items 0x32 16).map (fun p => (p.2, le g.data p.2 8, le g.data (p.2 + 8) 8))

/-- Everything the loader stages, in its order. `resume`: an entry of ES_STEP_BASE is left out (R301). -/
def Image.stageItems (g : Image) (resume : Bool) : List StageItem :=
  let tm := g.one 2
  g.tiles.flatMap (fun p => [fieldItem F.TL_ENTRY_ENTRY p.2.tile p.2.entry (p.1 + 16),
      fieldItem F.MX_SR_SEED_SEED p.2.tile (le g.data 120 8) 120])
    ++ (g.all 0x11).flatMap (fun x => g.progItems x F.XC_XP_CFG_EN F.XC_XPE_START)
    ++ (g.all 0x12).flatMap (fun x => g.progItems x F.XC_XB_CFG_EN F.XC_XSE_START)
    ++ [fieldItem F.ES_HOLD_CFG_BUDGET 0 (g.num tm 4 4) (tm.off + 4), fieldItem F.ES_HOLD_CFG_LIMIT 0 (g.num tm 8 4) (tm.off + 8),
        fieldItem F.ES_STEP_CFG_BEATS 0 g.beats (tm.off + 20),
        fieldItem F.ES_STEP_CFG_REPLAY_LIMIT 0 (g.num tm 24 1) (tm.off + 24)]
    ++ g.regs.flatMap (fun p =>
      if resume && p.2.1 == F.ES_STEP_BASE_BASE.addr 0 0 then [] else wordItems p.2.1 p.2.2 p.1)

/-- The staging copies with the items in. -/
def State.stageAll (s : State) (l : List StageItem) : State :=
  { s with staged := l.foldl (fun m x => m.put x.key x.val) s.staged }

/-- Image offset of the item that stages a field; 0 where none does. -/
def offOf (l : List StageItem) (k : Nat) : Nat := ((l.find? (fun x => x.key == k)).map (·.off)).getD 0

/-- The items whose field, as staged, fails `p`. -/
def failsOf (code : Nat) (p : FieldAt → Bool) (l : List StageItem) : List JobFail :=
  l.filterMap (fun x => (keyField x.key).bind (fun f => if p f then some (failAt code x.off) else none))

/-- The items with a zero size as staged (R9): each failure names the item that stages the size, where one does. -/
def State.zeroItems (t : State) (l : List StageItem) : List JobFail :=
  l.filterMap (fun x => (keyField x.key).bind (fun f =>
    if t.zeroBad f then some (failAt 0xA (((l.find? (fun y => y.key == t.zeroKey f)).map (·.off)).getD x.off)) else none))

/-! ## Checks at LOAD alone -/

/-- A failure where the condition holds. -/
def failIf (c : Bool) (f : JobFail) : List JobFail := if c then [f] else []

/-- The devices' profiles (R330). -/
def profileOk (p : Nat) : Bool := p == 1 || (p == 2 && Config.steppingB0)

/-- Registers an image may set (Table 11.4). -/
def imageRegs : List RegName :=
  [.SP_CFG, .SP_BANKMASK, .XC_FE_CFG, .ES_HOLD_CFG, .ES_CLEAR_CFG, .ES_STEP_CFG, .ES_STEP_BASE, .ES_INPUT_CFG, .RT_DRAM_CFG,
   .RT_REFWIN, .RT_RGN_CFG, .RT_ACC_CFG, .RT_CKPT_SET, .RT_WPOLICY]

/-- R324. -/
def State.regForbidden (s : State) (a : Nat) : Bool :=
  a % 8 != 0 || (match s.regAt a with
    | some x => !imageRegs.contains x.info.name
    | none => true)

/-- Zero sizes (R9). `t`: the state with the image's values staged. -/
def Image.zeroFails (g : Image) (t : State) (l : List StageItem) : List JobFail :=
  failIf (g.nclass == 0) (failAt 0xA (g.one 3).off)
    ++ (g.classes.getD []).zipIdx.flatMap (fun p => failIf (p.1.len == 0) ⟨0xA, p.1.off, 0, p.2⟩
      ++ failIf p.1.bounds.isEmpty ⟨0xA, p.1.off + 4, 0, p.2⟩)
    ++ g.tiles.flatMap (fun p => failIf (p.2.plen == 0) (failAt 0xA p.1))
    ++ (g.power.getD []).zipIdx.flatMap (fun p => failIf p.1.wins.isEmpty ⟨0xA, p.1.off, 0, p.2⟩)
    ++ t.zeroItems l

/-- Reserved bits of an EXCHANGE (from bit 49) or SWITCH (from bit 26) section (R166, R169). -/
def Image.progReserved (g : Image) (x : Sect) (cfg hi : Nat) : List JobFail :=
  failIf (g.num x 0 8 >>> cfg != 0) (failAt 0xB x.off)
    ++ (upFrom 0 ((x.len - 8) / 16)).flatMap (fun e =>
      failIf (g.num x (15 + 16 * e) 1 != 0 || g.num x (16 + 16 * e) 8 >>> hi != 0) (failAt 0xB (x.off + 8 + 16 * e)))

/-- Reserved encodings and reserved bytes (R6). DESIGN CHOICE (log entry 148): an NW above 1,024, for which R332 names no code, is a
reserved value. -/
def Image.reservedFails (g : Image) (t : State) (l : List StageItem) : List JobFail :=
  let cd := g.one 1
  let tm := g.one 2
  let sg := g.one 3
  let pw := g.one 0x40
  let nz (x : Sect) (o n : Nat) : List JobFail := failIf (g.num x o n != 0) (failAt 0xB (x.off + o))
  failIf (g.num cd 2 2 != 1 && decide (g.num cd 2 2 < 0x8000)) (failAt 0xB (cd.off + 2)) ++ nz cd 21 3 ++ nz cd 28 36
    ++ nz tm 14 2 ++ nz tm 25 7 ++ nz tm 48 16
    ++ failIf (decide (4 < g.nclass)) (failAt 0xB sg.off) ++ nz sg 1 7
    ++ g.seq.zipIdx.flatMap (fun p => failIf (decide (g.nclass ≤ p.1)) (failAt 0xB (sg.off + 8 + p.2 / 4)))
    ++ (upFrom 0 g.nclass).flatMap (fun c => (g.dues c).flatMap (fun p => failIf (decide (4 < p.2.cause)) ⟨0xB, p.1 + 12, 0, c⟩))
    ++ (g.all 0x11).flatMap (fun x => g.progReserved x 10 49) ++ (g.all 0x12).flatMap (fun x => g.progReserved x 17 26)
    ++ nz pw 4 4
    ++ (g.power.getD []).zipIdx.flatMap (fun p =>
      failIf (decide (1024 < p.1.wins.length)) ⟨0xB, p.1.off, 0, p.2⟩
        ++ failIf (le g.data (p.1.off + 4) 4 != 0) ⟨0xB, p.1.off + 4, 0, p.2⟩
        ++ p.1.wins.flatMap (fun w =>
          failIf (decide (g.tilesOf.length < w.nMat.foldl (· + ·) 0)) ⟨0xB, w.off + 4, 0, p.2⟩
            ++ failIf (le g.data (w.off + 18) 2 != 0) ⟨0xB, w.off + 18, 0, p.2⟩
            ++ failIf (w.dramBw.any (fun b => decide (16 < b))) ⟨0xB, w.off + 20, 0, p.2⟩
            ++ failIf (w.pipeGrp.any (fun b => decide (4 < b))) ⟨0xB, w.off + 25, 0, p.2⟩
            ++ failIf (le g.data (w.off + 29) 3 != 0) ⟨0xB, w.off + 29, 0, p.2⟩))
    ++ (g.all 0x41).flatMap (fun x => failIf (decide (1 < g.num x 0 1)) (failAt 0xB x.off) ++ nz x 1 7)
    ++ failsOf 0xB t.reservedBad l

/-- Counter bases (R63, R65). -/
def Image.counterFails (g : Image) : List JobFail :=
  (g.items 0x30 24).flatMap (fun p =>
    let v := le g.data (p.2 + 8) 8
    failIf ((crefKey none (le g.data p.2 4)).isNone || decide (v < le g.data (p.2 + 16) 8) || decide (2 ^ 48 ≤ v))
      (failAt 0x18 p.2))

/-- Bytes `a` to `e` − 1 are all written by DRAM sections. -/
def covered (l : List (Nat × Nat)) (e : Nat) : Nat → Nat → Bool
  | 0, a => decide (e ≤ a)
  | n + 1, a =>
    if e ≤ a then true
    else match (l.filter (fun p => decide (p.1 ≤ a) && decide (a < p.2))).map (·.2) with
      | [] => false
      | x :: xs => covered l e n (xs.foldl max x)

/-- A segment class against R326. -/
def RawClass.fails (x : RawClass) (c : Nat) : List JobFail :=
  (upFrom 1 (x.bounds.length - 1)).flatMap (fun j =>
      failIf (decide (x.bounds.getD j 0 ≤ x.bounds.getD (j - 1) 0)) ⟨0xC, x.off + 8 + 4 * j, 0, c⟩)
    ++ (match x.bounds.getLast? with
      | some b => failIf (b != x.len) ⟨0xC, x.off + 8 + 4 * (x.bounds.length - 1), 0, c⟩
      | none => [])

/-- Consistency (R240, R251, R292, R323, R325 to R327, R332). -/
def Image.inconsistent (g : Image) (t : State) (l : List StageItem) (area : Nat) : List JobFail :=
  let tm := g.one 2
  let spans := g.dram.map (fun p => (p.2.1, p.2.1 + p.2.2.length))
  let differs (p : Nat × Nat × Nat) (f : RegField) (v : Nat) : Bool :=
    p.2.1 == f.addr 0 0 && (p.2.2 >>> f.lo) % 2 ^ f.width != v
  (g.classes.getD []).zipIdx.flatMap (fun p => p.1.fails p.2)
    ++ g.regs.flatMap (fun p =>
      failIf (differs p F.ES_HOLD_CFG_BUDGET (g.num tm 4 4) || differs p F.ES_HOLD_CFG_LIMIT (g.num tm 8 4)
        || differs p F.ES_STEP_CFG_BEATS g.beats || differs p F.ES_STEP_CFG_REPLAY_LIMIT (g.num tm 24 1)) (failAt 0xC p.1))
    ++ g.dram.flatMap (fun p =>
      let n := p.2.2.length
      failIf (decide (2 ^ 38 < p.2.1 + n)
        || (n != 0 && decide (p.2.1 < area + g.data.length) && decide (area < p.2.1 + n))) (failAt 0xC p.1))
    ++ g.tiles.flatMap (fun p =>
      let x := p.2
      failIf (x.plen % 32 != 0 || decide (0x180000 < x.plen)) (failAt 0xC p.1)
        ++ failIf (!covered spans (x.img + x.plen) spans.length x.img) (failAt 0xC (p.1 + 8))
        ++ failIf (x.plen != 0 && decide (x.plen / 8 ≤ x.entry)) (failAt 0xC (p.1 + 16)))
    ++ (upFrom 0 8).flatMap (fun r => (upFrom 0 128).flatMap (fun i =>
      failIf (t.sv F.RT_RGN_CFG_EN r i == 1 && decide (4194288 < t.sv F.RT_RGN_CFG_BASE r i + t.sv F.RT_RGN_CFG_COUNT r i))
        (failAt 0xC (offOf l (F.RT_RGN_CFG_COUNT.key r i)))))
    ++ g.roots.flatMap (fun p =>
      let x := p.2
      failIf (t.sv F.RT_DRAM_CFG_MODE x.root 0 == 0 || [x.mb0, x.mb1, x.gb0, x.gb1].any (fun b =>
        b % 1024 != 0 || decide (b < x.root * 2 ^ 35) || decide ((x.root + 1) * 2 ^ 35 ≤ b))) (failAt 0xC p.1))
    ++ failIf (t.sv F.ES_CLEAR_CFG_SYS_PERIOD 0 0 != 1) (failAt 0xC (offOf l (F.ES_CLEAR_CFG_SYS_PERIOD.key 0 0)))
    ++ (g.power.getD []).zipIdx.flatMap (fun p => p.1.wins.zipIdx.flatMap (fun w =>
      failIf (if w.2 = 0 then w.1.start != 0 else decide (w.1.start ≤ ((p.1.wins[w.2 - 1]?).map (·.start)).getD 0))
        ⟨0xC, w.1.off, 0, p.2⟩))

/-- Any five distinct values of a rising list lie at least 20 apart from first to last (R50). -/
def spread : List Nat → Bool
  | a :: l => (match l[3]? with
      | some b => decide (a + 20 ≤ b)
      | none => true) && spread l
  | [] => true

/-- Due entries (R50, Table 11.2) of class `c`, of length `len`; a column that its row lacks has no counters (R15). -/
def Image.dueFails (g : Image) (t : State) (c len : Nat) : List JobFail :=
  let l := g.dues c
  let start := ((g.inst 0x04 c).map (·.off)).getD 0
  (l.zipIdx.flatMap (fun p =>
    let d := p.1.2
    let prev : Nat := if p.2 = 0 then 0 else ((l[p.2 - 1]?).map (fun x => x.2.cycle)).getD 0
    failIf (decide (d.cycle < 20) || decide (len ≤ d.cycle) || decide (d.cycle < prev)) ⟨0xD, p.1.1, 0, c⟩
      ++ failIf (match crefKey none d.cref with
          | some k => decide (k < 0x20000) && (t.physOf (k / 64)).isNone
          | none => true) ⟨0xD, p.1.1 + 4, 0, c⟩))
    ++ failIf (decide (4096 < l.length) || !spread (l.map (fun x => x.2.cycle)).dedup) ⟨0xD, start, 0, c⟩

/-- Exchange transfers at or beyond L (R166): the read of a send, the write of a receive. -/
def Image.exchangeFails (g : Image) : List JobFail :=
  (g.all 0x11).flatMap (fun x =>
    if g.num x 0 1 % 2 = 0 then []
    else (upFrom 0 ((x.len - 8) / 16)).flatMap (fun e =>
      let o := 8 + 16 * e
      let n := g.num x (o + 4) 2
      let f := g.num x o 4 + (n - 1) * g.num x (o + 6) 1
      let w1 := g.num x (o + 8) 8
      let tc := if bits w1 33 32 = 0 then f / 2 - 2 else f / 2 + 1
      (g.classes.getD []).zipIdx.flatMap (fun p =>
        failIf (n != 0 && bit w1 (45 + p.2) && decide (p.1.len ≤ tc)) ⟨0xE, x.off + o, 0, p.2⟩)))

/-! ## Checks at LOAD and again at ARM -/

/-- Class satisfaction (R328): offset in the descriptor of the first condition that fails. -/
def State.classFail (s : State) (fmt rows16 roots eth links minBudget : Nat) : Option Nat :=
  let c := s.crown.repair.cap
  if fmt ≠ 1 then some 0
  else if rows16 &&& c.rows16 ≠ rows16 then some 4
  else if roots &&& c.roots ≠ roots then some 16
  else if eth &&& c.eth ≠ eth then some 17
  else if links &&& c.links ≠ links then some 18
  else if 180000 < minBudget then some 24
  else none

/-- Parent and child links. -/
def treeLinks (rd : RegField → Nat → Nat → Nat) : List Nat :=
  let r := rd F.ES_BEAT_CFG_ROLE 0 0
  if r = 0 then []
  else (upFrom 0 24).filter (fun n => bit (rd F.ES_BEAT_CFG_CHILD_MASK 0 0) n
    || (r == 1 && rd F.ES_BEAT_CFG_PARENT_LINK 0 0 == n))

/-- Quotient rounded up. -/
def cdiv (a b : Nat) : Nat := (a + b - 1) / b

/-- P_min in rc (R289, R335). -/
def Job.pMin (j : Job) : Nat := cdiv (2 * j.depth * j.hopMax + 1000000) 10000

/-- T of a segment of `len` under a floor (R335). -/
def segTime (len floor : Nat) : Nat := cdiv (cdiv (len * 256) floor) 6

/-- Bits set. -/
def popCount (n w : Nat) : Nat := ((upFrom 0 w).filter (bit n)).length

/-- Matrix costs of the six classes (Table 11.9). -/
def matCosts : List Nat := [18, 38, 42, 46, 46, 50]

/-- Cost of what is always counted (Table 11.9): fixed, the ports and links enabled now, stacks, tile bases, and the banks
that `rd` reads as on (R333). -/
def State.baseCost (s : State) (rd : RegField → Nat → Nat → Nat) (j : Job) : Nat :=
  let ports := ((upFrom 0 2).filter (fun p => (s.ports.read Port.fresh p).up)).length
  let links := ((upFrom 0 24).filter (fun n => s.fld F.LK_CFG_EN n 0 == 1)).length
  15400 + 800 * ports + 500 * links + 1500 * 8 + 8 * j.tiles.length
    + (j.tiles.map (fun x => cdiv (popCount (rd F.SP_BANKMASK_MASK x.tile 0) 48) 8)).foldl (· + ·) 0

/-- Cost of a window's declared counts (Table 11.9). -/
def Window.cost (w : Window) : Nat :=
  ((w.nMat.zip matCosts).map (fun p => p.1 * p.2)).foldl (· + ·) 0 + 2 * w.nFetch + 125 * w.dramBw.foldl (· + ·) 0
    + 125 * w.pipeGrp.foldl (· + ·) 0 + 500 * popCount w.rve 8

/-- HOP. -/
def Job.hopFails (j : Job) (rd : RegField → Nat → Nat → Nat) : List JobFail :=
  failIf (decide (200000 < j.hopMax)) (failAt 0x12 (j.offTiming + 16))
    ++ (treeLinks rd).flatMap (fun n => failIf (decide (j.hopMax < rd F.LK_HOPLAT_HOP_PS n 0)) ⟨0x12, j.offTiming + 16, n, 0⟩)

/-- BEAT_PERIOD. -/
def Job.periodFails (j : Job) (rd : RegField → Nat → Nat → Nat) : List JobFail :=
  failIf (decide (j.period < j.pMin) || (rd F.ES_BEAT_CFG_ROLE 0 0 == 2
    && decide (rd F.ES_REF_CFG_REF_MIN_GAP 0 0 * 64 < j.period * 63))) (failAt 0x13 j.offTiming)

/-- SEGMENT_TIME. -/
def Job.segmentFails (j : Job) (floor : Nat) : List JobFail :=
  j.classes.zipIdx.flatMap (fun p =>
    failIf (decide (j.period < segTime p.1.len floor + j.holdBudget + j.pMin)) ⟨0xF, p.1.off, 0, p.2⟩)

/-- ROOT_TIME. -/
def Job.rootFails (j : Job) (floor : Nat) : List JobFail :=
  j.classes.zipIdx.flatMap (fun p =>
    failIf (decide (j.period < cdiv (cdiv (j.rootCycles.getD p.2 0 * 256) floor) 12 + j.pMin))
      ⟨0x10, j.offTiming + 32 + 4 * p.2, 0, p.2⟩)

/-- REFRESH (R336). -/
def Job.refreshFails (j : Job) (rd : RegField → Nat → Nat → Nat) (floor : Nat) : List JobFail :=
  (upFrom 0 8).flatMap (fun r => j.classes.zipIdx.flatMap (fun p =>
    let w := (upFrom 0 16).foldl (fun a i =>
      if bit (rd F.RT_REFWIN_CLASSMASK r i) p.2 then a + rd F.RT_REFWIN_LEN r i / 6 else a) 0
    failIf (decide (w + (j.period - segTime p.1.len floor - j.holdBudget) < 35 * cdiv j.period 390)) ⟨0x11, j.offTiming, 0, p.2⟩))

/-- INTAKE (R337). -/
def State.intakeFails (s : State) (j : Job) (rd : RegField → Nat → Nat → Nat) : List JobFail :=
  (upFrom 0 2).flatMap (fun p =>
    let l := j.intake.filter (fun x => x.port == p)
    match l with
    | [] => []
    | x :: _ =>
      failIf (decide (480 * j.seq.length * j.period < (l.map (·.bytes)).foldl (· + ·) 0) || !(s.ports.read Port.fresh p).up)
        ⟨0x14, x.off, p, 0⟩)
    ++ j.intake.flatMap (fun x => failIf (rd F.ES_INPUT_CFG_EN 0 x.stream == 0) ⟨0x14, x.off, x.port, 0⟩)

/-- POWER_WINDOW (R333). -/
def State.windowFails (s : State) (j : Job) (rd : RegField → Nat → Nat → Nat) : List JobFail :=
  let base := s.baseCost rd j
  j.classes.zipIdx.flatMap (fun p => p.1.windows.zipIdx.flatMap (fun w =>
    failIf (decide (j.alloc < base + w.1.cost)) ⟨0x15, w.1.off, w.2, p.2⟩))

/-- POWER_BUDGET. -/
def Job.budgetFails (j : Job) (rd : RegField → Nat → Nat → Nat) : List JobFail :=
  let b := rd F.PW_BUDGET_BUDGET 0 0
  failIf (decide (b < j.alloc)) (failAt 0x16 j.offPower) ++ failIf (decide (b < j.minBudget)) (failAt 0x16 (j.offClass + 24))

/-- The first of the failures of checks in order: within one check, the lowest offset (log entry 41). -/
def firstFail : List (List JobFail) → Option JobFail
  | [] => none
  | l :: ls => (leastFail l).orElse (fun _ => firstFail ls)

/-- The checks of Table 11.12 from HOP to POWER_BUDGET. -/
def State.lateFails (s : State) (j : Job) (rd : RegField → Nat → Nat → Nat) : List (List JobFail) :=
  let floor := rd F.PW_FLOOR_FLOOR 0 0
  [j.hopFails rd, j.periodFails rd, j.segmentFails floor, j.rootFails floor, j.refreshFails rd floor, s.intakeFails j rd,
   s.windowFails j rd, j.budgetFails rd]

/-- CLASS of a held job, at ARM (R334). -/
def State.armFail (s : State) (j : Job) : Option JobFail :=
  match s.classFail 1 j.rows16 j.roots j.eth j.links j.minBudget with
  | some o => some (failAt 5 (j.offClass + o))
  | none => firstFail (s.lateFails j s.fld)

/-- Every check of the LOAD stage from FORMAT on (Table 11.12). `l`: what the loader stages. -/
def State.loadFail (s : State) (g : Image) (l : List StageItem) (area : Nat) : Option JobFail :=
  let cd := g.one 1
  let t := s.stageAll l
  (headerBad g.data).map (failAt 2) |>.orElse fun _ =>
  (if hashBytes (imageHash g.data) = (g.data.drop 72).take 48 then none else some (failAt 3 72)).orElse fun _ =>
  (g.sectionBad.map (failAt 8)).orElse fun _ =>
  (if hashBytes (Config.sha384 (g.bytes cd)) = (g.data.drop 24).take 48 then none else some (failAt 4 24)).orElse fun _ =>
  ((s.classFail (g.num cd 0 2) g.rows16 (g.num cd 16 1) (g.num cd 17 1) (g.num cd 18 3) (g.num cd 24 4)).map
    (fun o => failAt 5 (cd.off + o))).orElse fun _ =>
  (if profileOk (le g.data 6 1) then none else some (failAt 6 6)).orElse fun _ =>
  ((g.regs.find? (fun p => s.regForbidden p.2.1)).map (fun p => failAt 9 p.1)).orElse fun _ =>
  firstFail ([g.zeroFails t l, g.reservedFails t l, g.counterFails, g.inconsistent t l area,
    (g.classes.getD []).zipIdx.flatMap (fun p => g.dueFails t p.2 p.1.len), g.exchangeFails] ++ t.lateFails g.job t.sv)

end Sys2Proof.Machine
end

