-- ==== Sys2Proof/Machine/Load.lean ====
section
/-! DEFINITION. LOAD, ARM, STOP, ABORT and UNLOAD (R334, R338, R339, R363, R364) and the ES_JOB registers (R340). -/

namespace Sys2Proof.Machine

/-- The outcome of an ICP command: STATUS, DETAIL and reply data (Tables 12.2, 12.4). -/
structure Answer where
  status : Nat
  detail : Nat
  data   : List Byte
  deriving DecidableEq, Repr

/-- An answer with no data. -/
def ans (status detail : Nat) : Answer := ⟨status, detail, []⟩
/-- OK with reply data. -/
def okData (d : List Byte) : Answer := ⟨0, 0, d⟩

/-- Run state codes (Table 12.5). -/
def RunState.code : RunState → Nat
  | .idle => 0 | .loaded => 1 | .armed => 2 | .running => 3 | .held => 4 | .draining => 5 | .stopped => 6 | .faulted => 7

/-- STATE, with the run state code. -/
def State.wrongState (s : State) : Answer := ans 7 s.run.code

/-! ## The ES_JOB registers (R340) -/

/-- Record the outcome of the checks of a stage (1 LOAD, 2 ARM). -/
def State.jobRecord (s : State) (stage : Nat) (f : JobFail) : State :=
  s.setFlds 0 0 [(F.ES_JOB_STATUS_STAGE, stage), (F.ES_JOB_STATUS_CLASS, f.cls), (F.ES_JOB_STATUS_CODE, f.code),
    (F.ES_JOB_WHERE_ITEM, f.item), (F.ES_JOB_WHERE_OFFSET, f.off)]

/-- A refusal by a job check. -/
def State.jobRefuse (s : State) (stage : Nat) (f : JobFail) : Answer × State := (ans 0xB f.code, s.jobRecord stage f)

/-- Every check passed: ACCEPTED. -/
def State.jobAccept (s : State) (stage : Nat) : Answer × State := (ans 0 1, s.jobRecord stage (failAt 1 0))

/-- Measurement `i` takes the 48 bytes `d` (Table 14.4). -/
def State.setMeas (s : State) (i : Nat) (d : List Byte) : State :=
  (upFrom 0 6).foldl (fun s j =>
    let f : RegField := { F.SC_MEAS_VALUE with off := F.SC_MEAS_VALUE.off + 8 * j }
    s.setFld f 0 (i - 1) (le d (8 * j) 8)) s

/-- IMAGE_HASH of the loaded job in ES_JOB_HASH and measurement 6; zero where there is none. -/
def State.setJobHash (s : State) (d : List Byte) : State :=
  ((upFrom 0 6).foldl (fun s i => s.setFld F.ES_JOB_HASH_HASH 0 i (le d (8 * i) 8)) s).setMeas 6 d

/-- No job is held: IDLE (R338, Table 12.5). -/
def State.noJob (s : State) : State :=
  ({ s with job := none, run := .idle }.setFlds 0 0 [(F.ES_JOB_INFO_CLASS_ID, 0), (F.ES_JOB_INFO_NCLASS, 0),
    (F.ES_JOB_INFO_PROFILE, 0)]).setJobHash []

/-! ## LOAD (R338) -/

/-- The fetch engine's queue emptied: a descriptor that still issues packets holds its entry (R182) and goes with it, but for a
multicast round under way, whose grants its payload uses. -/
def Fetch.empty (f : Fetch) : Fetch := { f with queue := [], flights := f.flights.filter (·.sentAll), mcTodo := [] }

/-- Queues of a tile emptied, its core in RESET (R338 step 1). -/
def Tile.forLoad (q : Tile) : Tile :=
  let q := q.coreReset
  { q with matrix := { q.matrix with filler := [], passEnd := none }, fetch := q.fetch.empty
           landing := q.landing.filter (fun l => l.piece.isNone || l.seq.any (fun n => (q.fetch.empty.flight n).isSome)) }

/-- An RVE in RESET. -/
def Rve.stopped (v : Rve) : Rve := { v with st := .reset, back := .reset, wait := none, ending := false }

/-- Every RVE in RESET. -/
def State.resetRves (s : State) : State := (upFrom 0 8).foldl (fun s r => s.setRve r Rve.stopped) s

/-- Step 1. -/
def State.loadReset (s : State) : State :=
  ({ s with tiles := SMap.mapVals Tile.fresh (fun _ q => q.forLoad) s.tiles, waiters := [] }).resetRves

/-- Steps 2 and 3: the DRAM sections, then the persistent images. -/
def State.loadMemory (s : State) (g : Image) : State :=
  let s := g.dram.foldl (fun s p => (s.dramWrite p.2.1 p.2.2).2) s
  g.tiles.foldl (fun s p =>
    let (d, _, s) := s.dramRead p.2.img p.2.plen
    s.spWrite p.2.tile 5 0 d) s

/-- Step 4: root programs and control lines. -/
def State.loadRoots (s : State) (g : Image) (resume : Bool) : State :=
  let s := (g.all 0x20).foldl (fun s x =>
    let words := (upFrom 0 ((x.len - 40) / 8)).map (fun i => BitVec.ofNat 64 (g.num x (40 + 8 * i) 8))
    let s := s.updRve x.inst (fun v => { v with imem := SMap.writeList 0 0 words v.imem })
    (upFrom 0 5).foldl (fun s k => s.setCtl x.inst (7 + k) (g.num x (8 * k) 8)) s) s
  if resume then s
  else (upFrom 0 8).foldl (fun s r => s.setRve r (fun v => { v with cur := 0, skip := false, pc := 0 })) s

/-- Step 5: what is staged, and the counters at their bases. -/
def State.loadStage (s : State) (g : Image) (l : List StageItem) : State :=
  let s := { s.stageAll l with counters := [], shadows := [] }
  (g.items 0x30 24).foldl (fun s p => match crefKey none (le g.data p.2 4) with
    | some k => s.setCtr k { Counter.fresh with s := le g.data (p.2 + 8) 8, c := le g.data (p.2 + 16) 8 }
    | none => s) s

/-- Registers that count since the job was loaded. -/
def sinceLoad : List RegName :=
  [.TL_ERR_COUNT, .TL_PERF_ISSUE, .SP_ERR_COUNT, .MX_ERR_COUNT, .MX_PERF_BUSY, .MX_PERF_FILL, .MX_PERF_MAC, .XC_FE_ERR_COUNT,
   .XC_PERF_XSEND, .XC_PERF_XRECV, .XC_PERF_PBYTES, .XC_PERF_CWAIT, .RT_PIPE_MISMATCH, .ES_HOLD_CNT, .ES_STEP_COUNT]

/-- Every count since job load is zero. -/
def State.clearCounts (s : State) : State :=
  { s with regs := s.regs.keep (fun k => match keyField k with
      | some f => !sinceLoad.contains f.info.name
      | none => true) }

/-- Steps 7 and 8, after the commit. -/
def State.loadDone (s : State) (g : Image) (resume : Bool) : State :=
  let j := g.job
  let s := if resume then s
    else ((upFrom 0 8).foldl (fun s i => s.setFld F.ES_INPUT_LANDED_BYTES 0 i 0) s).setFlds 0 0
      [(F.ES_STEP_NUM_STEP, s.fld F.ES_STEP_BASE_BASE 0 0), (F.RT_WRAISE_RAISE, 0)]
  let s := (s.setJobHash j.hash).clearCounts.setFlds 0 0
    [(F.ES_JOB_INFO_CLASS_ID, j.classId), (F.ES_JOB_INFO_NCLASS, j.classes.length - 1), (F.ES_JOB_INFO_PROFILE, j.profile)]
  { s with job := some j, run := .loaded }

/-- DRAM that a LOAD reads and writes: the image area, the DRAM sections and the persistent images. -/
def State.loadRanges (s : State) (area len : Nat) : List (Nat × Nat) :=
  if s.dramIdle then []
  else
    let g := imageOf (s.dramBytes area len)
    (area, len) :: g.dram.map (fun p => (p.2.1, p.2.2.length)) ++ g.tiles.map (fun p => (p.2.img, p.2.plen))

/-- LOAD of `len` bytes at DRAM address `area` (R334, R338). -/
def State.loadJob (s : State) (area len : Nat) (resume : Bool) : Answer × State :=
  if s.run ≠ .idle ∧ s.run ≠ .loaded ∧ s.run ≠ .stopped then (s.wrongState, s.jobRecord 1 (failAt 7 0))
  else if 2 ^ 38 < area + len then s.jobRefuse 1 (failAt 2 0)
  else
    let (d, _, s) := s.dramRead area len
    let g := imageOf d
    let l := g.stageItems resume
    match s.loadFail g l area with
    | some f => s.jobRefuse 1 f
    | none =>
      let s := (((s.loadReset.loadMemory g).loadRoots g resume).loadStage g l).commitNow
      if s.1 = 1 then (s.2.loadDone g resume).jobAccept 1 else s.2.noJob.jobRefuse 1 (failAt 0x17 0)

/-! ## ARM (R339) -/

/-- OPENs at arming (R339): the places in the list at which they stand, until one is refused. -/
def State.armOpens (s : State) : List (Nat × List Byte) → Nat → Option Nat × State
  | [], _ => (none, s)
  | p :: l, i =>
    let w (k : Nat) : Nat := le p.2 (8 * k) 8
    let bad := (s.openFault p.1 (w 0) (w 1) (w 2) (w 3)).isSome
    let s := s.applyOpen (unitId 7 0) p
    if bad then (some i, s) else State.armOpens s l (i + 1)

/-- ARM with start beat `bs`. -/
def State.armJob (s : State) (bs : Nat) : Answer × State :=
  match s.job with
  | none => (s.wrongState, s.jobRecord 2 (failAt 7 0))
  | some j =>
    if s.run ≠ .loaded then (s.wrongState, s.jobRecord 2 (failAt 7 0))
    else if bs < s.beat + 2 then s.jobRefuse 2 (failAt 7 0)
    else
      match s.armFail j with
      | some f => s.jobRefuse 2 f
      | none =>
        let (code, s) := (s.stageFld F.ES_SYSCLR_BASE_BASE 0 0 bs).commitNow
        if code ≠ 1 then s.jobRefuse 2 (failAt 0x17 0)
        else
          match s.armOpens j.opens 0 with
          | (some i, s) =>
            let s := (j.opens.take i).foldl (fun s p => s.idleRegion p.1 (le p.2 0 1 % 128)) s
            s.jobRefuse 2 (failAt 0xC (j.openOffs.getD i 0))
          | (none, s) => ({ s with run := .armed, armBeat := bs }).jobAccept 2

/-! ## Ending a run (R363, R364) -/

/-- STOP at beat `bx`. -/
def State.stopJob (s : State) (bx : Nat) : Answer × State :=
  if (s.run ≠ .running ∧ s.run ≠ .held) ∨ bx < s.beat + 2 then (s.wrongState, s)
  else (ans 0 0, { s with stopBeat := some bx })

/-- What ABORT does to a tile: core and matrix unit reset, queues and gather buffer empty. -/
def Tile.abort (q : Tile) : Tile := { q.forLoad with groups := [], loads := [] }

/-- ABORT of RUNNING, HELD or DRAINING. -/
def State.abortRun (s : State) : State :=
  let s := if s.run = .draining then s.stopSegment else s.stopSegment.attemptOver (s.beat + 1)
  let s := ({ s with tiles := SMap.mapVals Tile.fresh (fun _ q => q.abort) s.tiles, waiters := [] }).resetRves
  let s := if s.permute.isSome then s.leavePermute else s
  (s.resetRves.markUnclean).drainStart

/-- ABORT. -/
def State.abortJob (s : State) : Answer × State :=
  match s.run with
  | .armed => (ans 0 0, { s with run := .loaded })
  | .running | .held | .draining => (ans 0 0, s.abortRun)
  | _ => (s.wrongState, s)

/-- UNLOAD: the job is discarded. -/
def State.unloadJob (s : State) : Answer × State :=
  if s.run = .loaded ∨ s.run = .stopped then (ans 0 0, s.noJob) else (s.wrongState, s)

end Sys2Proof.Machine
end

