-- ==== Sys2Proof/Machine/View.lean ====
section
/-! DEFINITION. Registers that show state held elsewhere (Tables 1.13, 2.10, 6.20, 12.8, 13.10, 13.12, 14.8), block
quiescence (Table 13.6), the whole live view, and REGISTER_WRITE (R5, R29). -/

namespace Sys2Proof.Machine

/-! ## Block quiescence (Table 13.6) -/

/-- A packet for a tile that `p` accepts is held in a row port's buffer of such a tile, or in its landing buffer. -/
def State.heldFor (s : State) (p : Nat → Bool) : Bool :=
  s.net.any (fun y => (match s.target y.pkt with
    | .tile t | .port t => p t
    | _ => false) && (decide (0 < y.got) || y.way.any (fun e => decide (0 < e.2) && decide (e.1.buf ≤ 1 ∨ e.1.buf = 14) && p e.1.inst)))

/-- Row `row` of tile die `die` is quiescent; it is not while a reset clears its scratchpads (R120). -/
def State.rowQuiet (s : State) (die row : Nat) : Bool :=
  let base := die * 384 + row * 16
  decide (s.clearEnd.read 0 (24 * die + row) ≤ s.esc.tc) && !s.seqr.held.contains (5 + die) &&
  (upFrom base 16).all (fun t =>
    let q := s.tile t
    (match q.core with
      | .reset | .waiting | .segmentEnd | .parkedErr => true
      | _ => false)
      && q.queuesEmpty && q.fetch.reads.isEmpty && q.fetch.writes.isEmpty && q.landing.isEmpty && q.reserves.isEmpty)
    && !s.heldFor (fun t => decide (base ≤ t) && decide (t < base + 16))

/-- The RVE of root die `r` is quiescent; in reset it is not. -/
def State.rveQuiet (s : State) (r : Nat) : Bool :=
  !s.seqr.held.contains 4 && (match (s.rve r).st with
    | .reset | .endWait | .parked => true
    | _ => false)
    && (s.root r).outs.all (fun o => match o.op with
      | .write _ _ _ => false
      | _ => true)

/-- A packet that arrived in the present session of link `n` holds its receive buffer: in the queue of a link, or on its way to
one over the ring. -/
def State.rxHeld (s : State) (n : Nat) : Bool :=
  let mine (a : Option Arrival) : Bool := a.any (fun a => a.link == n && a.session == (s.link n).session)
  s.links.any (fun e => e.2.queued.any (fun q => mine q.2.src)) || s.net.any (fun y => y.via.any (fun v => mine v.src))

/-- Link `n` is quiescent; in reset it is not. -/
def State.linkQuiet (s : State) (n : Nat) : Bool :=
  let x := s.link n
  !s.seqr.held.contains 2 && (s.linkState n == lkOff || s.linkState n == lkDown
    || (s.linkState n == lkUp && x.replay.isEmpty && x.txq.all (fun e => e.2.isEmpty) && x.rxBytes.isEmpty && !s.rxHeld n))

/-- Who sent an ICP command, and how; none for the other commands. -/
def cmdFrom : Instr → Option IcpCmd
  | .getInfo c | .getCapability c | .getState c | .getTime c | .load c _ _ _ | .arm c _ | .stop c _ | .abort c | .unload c
  | .deviceReset c | .chimeSet c _ _ _ _ _ _ | .memRead c _ _ | .memWrite c _ _ | .qpConnect c _ _ _ _ _ _ | .qpReset c _
  | .logRead c _ _ _ | .health c | .counterView c _ | .physRead c _ _ _ _ _ | .fwStageBegin c _ | .fwStageData c _ _
  | .fwVerify c | .fwSchedule c _ | .fwAbandon c | .fwStatus c | .ownerEnrol c _ _ _ _ | .ownerLock c | .ownerRelease c _ _
  | .netSet c _ _ _ _ | .powerGet c | .budgetSet c _ | .ceilingSet c _ _ | .floorSet c _ | .permute c _ _ _ _
  | .restore c _ _ _ _ | .returnToService c _ _ | .blockReset c _ _ | .spdmGetVersion c | .spdmGetCapabilities c
  | .spdmNegotiateAlgorithms c _ _ | .spdmGetDigests c | .spdmGetCertificate c _ _ _ | .spdmChallenge c _ _
  | .spdmGetMeasurements c _ _ _ => some c
  | _ => none

/-- Ethernet port `p` is quiescent; in reset it is not. -/
def State.portQuiet (s : State) (p : Nat) : Bool :=
  !s.seqr.held.contains 3 && (s.port p).intake.isEmpty && (s.port p).reads.isEmpty
    && s.qps.all (fun e => e.2.port != p || e.2.ops.isEmpty)
    && !s.crown.queue.any (fun c => c.via == p) && !s.crown.longCmd.any (fun c => c.via == p)

/-! ## Computed fields -/

/-- A copy of the boot record that names slot `i`, with its CRC-32 over that byte (Table 14.1; log entry 132). -/
def BootCopy.naming (i : Nat) : BootCopy := { active := i, crc := crc32 [BitVec.ofNat 8 i] }

/-- ACTIVE: the slot of the first copy of the boot record whose CRC is right (log entry 132). -/
def Flash.active (f : Flash) : Nat :=
  if f.boot0 = .naming f.boot0.active then f.boot0.active else if f.boot1 = .naming f.boot1.active then f.boot1.active else 0

/-- The tag of a half verifies (R407). -/
def Half.good (h : Half) : Bool := h.tag == h.mac

/-- A half is accepted (R407). -/
def Flash.halfOk (f : Flash) (h : Half) : Bool :=
  let g := f.rpmc.read 0 1
  h.good && (h.gen == g || h.gen == g + 1)

/-- The half that holds the newest copy: 0 or 1. -/
def Flash.newestHalf (f : Flash) : Nat :=
  if f.half1.good && (!f.half0.good || decide (f.half0.gen < f.half1.gen)) then 1 else 0

/-- The half that stands, of the two (R407). -/
def Flash.standing (f : Flash) : Option Half :=
  match f.halfOk f.half0, f.halfOk f.half1 with
  | true, true => some (if f.half0.gen < f.half1.gen then f.half1 else f.half0)
  | true, false => some f.half0
  | false, true => some f.half1
  | false, false => none

/-- The mirror qualifies (R409). -/
def Flash.mirrorOk (f : Flash) : Bool := f.halfOk f.mirror && f.mirror.owner.gen == f.rpmc.read 0 3

/-- The owner record: the Crown's, or until the Crown has read the records that of flash (R413, R420); none where no copy
qualifies (R409). -/
def State.ownerRec (s : State) : Option Owner :=
  if s.crown.loaded then some s.crown.owner
  else match s.flash.standing with
    | some h => some h.owner
    | none => if s.flash.mirrorOk then some s.flash.mirror.owner else none

/-- The device is in records recovery: owned and locked by a key that matches nothing (R409). -/
def State.recordsLost (s : State) : Bool := s.fld F.SC_FW_STATUS_RECORDS 0 0 == 1
/-- An owner key is enrolled. -/
def State.owned (s : State) : Bool := s.recordsLost || s.ownerRec.all (fun o => !o.key.isEmpty)
/-- The owner lock is set. -/
def State.ownerLocked (s : State) : Bool := s.recordsLost || s.ownerRec.all (·.lock)

/-- Window of the running segment that holds the present cycle (R332, R392). -/
def State.powerWindow (s : State) : Option (Nat × Window) :=
  if s.esc.segOn then
    s.curClass.bind (fun c => (c.windows.zipIdx.filter (fun w => decide (w.1.start ≤ s.cycleNow))).getLast?.map
      (fun w => (w.2, w.1)))
  else none

/-- Lanes, crossbar and bridges of tile die `d` hold no packet: none in its buffers, at its tiles' exchange ports (DESIGN CHOICE of
log entry 43) or in their landing buffers; a copy within one scratchpad is no packet. -/
def State.crossbarEmpty (s : State) (d : Nat) : Bool :=
  s.net.all (fun y => !s.inZone y (fun z => z == d))
    && (upFrom (384 * d) 384).all (fun t =>
      let q := s.tile t
      q.landing.all (fun l => l.piece.isSome || l.seq.any (fun n => !q.fetched s.self t n)) && q.reserves.isEmpty)

/-- Every credit of die `d` is home: of its own buffers and of those its parts send to, landing rows included. -/
def State.creditsHome (s : State) (d : Nat) : Bool :=
  s.net.all (fun y => !y.holds (fun h => h.ofDie d)) && (upFrom (384 * d) 384).all (fun t => (s.tile t).landRows == 0)

/-- The escapement is out of reset: its registers show their reset values till then (R374). -/
def State.escUp (s : State) : Bool := !s.seqr.held.contains 9

/-- The value of a field that shows state held elsewhere; none where the field is stored. -/
def State.computedFld (s : State) (f : RegField) (i j : Nat) : Option Nat :=
  if f = F.ES_CFG_STATUS_PENDING then some (b2n s.commit.isSome)
  else if f = F.ES_CFG_STATUS_DIRTY then some (b2n (!s.staged.isEmpty))
  else if f = F.ES_BEAT_STATUS_FROZEN then some (b2n s.esc.frozen.isSome)
  else if f = F.ES_BEAT_STATUS_LOCAL_READY then some (b2n (s.escUp && s.locallyReady))
  else if f = F.ES_BEAT_STATUS_SUBTREE_READY then some (b2n (s.escUp && s.subtreeReady))
  else if f = F.ES_BEAT_STATUS_SUBTREE_NOHOLD then some (b2n s.subtreeNohold)
  else if f = F.ES_BEAT_STATUS_SUBTREE_FAULT then some (b2n s.subtreeFault)
  else if f = F.ES_QUIET_GROUPS then some (if s.escUp then s.quietGroups else 0)
  else if f = F.XC_XB_STATUS_EMPTY then some (b2n (s.crossbarEmpty i))
  else if f = F.XC_XB_STATUS_CREDITS_HOME then some (b2n (s.creditsHome i))
  else if f = F.EN_PORT_STATUS_QPS then some ((s.qps.filter (fun e => e.2.conn && e.2.port == i)).length)
  else if f = F.EN_PORT_STATUS_TIME_LOCKED then some (b2n s.crown.locked)
  else if f = F.EN_PORT_STATUS_INTAKE_BUSY then some (b2n ((s.port i).held != 0))
  else if f = F.PW_STATUS_WINDOW then some ((s.powerWindow.map (·.1)).getD 0)
  else if f = F.PW_STATUS_K then some s.kRate
  else if f = F.RS_QUIET_ROWS_ROWS then some (maskOf 48 (fun b => s.rowQuiet (2 * j + b / 24) (b % 24)))
  else if f = F.RS_QUIET_OTHER_PORTS then some (maskOf 2 s.portQuiet)
  else if f = F.RS_QUIET_OTHER_LINKS then some (maskOf 24 s.linkQuiet)
  else if f = F.RS_QUIET_OTHER_RVES then some (maskOf 8 s.rveQuiet)
  else if f = F.SC_FW_STATUS_SVN_FLOOR then some (s.flash.rpmc.read 0 0)
  else if f = F.SC_FW_STATUS_OWNER then some (b2n s.owned)
  else if f = F.SC_FW_STATUS_LOCK then some (b2n s.ownerLocked)
  else if f = F.SC_FW_STATUS_ACTIVE then some s.flash.active
  else if f = F.SC_RPMC_COUNT then some (s.flash.rpmc.read 0 j)
  else none

/-- A field as the live view shows it. -/
def State.viewFld (s : State) (f : RegField) (i j : Nat) : Nat := (s.computedFld f i j).getD (s.fld f i j)

/-- A register word as the live view shows it (R28). -/
def State.viewWord (s : State) (x : RegAt) : Nat :=
  match x.info.name with
  | .SC_MEAS => s.fld { F.SC_MEAS_VALUE with off := F.SC_MEAS_VALUE.off + 8 * x.word } 0 x.idx
  | _ =>
    if x.fields.any (fun f => (s.computedFld f x.inst x.idx).isSome) then
      x.fields.foldl (fun a f => a + s.viewFld f x.inst x.idx * 2 ^ f.lo) 0
    else s.liveWord x

/-- Read the word at a live-view or staging address; none for a hole (R27, R28). -/
def State.readWord (s : State) (a : Nat) : Option Nat :=
  if liveBase + stagingOff ≤ a then s.readStaged (a - stagingOff) else (s.regAt a).map s.viewWord

/-! ## Writes -/

/-- Standby begins at rc edge `x`. -/
def State.setStandby (s : State) (x : Nat) : State := { s with seqr := { s.seqr with standby := some x } }

/-- A write of 1 to RS_STANDBY.ENTER (R387). -/
def State.standbyEnter (s : State) : State :=
  match s.run with
  | .idle | .loaded | .stopped | .faulted => s.setStandby (s.rc + 1000000)
  | _ => s.setFld F.RS_US_STATUS_STBY_REFUSED 0 0 1

/-- A write of RS_RTC sets both fields at the next crystal edge (R384). -/
def State.rtcSet (s : State) (v : Nat) : State := { s with seqr := { s.seqr with rtc := some (v % 2 ^ 64) } }

/-- Effects of the write-only fields that have no row of their own, and of RS_RTC. -/
def State.writeCtl (s : State) (x : RegAt) (v : Nat) : State :=
  match x.info.name with
  | .ES_STEP_CTRL => if bit v 0 then s.markUnclean else s
  | .RS_STANDBY =>
    if bit v 0 then s.standbyEnter else s
  | .RS_RTC => s.rtcSet v
  | .ES_COMMIT_CTRL =>
    let s := s.commitFields (BitVec.ofNat 64 v)
    let tag := bits v 23 8
    if bit v 0 && bit v 1 then s.refuseCommit tag 4
    else if bit v 0 then s.requestCommit tag (bits v 3 2)
    else if bit v 1 then s.abortCommit
    else s
  | _ => s.writeWord x v

/-- A write of a live-view word: RW, W1C and WO fields take effect, RWS fields are staged (R5, R31). -/
def State.writeAt (s : State) (x : RegAt) (v : Nat) : State := (s.writeCtl x v).stageWord x v

/-- REGISTER_WRITE: in the staging view it reaches the staging copies of RWS fields alone (R28). -/
def execRegisterWrite (addr : Nat) (v : W64) (s : State) : Out :=
  .next (if liveBase + stagingOff ≤ addr then (s.stagingWrite addr v).getD (s.holeWrite addr)
    else match s.regAt addr with
      | some x => s.writeAt x v.toNat
      | none => s.holeWrite addr)

end Sys2Proof.Machine
end

