-- ==== Sys2Proof/Machine/Records.lean ====
section
/-! DEFINITION. The error log and the signed records (R317, R329, R390, R407, R410): records of Table 10.6, the flash log,
and the two halves of the signed records. -/

namespace Sys2Proof.Machine

/-- MARGIN_LOW (R385). -/
def State.marginLow (s : State) : Bool := s.fld F.RS_US_STATUS_MARGIN_LOW 0 0 == 1

/-! ## The error log -/

/-- A record of Table 10.6. -/
def LogRec.bytes (r : LogRec) : List Byte :=
  toBytes r.seq 4 ++ toBytes (r.cls + 4 * b2n r.lost + 8 * b2n r.disc) 1 ++ toBytes r.block 1 ++ toBytes r.code 1 ++ [0]
    ++ toBytes r.unit 2 ++ toBytes r.inst 2 ++ toBytes r.phys 2 ++ toBytes r.count 2 ++ toBytes r.beat 8 ++ toBytes r.info 8

/-- The newest `n` of a list. -/
def newest {α : Type} (n : Nat) (l : List α) : List α := l.drop (l.length - n)

/-- Copy a record to the flash log, of 1,024 records; deferred while MARGIN_LOW (R390). -/
def State.flashLog (s : State) (r : LogRec) : State :=
  if s.marginLow then s.updCrown (fun c => { c with logWait := c.logWait ++ [r] })
  else { s with flash := { s.flash with log := newest 1024 (s.flash.log ++ [r]) } }

/-- Turn an error into one record that stands for `n` (R317). -/
def State.logErr (s : State) (e : ErrNote) (n : Nat) : State :=
  let c := s.crown
  let r : LogRec :=
    { seq := c.logSeq, cls := e.cls, lost := e.lost, disc := e.disc, block := e.block, code := e.code, unit := e.unit
      inst := e.inst, phys := e.phys, count := min n 0xFFFF, beat := e.beat, info := e.info }
  let s := { s with crown := { c with
    log := newest 8192 (c.log ++ [r]), logSeq := (c.logSeq + 1) % 2 ^ 32
    counts := c.counts.set e.cls (satAdd 32 (c.counts.getD e.cls 0) r.count)
    chime := { c.chime with errs := c.chime.errs.set e.cls (c.chime.errs.getD e.cls 0 + n) } } }
  if 2 ≤ e.cls || e.disc then s.flashLog r else s

/-- The Crown logs the errors it has polled. -/
def State.takeErrs (s : State) : State :=
  s.errs.foldl (fun s e => s.logErr e e.count) { s with errs := [] }

/-! ## The signed records -/

/-- SVN of the bundle in a slot (Table 14.3). -/
def bundleSvn (b : SMap Byte) : Nat := ofBytes (b.readList 0 8 4)

/-- The bundle of a slot (R400). -/
def Flash.slot (f : Flash) (i : Nat) : SMap Byte := if i = 0 then f.slot0 else f.slot1

/-- The measurements that follow the signed records: 3, 4 and 5 (Table 14.4). -/
def State.measure (s : State) : State :=
  let c := s.crown
  let h (d : List Byte) : List Byte := hashBytes (Config.sha384 d)
  ((s.setMeas 3 (h (Config.recordBytes 3 c.settings.nums))).setMeas 4 (h (Config.recordBytes 4 c.repair.nums))).setMeas 5
    (if c.owner.key.isEmpty then [] else h c.owner.key)

/-- The slot that ACTIVE names, a write of it that waits included. -/
def State.activeSlot (s : State) : Nat :=
  (s.crown.flashWait.reverse.findSome? (fun w => match w with
    | .active i => some i
    | _ => none)).getD s.flash.active

/-- Measurement 7, once per boot (Table 14.4; log entry 133). -/
def State.measureBoot (s : State) : State :=
  s.setMeas 7 ((Config.recordBytes 7 [bundleSvn (s.flash.slot s.activeSlot), s.flash.rpmc.read 0 0, s.activeSlot,
    b2n s.crown.owner.lock, s.fld F.SC_FW_STATUS_FALLBACK 0 0]).take 16)

/-- Put a half at its place and in the mirror (R407, R409). -/
def Flash.putHalf (f : Flash) (i : Nat) (h : Half) : Flash :=
  if i = 0 then { f with half0 := h, mirror := h } else { f with half1 := h, mirror := h }

/-- Raise a counter, of 32 bits (R400). -/
def Flash.raise (f : Flash) (i n : Nat) : Flash := { f with rpmc := f.rpmc.write 0 i (min (f.rpmc.read 0 i + n) 0xFFFFFFFF) }

/-- Make a slot the empty one, with no verified record. -/
def Flash.emptySlot (f : Flash) (i : Nat) : Flash :=
  let v := if f.verified = some i then none else f.verified
  if i = 0 then { f with slot0 := [], verified := v } else { f with slot1 := [], verified := v }

/-- Both copies of the boot record name slot `i` (Table 14.1). -/
def Flash.putActive (f : Flash) (i : Nat) : Flash := { f with boot0 := .naming i, boot1 := .naming i }

/-- Both halves come from the mirror, with the next generation (R409). -/
def Flash.rebuild (f : Flash) : Flash :=
  let h := Half.sealed { f.mirror with gen := f.rpmc.read 0 1 + 1 }
  { f with half0 := h, half1 := h, mirror := h }.raise 1 1

/-- Carry out a flash write. -/
def Flash.put (f : Flash) : FlashWait → Flash
  | .active i => f.putActive i
  | .raise k n => f.raise k n
  | .empty i => f.emptySlot i
  | .rebuild => f.rebuild

/-- The flash writes that waited for the margin take place, in their order (R390). -/
def State.flashWaiting (s : State) : State :=
  { s with flash := s.crown.flashWait.foldl Flash.put s.flash, crown := { s.crown with flashWait := [] } }

/-- A flash write of the Crown, after those that wait; deferred while MARGIN_LOW (R390). -/
def State.flashDo (s : State) (w : FlashWait) : State :=
  if s.marginLow then s.updCrown (fun c => { c with flashWait := c.flashWait ++ [w] })
  else { s.flashWaiting with flash := s.flashWaiting.flash.put w }

/-- A counter with the rises that wait. -/
def State.rpmcNow (s : State) (k : Nat) : Nat :=
  s.crown.flashWait.foldl (fun n w => match w with
    | .raise j d => if j = k then n + d else n
    | _ => n) (s.flash.rpmc.read 0 k)

/-- The working records as a half of generation `g`. -/
def Crown.half (c : Crown) (g : Nat) : Half :=
  Half.sealed { gen := g, tag := 0, settings := c.settings, repair := c.repair, owner := c.owner }

/-- Write the signed records: the half that does not hold the newest copy, then RPMC1, then the mirror; deferred while
MARGIN_LOW (R390, R407, R409). -/
def State.writeRecords (s : State) : State :=
  if s.marginLow then s.updCrown (fun c => { c with dirty := true })
  else
    let s := s.flashWaiting
    let g := s.flash.rpmc.read 0 1 + 1
    { s with
      flash := (s.flash.putHalf (1 - s.flash.newestHalf) (s.crown.half g)).raise 1 1
      crown := { s.crown with dirty := false } }.measure

/-- Flash writes that waited for the margin, in their order (R390). -/
def State.flushFlash (s : State) : State :=
  if s.marginLow then s
  else
    let s := s.flashWaiting
    let s := s.crown.logWait.foldl (fun s r => s.flashLog r) (s.updCrown (fun c => { c with logWait := [] }))
    if s.crown.dirty then s.writeRecords else s

end Sys2Proof.Machine
end

