-- ==== Sys2Proof/Machine/Health.lean ====
section
/-! DEFINITION. Spares and the hardware health state (R124, R202, R214, R219, R249, R286, R309 to R313, R318): what the
Crown does about failed units in its poll round. -/

namespace Sys2Proof.Machine

/-! ## Numbers of units (log entry 62) -/

/-- Kinds of RETURN_TO_SERVICE (Table 12.3); 7: a root vector engine; 8: a link. -/
def kTile : Nat := 0
def kRow : Nat := 1
def kLine : Nat := 2
def kPath : Nat := 3
def kPipe : Nat := 4
def kGroup : Nat := 5
def kLane : Nat := 6
def kRve : Nat := 7
def kLink : Nat := 8

def rowUnit (phys bank row : Nat) : Nat := (phys * 48 + bank) * 1024 + row
def lineUnit (r slice line : Nat) : Nat := (r * 32 + slice) * 8192 + line
def rootUnit (r i : Nat) : Nat := r * 64 + i
def laneUnit (n l : Nat) : Nat := n * 16 + l

/-- The Crown holds the unit failed. -/
def State.held (s : State) (kind i : Nat) : Bool := s.crown.repair.failed.contains (kind, i)
def State.updRepair (s : State) (f : Repair → Repair) : State :=
  s.updCrown (fun c => { c with repair := f c.repair, dirty := true })
def State.holdFailed (s : State) (kind i : Nat) : State := s.updRepair (fun x => { x with failed := x.failed ++ [(kind, i)] })
def State.dropFailed (s : State) (kind i : Nat) : State :=
  s.updRepair (fun x => { x with failed := x.failed.filter (fun e => e != (kind, i)) })

/-! ## Staging by the Crown -/

/-- The flash record of a map field. -/
def State.mapRec (s : State) (f : RegField) (i j : Nat) : Nat := s.crown.repair.maps.read f.reset (f.key i j)
def State.recordMap (s : State) (f : RegField) (i j v : Nat) : State :=
  s.updRepair (fun x => { x with maps := x.maps.write f.reset (f.key i j) v })

/-- A field of the waiting commit set. -/
def State.inSet (s : State) (k : Nat) : Bool := match s.commit with
  | some c => c.set.any (fun e => e.1 == k)
  | none => false

/-- A change of the field is staged or waits to apply. -/
def State.mapPending (s : State) (f : RegField) (i j : Nat) : Bool :=
  s.staged.any (fun e => e.1 == f.key i j) || s.inSet (f.key i j)

/-- The value a map field has or is about to have. -/
def State.mapSoon (s : State) (f : RegField) (i j : Nat) : Nat :=
  s.staged.read (match s.commit with
    | some c => c.set.read (s.fld f i j) (f.key i j)
    | none => s.fld f i j) (f.key i j)

/-- Record a map change in flash and stage it. -/
def State.stageMap (s : State) (f : RegField) (i j v : Nat) : State := (s.recordMap f i j v).stageFld f i j v

/-- The record of class unit-fatal for a spare that the Crown brings in (R310). The spec gives the record no CODE:
a free value (log entry 7). -/
def State.spareRecord (s : State) (block inst phys info : Nat) : State :=
  let (c, s) := s.draw
  s.logErr { s.errNote block (c % 256) 0 inst info with cls := 2, phys := phys } 1

/-- A trigger of class unit-fatal is adopted: the step is marked, and the spare has its record (R310). -/
def State.unitFatal (s : State) (block inst phys info : Nat) : State := s.markUnclean.spareRecord block inst phys info

/-- The device has left its class (R313): a device-fatal record; during a run the device is FAULTED. -/
def State.deviceFatal (s : State) (block inst phys info : Nat) : State :=
  let (c, s) := s.draw
  let s := s.logErr { s.errNote block (c % 256) 0 inst info with cls := 3, phys := phys } 1
  if s.inRun then s.enterFaulted else s

/-- Root die `r` leaves the capability record's mask. -/
def State.loseRoot (s : State) (r : Nat) : State :=
  s.updRepair (fun x => if bit x.cap.roots r then { x with cap := { x.cap with roots := x.cap.roots - 2 ^ r, updated := s.beat } } else x)

/-- Root die `r` comes back into the mask. -/
def State.gainRoot (s : State) (r : Nat) : State :=
  s.updRepair (fun x => if bit x.cap.roots r then x else { x with cap := { x.cap with roots := x.cap.roots + 2 ^ r, updated := s.beat } })

/-! ## Paths, pipelines and lane groups -/

/-- The spare that may serve in place of a failed unit: which of the two. -/
def freeSpare (a b : Nat) (bad : Nat → Bool) : Option Nat :=
  if a = 0x3F ∧ !bad 32 then some 0 else if b = 0x3F ∧ !bad 33 then some 1 else none

/-- A failed physical unit of root die `r` leaves its logical unit to a spare. `get` and `put` read and set what spares 0
and 1 serve; none needed where nothing is served by it. -/
def State.rootSpare (s : State) (kind block r u : Nat) (get : State → Nat → Nat)
    (put : State → Nat → Nat → State) : State :=
  let a := get s 0
  let b := get s 1
  let served : Option Nat :=
    if u = 32 then (if a = 0x3F then none else some a)
    else if u = 33 then (if b = 0x3F then none else some b)
    else if a = u ∨ b = u then none else some u
  match served with
  | none => s
  | some l =>
    let s := if u = 32 then put s 0 0x3F else if u = 33 then put s 1 0x3F else s
    match freeSpare (get s 0) (get s 1) (fun x => s.held kind (rootUnit r x)) with
    | some k => (put s k l).unitFatal block r 0 u
    | none => (s.loseRoot r).deviceFatal block r 0 u

/-- RT_PCMAP and RT_PIPEMAP. -/
def pcSpare (k : Nat) : RegField := if k = 0 then F.RT_PCMAP_SPARE0_FOR else F.RT_PCMAP_SPARE1_FOR
def pipeSpare (k : Nat) : RegField := if k = 0 then F.RT_PIPEMAP_SPARE0_FOR else F.RT_PIPEMAP_SPARE1_FOR

def State.pathSpare (s : State) (r u : Nat) : State :=
  s.rootSpare kPath 7 r u (fun s k => s.mapSoon (pcSpare k) r 0) (fun s k v => s.stageMap (pcSpare k) r 0 v)
def State.pipeSpareIn (s : State) (r u : Nat) : State :=
  s.rootSpare kPipe 7 r u (fun s k => s.mapSoon (pipeSpare k) r 0) (fun s k v => s.stageMap (pipeSpare k) r 0 v)

/-- Spare fields of the control line, and their flash record (R249). -/
def State.setGroup (s : State) (r k v : Nat) : State :=
  let (a, b) := s.ctlSpares r
  let a := if k = 0 then v else a
  let b := if k = 0 then b else v
  (s.setCtl r 6 (a + 256 * b)).updRepair (fun x => { x with groups := x.groups.write 4095 r (a + 64 * b) })

def State.groupSpare (s : State) (r u : Nat) : State :=
  s.rootSpare kGroup 0xE r u (fun s k => if k = 0 then (s.ctlSpares r).1 else (s.ctlSpares r).2) (fun s k v => s.setGroup r k v)

/-! ## Link lanes (R286) -/

/-- A failed lane of link `n` in an active position while lane 8 is free. -/
def State.laneSpare (s : State) (n l : Nat) : State :=
  if l < 8 ∧ s.mapSoon F.LK_LANEMAP_SPARE_FOR n 0 = 0xF ∧ s.fld F.LK_STATUS_SPARE_IN_USE n 0 = 0xF
      ∧ !s.held kLane (laneUnit n 8) then
    (s.stageMap F.LK_LANEMAP_SPARE_FOR n 0 l).spareRecord 8 n 0 l
  else s

/-- LK_LANEMAP follows SPARE_IN_USE after a training brought the lane in. -/
def State.laneFollow (s : State) (n : Nat) : State :=
  let v := s.fld F.LK_STATUS_SPARE_IN_USE n 0
  if v < 8 ∧ s.mapSoon F.LK_LANEMAP_SPARE_FOR n 0 = 0xF then s.stageMap F.LK_LANEMAP_SPARE_FOR n 0 v else s

/-! ## Scratchpad rows (R124) -/

/-- The tile spare of a row is brought in for physical position `p`, or the row leaves the class (R309, R313). -/
def State.tileSpare (s : State) (die row p : Nat) : State :=
  let phys := physIndex die row p
  let at' := die * 1024 + row * 32 + p
  let beat (s : State) : State :=
    if s.inRun then s.setFld F.ES_COMMIT_BEAT_BEAT 0 0 (s.fld F.ES_STEP_NEXT_BEAT 0 0) else s
  if s.mapSoon F.XC_ROWMAP_FENCED_POS die row = p ∨ s.mapSoon F.XC_ROWMAP_FENCED_POS2 die row = p then s
  else if s.mapSoon F.XC_ROWMAP_FENCED_POS die row = 16 ∧ p < 16 ∧ !s.held kTile (physIndex die row 16) then
    (beat ((s.holdFailed kTile phys).stageMap F.XC_ROWMAP_FENCED_POS die row p)).unitFatal 4 die at' phys
  else
    let s := s.holdFailed kTile phys
    let s := if s.mapSoon F.XC_ROWMAP_FENCED_POS2 die row = 0x1F then s.recordMap F.XC_ROWMAP_FENCED_POS2 die row p else s
    s.deviceFatal 4 die at' phys

/-- FENCED_POS2 as flash records it is staged outside a run (R313). -/
def State.stageFenced2 (s : State) : State :=
  if !s.idleRun then s
  else s.crown.repair.maps.foldl (fun s e => match keyField e.1 with
    | some f =>
      if f.fld = F.XC_ROWMAP_FENCED_POS2 ∧ e.2 ≠ s.mapSoon f.fld f.inst f.idx then s.stageFld f.fld f.inst f.idx e.2 else s
    | none => s) s

/-- Retire bank row `q` of bank `b` of tile `t` to a spare: the lowest free one, above those the row has had (R122, R124).
Nothing is done while an entry that maps the row waits to become live. -/
def State.retireRow (s : State) (t b q : Nat) : State :=
  let phys := s.physTile t
  let v := 0x8000 + q
  let es := rowmapFields.map (fun f => s.mapSoon f phys b)
  if es.zip (rowmapFields.map (fun f => s.fld f phys b)) |>.any (fun x => x.1 == v && x.2 != v) then s
  else
    let from' := ((upFrom 0 8).filter (fun k => es[k]? == some v)).foldl (fun m k => max m (k + 1)) 0
    match (upFrom from' (8 - from')).find? (fun k => match es[k]? with
      | some e => !bit e 15
      | none => false) with
    | some k =>
      let s := match rowmapFields[k]? with
        | some f => s.stageMap f phys b v
        | none => s
      let s := if s.held kRow (rowUnit phys b q) then s else s.holdFailed kRow (rowUnit phys b q)
      (s.spareRecord 2 t (tileDie t * 1024 + tileRow t * 32 + (s.physOf t).getD 0) (1024 * b + q)).updCrown (fun c => { c with rewrite := c.rewrite ++ [(t, b, q)] })
    | none => s.tileSpare (tileDie t) (tileRow t) ((s.physOf t).getD 17)

/-- Rows whose errors reach the threshold. -/
def State.retireRows (s : State) : State :=
  s.regs.foldl (fun s e => match keyField e.1 with
    | some f =>
      if f.fld = F.SP_ROWERR_VALID ∧ s.crown.settings.rowLimit ≤ s.fld F.SP_ROWERR_COUNT f.inst f.idx then
        s.retireRow f.inst (s.fld F.SP_ROWERR_BANK f.inst f.idx) (s.fld F.SP_ROWERR_ROW f.inst f.idx)
      else s
    | none => s) s

/-- The bytes of bank row `q` of bank `b` within the persistent image come again from the tile image area. -/
def State.rewriteRow (s : State) (t b q : Nat) : State :=
  match s.job.bind (fun j => j.tiles.find? (fun x => x.tile == t)) with
  | some x =>
    match (upFrom 0 ((x.plen + 31) / 32)).find? (fun g => s.bankOf t g == (b, q)) with
    | some g =>
      let (d, _, s) := s.dramRead (x.img + 32 * g) (min 32 (x.plen - 32 * g))
      s.spWrite t 5 (32 * g) d
    | none => s
  | none => s

/-- The part of the tile image area that holds bank row `q` of bank `b` of tile `t`. -/
def State.rowImage (s : State) (t b q : Nat) : List (Nat × Nat) :=
  match s.job.bind (fun j => j.tiles.find? (fun x => x.tile == t)) with
  | some x => ((upFrom 0 ((x.plen + 31) / 32)).find? (fun g => s.bankOf t g == (b, q))).toList.map
      (fun g => (x.img + 32 * g, min 32 (x.plen - 32 * g)))
  | none => []

/-- Rows retired whose map is live are rewritten (R309), when their bytes can be read. -/
def State.rewriteRows (s : State) : State :=
  let ready (s : State) (x : Nat × Nat × Nat) : Bool := (s.rowmap (s.physTile x.1) x.2.1).contains (0x8000 + x.2.2)
  let s := (s.crown.rewrite.filter (ready s)).foldl (fun s x => s.startRanges (s.rowImage x.1 x.2.1 x.2.2)) s
  let live (s : State) (x : Nat × Nat × Nat) : Bool := ready s x && !s.rangesHeld (s.rowImage x.1 x.2.1 x.2.2)
  let l := s.crown.rewrite.filter (live s)
  l.foldl (fun s x => s.rewriteRow x.1 x.2.1 x.2.2)
    (s.updCrown (fun c => { c with rewrite := c.rewrite.filter (fun x => !live s x) }))

/-! ## Store lines (R214) -/

/-- Spare `k` of slice `p` serves line `l`, as the map of root die `r` that `read` gives has it. -/
def lineServed (read : RegField → Nat → Nat → Nat) (r p l k : Nat) : Bool :=
  read F.RT_STOREMAP_VALID r (16 * p + k) == 1 && read F.RT_STOREMAP_LINE r (16 * p + k) == l

/-- Retire line `l` of slice `p` of root die `r` to a spare: the lowest free one, above those the line has had (R122, R214). Nothing is
done while an entry that maps the line waits to become live. Its count of errors begins again. -/
def State.retireLine (s : State) (r p l : Nat) : State :=
  let u := lineUnit r p l
  let soon (k : Nat) : Bool := lineServed s.mapSoon r p l k
  let hold (s : State) : State := if s.held kLine u then s else s.holdFailed kLine u
  if (upFrom 0 16).any (fun k => soon k && !lineServed s.fld r p l k) then s
  else
    let from' := ((upFrom 0 16).filter soon).foldl (fun m k => max m (k + 1)) 0
    match (upFrom from' (16 - from')).find? (fun k => s.mapSoon F.RT_STOREMAP_VALID r (16 * p + k) != 1) with
    | some k =>
      let s := (hold s).updCrown (fun c => { c with lineErrs := c.lineErrs.write 0 u 0 })
      ((s.stageMap F.RT_STOREMAP_LINE r (16 * p + k) l).stageMap F.RT_STOREMAP_VALID r (16 * p + k) 1).spareRecord 7 r 0 u
    | none => if s.held kLine u ∧ !bit s.crown.repair.cap.roots r then s else ((hold s).loseRoot r).deviceFatal 7 r 0 u

/-- Count a corrected word of the store against its line. -/
def State.countLine (s : State) (e : ErrNote) : State :=
  if e.block = 7 ∧ e.cls = 0 ∧ storeBase ≤ e.info then
    let line := (e.info - storeBase) % 0x4000000 / 256
    let k := lineUnit e.inst (line % 32) (line / 32)
    let n := s.crown.lineErrs.read 0 k + 1
    let s := s.updCrown (fun c => { c with lineErrs := c.lineErrs.write 0 k n })
    if s.crown.settings.lineLimit ≤ n then s.retireLine e.inst (line % 32) (line / 32) else s
  else s

/-! ## Tiles that fail in consecutive attempts (Table 10.4) -/

/-- The physical tile of a parity record; none for another error. -/
def parityTile (e : ErrNote) : Option Nat :=
  if (e.block = 1 ∧ (e.code = 9 ∨ e.code = 0x10)) ∨ (e.block = 2 ∧ e.code = 1) then
    some (physIndex (e.phys / 1024) (e.phys / 32 % 32) (e.phys % 32))
  else none

/-- An attempt has ended: tiles with a fault count one more, the others none. -/
def State.endAttempt (s : State) : State :=
  let l := s.crown.faulty.dedup
  let s := s.updRepair (fun x => { x with faults := l.foldl (fun m p => m.write 0 p (x.faults.read 0 p + 1)) [] })
  let s := s.updCrown (fun c => { c with faulty := [] })
  l.foldl (fun s p =>
    if s.crown.settings.tileLimit ≤ s.crown.repair.faults.read 0 p then s.tileSpare (p / 408) (p % 408 / 17) (p % 17) else s) s

/-- Parity records count for the attempt in which they fell; every attempt that has ended counts (R309), and a record of no attempt
does not. -/
def State.attemptFaults : List ErrNote → List Nat → State → State
  | l, b :: bs, s =>
    let s := s.updCrown (fun c => { c with faulty := c.faulty ++ (l.filter (fun e => decide (e.beat < b))).filterMap parityTile })
    State.attemptFaults (l.filter (fun e => decide (b ≤ e.beat))) bs
      (if s.crown.faulty.isEmpty && s.crown.repair.faults.isEmpty then s else s.endAttempt)
  | l, [], s => s.updCrown (fun c => { c with
      faulty := if s.inRun then c.faulty ++ l.filterMap parityTile else c.faulty, attemptEnds := [] })

/-- Parity records of a poll round, and the attempts that have ended since the last. -/
def State.tileFaults (s : State) (l : List ErrNote) : State := State.attemptFaults l s.crown.attemptEnds s

/-! ## Root vector engines that parked (R313) -/

def State.parkedRves (s : State) : State :=
  (upFrom 0 8).foldl (fun s r =>
    if (s.rve r).st = .parked ∧ !s.held kRve r then ((s.holdFailed kRve r).loseRoot r).deviceFatal 0xE r 0 r else s) s

/-! ## Comparing with the hardware (R318) -/

/-- A discrepancy record: 1 HW_FAILED, 2 CROWN_FAILED, 3 MAP_MISMATCH. -/
def State.discrepancy (s : State) (code block inst info : Nat) : State :=
  s.logErr { s.errNote block code 0 inst info with cls := 0, disc := true } 1

/-- Units that the hardware marks failed: a FAILED bit, or a link that is DOWN. -/
def State.hwFailed (s : State) : List (Nat × Nat) :=
  (upFrom 0 8).flatMap (fun r =>
    let pick (kind m : Nat) := ((upFrom 0 34).filter (bit m)).map (fun u => (kind, rootUnit r u))
    pick kPath (s.fld F.RT_PC_HEALTH_FAILED r 0) ++ pick kPipe (s.fld F.RT_PIPE_HEALTH_FAILED r 0) ++ pick kGroup (s.ctl r 4))
  ++ (upFrom 0 24).flatMap (fun n =>
    ((upFrom 0 9).filter (bit (s.fld F.LK_LANE_HEALTH_FAILED n 0))).map (fun l => (kLane, laneUnit n l)))
  ++ ((upFrom 0 24).filter (fun n => s.linkState n == lkDown)).map (fun n => (kLink, n))

/-- Block and instance that a record names for a unit: for a tile or its rows the die and the logical tile. -/
def State.unitAt (s : State) (kind i : Nat) : Nat × Nat :=
  let logical (p : Nat) : Nat :=
    (((upFrom 0 16).map (fun c => p / 408 * 384 + p % 408 / 17 * 16 + c)).find? (fun t => s.physTile t == p)).getD 0
  match kind with
  | 0 => (4, i / 408)
  | 1 => (2, logical (i / 49152))
  | 2 => (7, i / 262144)
  | 3 | 4 => (7, i / 64)
  | 5 | 7 => (0xE, i / 64)
  | 6 => (8, i / 16)
  | _ => (8, i)

/-- Bring in the spare of a failed unit; a link that is DOWN has none. -/
def State.spareFor (s : State) (kind i : Nat) : State :=
  if kind = kPath then s.pathSpare (i / 64) (i % 64)
  else if kind = kPipe then s.pipeSpareIn (i / 64) (i % 64)
  else if kind = kGroup then s.groupSpare (i / 64) (i % 64)
  else if kind = kLane then s.laneSpare (i / 16) (i % 16)
  else s

/-- The Crown takes a unit that the hardware marks failed as failed, and brings in a spare (R310). -/
def State.adoptFailed (s : State) (x : Nat × Nat) : State :=
  if s.held x.1 x.2 then s else (s.holdFailed x.1 x.2).spareFor x.1 x.2

/-- The Crown polls the FAILED bits (R202, R219, R249, R286). -/
def State.pollFailed (s : State) : State :=
  s.hwFailed.foldl (fun s x => if x.1 = kLink then s else s.adoptFailed x) s

/-- A unit is still mapped, or will be by what is staged. A link stays in use while its EN is 1. -/
def State.stillMapped (s : State) (kind i : Nat) : Bool :=
  let r := i / 64
  let u := i % 64
  let on (a b : Nat) : Bool :=
    if u = 32 then a != 0x3F else if u = 33 then b != 0x3F else a != u && b != u
  match kind with
  | 0 =>
    let at' (f : RegField) := s.mapSoon f (i / 408) (i % 408 / 17)
    at' F.XC_ROWMAP_FENCED_POS != i % 17 && at' F.XC_ROWMAP_FENCED_POS2 != i % 17
      && s.mapRec F.XC_ROWMAP_FENCED_POS2 (i / 408) (i % 408 / 17) != i % 17
  | 1 => !rowmapFields.any (fun f => s.mapSoon f (i / 49152) (i / 1024 % 48) == 0x8000 + i % 1024)
  | 2 =>
    let j (k : Nat) := 16 * (i / 8192 % 32) + k
    !(upFrom 0 16).any (fun k => s.mapSoon F.RT_STOREMAP_VALID (i / 262144) (j k) == 1
      && s.mapSoon F.RT_STOREMAP_LINE (i / 262144) (j k) == i % 8192)
  | 3 => on (s.mapSoon (pcSpare 0) r 0) (s.mapSoon (pcSpare 1) r 0)
  | 4 => on (s.mapSoon (pipeSpare 0) r 0) (s.mapSoon (pipeSpare 1) r 0)
  | 5 => on (s.ctlSpares r).1 (s.ctlSpares r).2
  | 6 =>
    if i % 16 = 8 then s.fld F.LK_STATUS_SPARE_IN_USE (i / 16) 0 != 0xF
    else s.mapSoon F.LK_LANEMAP_SPARE_FOR (i / 16) 0 != i % 16
  | 7 => false
  | _ => s.fld F.LK_CFG_EN i 0 == 1

/-- Block code of Table 10.6 of a map. -/
def mapBlock (n : RegName) : Nat :=
  match n with
  | .XC_ROWMAP => 4
  | .SP_ROWMAP_LO | .SP_ROWMAP_HI => 2
  | .LK_LANEMAP => 8
  | _ => 7

/-- Keys of the map fields that are live or recorded with a value other than their reset value. -/
def State.mapKeys (s : State) : List Nat :=
  ((s.regs ++ s.crown.repair.maps).map (·.1)).dedup.filter (fun k => match keyField k with
    | some f => mapRegs.contains f.info.name
    | none => false)

/-- FENCED_POS2 as flash records it waits for the first clearing outside a run (R313). -/
def State.fence2Waits (s : State) (f : FieldAt) : Bool :=
  decide (f.fld = F.XC_ROWMAP_FENCED_POS2) && s.mapRec f.fld f.inst f.idx != 0x1F
    && s.held kTile (physIndex f.inst f.idx (s.mapRec f.fld f.inst f.idx))

/-- The map field of key `k` differs from the flash record, with no change of it on its way. -/
def State.mapDiffers (s : State) (k : Nat) : Bool :=
  match keyField k with
  | some f => s.fld f.fld f.inst f.idx != s.mapRec f.fld f.inst f.idx && !s.mapPending f.fld f.inst f.idx && !s.fence2Waits f
  | none => false

/-- Root dies whose spare fields differ from the flash record. -/
def State.groupDiffers (s : State) (r : Nat) : Bool :=
  s.crown.repair.groups.read 4095 r != (s.ctlSpares r).1 + 64 * (s.ctlSpares r).2

/-- What the Crown's tables and the hardware health state disagree on (R318): code of the discrepancy, and the unit or the
map field; a map of lane groups comes as kind 1. -/
def State.differences (s : State) : List (Nat × Nat × Nat) :=
  let hw := s.hwFailed
  (hw.filter (fun x => !s.held x.1 x.2)).map (fun x => (1, x.1, x.2))
    ++ (s.crown.repair.failed.filter (fun x => s.stillMapped x.1 x.2 && !hw.contains x)).map (fun x => (2, x.1, x.2))
    ++ (s.mapKeys.filter s.mapDiffers).map (fun k => (3, 0, k))
    ++ ((upFrom 0 8).filter s.groupDiffers).map (fun r => (3, 1, r))

/-- The discrepancy record of a disagreement. -/
def State.recordDiffer (s : State) (x : Nat × Nat × Nat) : State :=
  if x.1 = 3 then
    (if x.2.1 = 1 then s.discrepancy 3 0xE x.2.2 6
    else match keyField x.2.2 with
      | some f => s.discrepancy 3 (mapBlock f.info.name) f.inst (s.fieldAddr f)
      | none => s)
  else
    let (b, i) := s.unitAt x.2.1 x.2.2
    s.discrepancy x.1 b i x.2.2

/-- The Crown adopts the hardware state of a disagreement. -/
def State.adoptDiffer (s : State) (x : Nat × Nat × Nat) : State :=
  match x.1 with
  | 1 => s.adoptFailed x.2
  | 2 => s.dropFailed x.2.1 x.2.2
  | _ =>
    if x.2.1 = 1 then
      s.updRepair (fun p => { p with groups := p.groups.write 4095 x.2.2 ((s.ctlSpares x.2.2).1 + 64 * (s.ctlSpares x.2.2).2) })
    else match keyField x.2.2 with
      | some f => s.recordMap f.fld f.inst f.idx (s.fld f.fld f.inst f.idx)
      | none => s

/-- The clearing that took place last in a run (Table 2.14). -/
def State.clearMark (s : State) : List Nat :=
  [s.fld F.ES_CLEAR_LAST_BEAT 0 0, s.fld F.ES_CLEAR_INFO_CYCLE 0 0, s.fld F.ES_CLEAR_INFO_COUNT 0 0]

/-- A clearing since the Crown last compared: always where the device counts as being at one (R33). -/
def State.newClearing (s : State) : Bool :=
  s.idleRun || (s.run == .draining && s.quiescent) || s.clearMark != s.crown.clearSeen

/-- A link that is DOWN: the Crown stages EN = 0 (R284). -/
def State.stageDown (s : State) : State :=
  (upFrom 0 24).foldl (fun s n =>
    if s.linkState n = lkDown ∧ s.mapSoon F.LK_CFG_EN n 0 = 1 then s.stageFld F.LK_CFG_EN n 0 0 else s) s

/-- What the Crown does at a clearing (R284, R318): disagreements of the clearing before that still stand are settled for
the hardware, those that are new are recorded. A link held failed is held while it is DOWN. -/
def State.compareHealth (s : State) : State :=
  let old := s.crown.differ
  let s := (s.crown.repair.failed.filter (fun x => decide (x.1 = kLink) && s.linkState x.2 == lkOff)).foldl
    (fun s x => s.dropFailed x.1 x.2) s
  let d := s.differences
  let fresh := d.filter (fun x => !old.contains x)
  let s := fresh.foldl (fun s x => s.recordDiffer x) s
  let s := (d.filter old.contains).foldl (fun s x => s.adoptDiffer x) s
  (s.updCrown (fun c => { c with differ := fresh, clearSeen := s.clearMark })).stageDown

/-! ## The round -/

/-- A staged map field holds what flash records and is not live yet, or EN = 0 is staged for a link that is DOWN: a commit
is still to be asked for. -/
def State.wantsCommit (s : State) (row : Bool) : Bool :=
  s.staged.any (fun e => match keyField e.1 with
    | some f => mapRegs.contains f.info.name && (f.info.name == .XC_ROWMAP) == row
          && e.2 == s.mapRec f.fld f.inst f.idx && e.2 != s.fld f.fld f.inst f.idx
        || !row && decide (f.fld = F.LK_CFG_EN) && e.2 == 0 && s.linkState f.inst == lkDown && s.fld f.fld f.inst f.idx == 1
    | none => false)

/-- The Crown requests the commit of its maps: target 1 for a row map in a run, else target 0. -/
def State.mapCommit (s : State) : State :=
  if s.commit.isSome then s
  else if s.wantsCommit true && s.inRun then
    let s := s.setFld F.ES_COMMIT_BEAT_BEAT 0 0 (s.fld F.ES_STEP_NEXT_BEAT 0 0)
    let (g, s) := s.draw
    s.requestCommit (g % 65536) 1
  else if s.wantsCommit true || s.wantsCommit false then s.commitNow.2
  else s

/-- What the Crown does about health in a poll round (R318, R367). -/
def State.healthRound (s : State) : State :=
  let l := s.errs
  let s := l.foldl (fun s e => s.countLine e) s.takeErrs
  let s := if s.newClearing then s.compareHealth else s.pollFailed
  let s := (s.retireRows.tileFaults l).parkedRves
  let s := ((upFrom 0 24).foldl (fun s n => s.laneFollow n) s).stageFenced2.mapCommit
  let s := if s.idleRun then s.applySpares else s
  s.rewriteRows.capUpdate

end Sys2Proof.Machine
end

