-- ==== Sys2Proof/Machine/Reset.lean ====
section
/-! DEFINITION. Resets and their release (R372 to R380, R417), block resets (R382, R383) and the loss of the main rails
(R386, R387, R389). -/

namespace Sys2Proof.Machine

/-- rc edges that `n` crystal cycles span, rounded up (log entry 63). -/
def crystal (n : Nat) : Nat := (n * 100000000 + 32767) / 32768

def State.updSeq (s : State) (f : Sequencer → Sequencer) : State := { s with seqr := f s.seqr }

/-! ## What a reset does to the domains it reaches (R374) -/

/-- Blocks of the link layer and of the understory; every other block belongs to the domains that a reset other than the
watchdog's reaches. -/
def blockOf (k : Nat) : Option Block := if Block.spr.base ≤ k / 64 then some .spr else (keyField k).map (fun f => f.fld.block)

/-- Keep only the registers of blocks that `p` accepts, live and staged (R31). -/
def State.keepBlocks (s : State) (p : Block → Bool) : State :=
  let q (k : Nat) : Bool := match blockOf k with
    | some b => p b
    | none => true
  { s with regs := s.regs.keep q, staged := s.staged.keep q }

/-- The Crown: what its SRAM holds is lost (R368, R376). The queue of commands, the Chime settings and the time lie outside
it when it restarts alone (R376, R419), and with the Chime the errors counted since the last one (R366). -/
def State.resetCrown (s : State) (alone : Bool) : State :=
  let c := s.crown
  let f := { Crown.fresh with wdExp := c.wdExp, attemptEnds := c.attemptEnds }
  let f := if alone then { f with queue := c.queue, chime := c.chime.miss, overs := c.overs, secs := c.secs, nanos := c.nanos
                                  locked := c.locked } else f
  { s with crown := f }.setFld F.RS_BOOT_PHASE 0 0 0

/-- The link layer with the ring segments and the errors that LK_ERR held for the Crown (R281, Table 13.1). -/
def State.resetLinks (s : State) : State :=
  { s with links := [], net := [], errs := s.errs.filter (fun e => e.block != 8) }.keepBlocks (fun b => b != Block.lk)

/-- Ring logic, root dies, tile dies and escapement; the ring segments and the transit path keep what they hold (R374). -/
def State.resetRest (s : State) : State :=
  let s : State := { s with
    commit := none, run := .idle, esc := .fresh, job := none, bt := .fresh, unclean := false, uncleanNext := false
    counters := [], sigOps := [], consOps := [], waiters := [], shadows := [], tiles := [], lanes := [], xout := [], net := s.ringKept, credits := [], slotUse := []
    roots := [], permute := none, armBeat := 0, stopBeat := none, refTick := 0, refFrom := s.rc, clearEnd := [], ports := []
    qps := [], reg := .fresh, tap := .idcode
    errs := s.errs.filter (fun e => e.block == 8) }
  (s.keepBlocks (fun b => b == Block.lk || b == Block.rs)).setFld F.SC_FW_STATUS_STATE 0 0
    (if s.flash.verified = some (1 - s.flash.active) then 2 else 0)

/-- Latch the cause and the beat last adopted; with the main domains off that beat stands latched already (R375). -/
def State.latch (s : State) (cause detail : Nat) : State :=
  let s := s.setFlds 0 0 [(F.RS_CAUSE_CAUSE, cause), (F.RS_CAUSE_DETAIL, detail)]
  (if s.seqr.main then s.setFld F.RS_CAUSE_BEAT_BEAT 0 0 s.beat else s).updSeq (fun q => { q with logged := false })

/-- Domains of Table 13.1 that a source resets: 0 all, 1 all but the link layer, 2 the Crown only. -/
def reach (k : Nat) : List Nat :=
  match k with
  | 0 => [1, 2, 3, 4, 5, 6, 7, 8, 9]
  | 1 => [1, 3, 4, 5, 6, 7, 8, 9]
  | _ => [1]

/-- A reset is asserted (R374). `t0`: its T0, where that is known. `e`: the rc edge max(E, C) of Table 13.4. A standby that has
been requested stays due (R387). -/
def State.assertNow (s : State) (k cause detail : Nat) (t0 : Option Nat) (e : Nat) : State :=
  let compat := s.fld F.RS_STRAPS_RST_MODE 0 0 = 1
  let k := if compat then 0 else k
  let s := s.latch cause detail
  let s := s.resetCrown (k == 2)
  let s := if k = 0 then s.resetLinks else s
  let s := if k ≤ 1 then s.resetRest else s
  s.updSeq (fun q => { q with
    held := if k = 2 then (1 :: q.held).dedup else (reach k ++ q.held).dedup
    t0 := if compat then none else t0, only := k == 2, pllFrom := none, arm := none, restart := false
    clk0 := if k ≤ 1 then t0.getD q.clk0 else q.clk0
    drive := if compat then some (e + 1000000) else none })

/-- Two rc after its source, a reset of the compatibility mode is asserted (Table 13.4). -/
def State.compatReset (s : State) : State :=
  match s.seqr.arm with
  | some a => if a.c + 2 ≤ s.rc then s.assertNow 0 a.cause a.detail none (max a.e a.c) else s
  | none => s

/-- In compatibility mode a source is armed: the first one stands, and a later one puts its end off (Table 13.4). -/
def State.armReset (s : State) (a : Armed) : State :=
  (s.updSeq (fun q => { q with arm := some (match q.arm with
    | some b => { b with e := max b.e a.e }
    | none => a) })).compatReset

/-- A source of reset arises at rc edge `c` and ends at `e`: in compatibility mode the reset is asserted two rc after `c`. -/
def State.assertReset (s : State) (k cause detail : Nat) (t0 : Option Nat) (c e : Nat) : State :=
  if s.fld F.RS_STRAPS_RST_MODE 0 0 = 1 then s.armReset ⟨c, e, cause, detail⟩ else s.assertNow k cause detail t0 s.rc

/-- An internal source arises and ends at its detection (Table 13.4); its T0 is 256 rc after assertion in native mode
(Table 13.2). -/
def State.sourceReset (s : State) (k cause detail : Nat) : State := s.assertReset k cause detail (some (s.rc + 256)) s.rc s.rc

/-! ## Sources (Table 13.2) -/

/-- Nothing holds the main rails off (R386, R388, R389). -/
def State.railsFree (s : State) : Bool :=
  s.seqr.aux && s.fld F.RS_US_STATUS_VIN_UV 0 0 == 0 && s.fld F.RS_US_STATUS_ABSENT 0 0 == 0
    && s.fld F.RS_US_STATUS_AUX_UV 0 0 == 0 && s.fld F.RS_US_STATUS_TRIP 0 0 == 0

/-- The rails may come on: after standby or an emergency off only by a wake (R386, R388, R389). -/
def State.railsOn (s : State) : Bool :=
  let c := s.fld F.RS_CAUSE_CAUSE 0 0
  let r := s.fld F.RS_CAUSE_OFF_REASON 0 0
  s.railsFree && (if s.seqr.main then s.seqr.held.length == 9 else r == 0 || r == 2 || r == 6 || c == 2 || c == 3)

/-- The cause that a power-on reset records: the wake that raised it, else POWER_ON. -/
def State.powerCause (s : State) : Nat :=
  let c := s.fld F.RS_CAUSE_CAUSE 0 0
  if !s.seqr.main && (c == 2 || c == 3) then c else 1

/-- The main rails are good, with the straps sampled (R373, Table 13.12). With RESET_N low at T0 the release is that of a RESET_N
assertion (R428). -/
def State.powerOn (s : State) (straps cause : Nat) (low : Bool) : State :=
  let s := ({ s with dram := [], dramBad := [] }).setFlds 0 0
    [(F.RS_STRAPS_SMB_ADDR, straps / 2), (F.RS_STRAPS_RST_MODE, straps % 2), (F.RS_WDOG_COUNT, 0)]
  ((s.updCrown (fun c => { c with wdExp := [] })).assertNow 0 cause 0 (some (s.rc + crystal 33)) s.rc).updSeq
    (fun q => { q with main := true, pinLow := if low && straps % 2 == 0 then some (s.rc + crystal 33) else none, t0 := if low then none else q.t0 })

/-- POWER_ON_RESET. -/
def execPowerOnReset (x : PowerUp) (s : State) : Out :=
  .next (if s.railsOn then s.powerOn x.straps.toNat s.powerCause x.resetLow else s)

/-- The low pulse that raised the reset goes on: in compatibility mode the source has not ended before the present rc edge, and the
device drives RESET_N 1,000,000 rc from there (Table 13.4). -/
def State.pinStays (s : State) : State :=
  let compat := s.fld F.RS_STRAPS_RST_MODE 0 0 == 1
  s.updSeq (fun q => { q with
    arm := q.arm.map (fun a => { a with e := max a.e s.rc })
    drive := if compat && q.arm.isNone && q.t0.isNone && !q.held.isEmpty then some (max (q.drive.getD 0) (s.rc + 1000000)) else q.drive
    pinLow := some s.rc })

/-- RESET_PIN: RESET_N has read low at the last `n` rc edges, the present one included; 8 or more assert the reset, whose source
arose at the eighth (R380). A later report of the same pulse only puts off its end (R379; log entry 94). -/
def State.resetPin (s : State) (n : Nat) : State :=
  let c := s.rc + 8 - n
  if n < 8 || !s.seqr.main then s
  else if s.seqr.pinFrom.any (fun x => decide (c ≤ x)) then s.pinStays
  else (s.assertReset 0 4 0 none c s.rc).updSeq (fun q => { q with pinLow := some s.rc, pinFrom := some c })

def execResetPin (n : Nat) (s : State) : Out := .next (s.resetPin n)

/-- The rc edges, of the last `n` at which RESET_N has read high, that lie after the one at which it read low last. -/
def State.pinHigh (s : State) (n : Nat) : Nat := s.seqr.pinLow.elim n (fun x => min n (s.rc - x))

/-- RESET_N_RELEASE: RESET_N has read high for `n` rc, of which the sixteenth counts (Tables 13.2, 13.4; R428). -/
def State.pinRelease (s : State) (n : Nat) : State :=
  let m := s.pinHigh n
  let r := s.rc + 16 - m
  let free (t : Nat) (s : State) : State := s.updSeq (fun q => { q with pinLow := none, t0 := some t, clk0 := t })
  if m < 16 then s
  else if s.fld F.RS_STRAPS_RST_MODE 0 0 = 1 then
    (if s.seqr.drive.isNone && s.seqr.arm.isNone && s.seqr.t0.isNone && s.seqr.main && !s.seqr.held.isEmpty then free (r + 1) s else s)
  else if s.seqr.pinLow.isSome then free r s
  else s

def execResetNRelease (n : Nat) (s : State) : Out := .next (s.pinRelease n)

/-- RESET_STRETCH_END (Table 13.4): the device stops driving RESET_N, which read low till then. -/
def State.stretchEnd (s : State) : State :=
  match s.seqr.drive with
  | some x => if x ≤ s.rc then s.updSeq (fun q => { q with drive := none, pinLow := some s.rc }) else s
  | none => s

def execResetStretchEnd (s : State) : Out := .next s.stretchEnd

/-- CRITICAL_STATE_RESET with the block code and instance of the error (Table 13.11). -/
def execCriticalStateReset (block inst : Nat) (s : State) : Out :=
  .next (if s.seqr.main then s.sourceReset 1 5 (block % 16 * 4096 + inst % 4096) else s)

/-- COMMAND_RESET: 1 ms after the reply of DEVICE_RESET (Table 13.2). -/
def execCommandReset (s : State) : Out :=
  .next (match s.crown.resetAt with
    | some x => if x ≤ s.rc then s.sourceReset 1 8 0 else s
    | none => s)

/-- WATCHDOG_RESET (R368, R376): the third expiry within 10 s is escalated. -/
def State.watchdog (s : State) : State :=
  if s.seqr.held.contains 1 || s.seqr.arm.isSome || decide (s.rc < s.crown.wdFrom + s.crown.settings.watchdog) then s
  else
    let l := s.crown.wdExp.filter (fun x => decide (s.rc < x + 1000000000)) ++ [s.rc]
    let s := (s.addFld F.RS_WDOG_COUNT 0 0 1).updCrown (fun c => { c with wdExp := l })
    if 3 ≤ l.length then (s.sourceReset 1 7 0).updCrown (fun c => { c with wdExp := [] })
    else s.sourceReset 2 6 0

def execWatchdogReset (s : State) : Out := .next s.watchdog

/-- The Crown restarts alone at an activation; that is no reset source (R417). -/
def State.restartCrown (s : State) : State :=
  (s.resetCrown true).updSeq (fun q => { q with held := (1 :: q.held).dedup, t0 := some s.rc, only := true, pllFrom := none, restart := false })

/-- The restart that an activation has asked for. -/
def State.activationRestart (s : State) : State := if s.seqr.restart then s.restartCrown else s

/-! ## Release (R377 to R379) -/

/-- Domains of a row of Table 13.3, and its rc edge after T0. -/
def releaseRow (row : Nat) : List Nat × Nat :=
  match row with
  | 0 => ([1], 4096)
  | 1 => ([2, 3], 6144)
  | 2 => ([4], 8192)
  | 3 => ([5], 9216)
  | 4 => ([6], 10240)
  | 5 => ([7], 11264)
  | 6 => ([8], 12288)
  | _ => ([9], 13312)

/-- RS_BOOT.PHASE. -/
def State.phase (s : State) : Nat := s.fld F.RS_BOOT_PHASE 0 0
def State.setPhase (s : State) (v : Nat) : State := s.setFld F.RS_BOOT_PHASE 0 0 v

/-- The release time of a row has come, with every earlier row released. In compatibility mode every domain has one time. -/
def State.rowDue (s : State) (row wait : Nat) : Bool :=
  match s.seqr.t0 with
  | none => false
  | some t =>
    let compat := s.fld F.RS_STRAPS_RST_MODE 0 0 == 1
    let stop := s.phase == 0xE || (s.phase == 0xF && row != 0)
    s.seqr.main && !stop && s.seqr.drive.isNone && (releaseRow row).1.any s.seqr.held.contains
      && (if compat then decide (t + wait ≤ s.rc)
        else decide (t + (releaseRow row).2 + wait ≤ s.rc)
          && (upFrom 0 row).all (fun r => !(releaseRow r).1.any s.seqr.held.contains))

/-- The scratchpads of a tile row are cleared for 1,032 delivered tile cycles (R2, R120). -/
def State.clearRow (s : State) (k : Nat) : State := { s with clearEnd := s.clearEnd.write 0 k (s.esc.tc + 1032) }

/-- Domains leave reset; the Crown starts in its boot ROM with its watchdog (R376, R381), and a tile die clears its
scratchpads (R120, R377). -/
def State.releaseDomains (s : State) (l : List Nat) : State :=
  let crown := l.contains 1 && s.seqr.held.contains 1
  let dies := (upFrom 0 4).filter (fun d => l.contains (5 + d) && s.seqr.held.contains (5 + d))
  let s := dies.foldl (fun s d => foldUp (fun r s => s.clearRow (24 * d + r)) 24 s) s
  let s := s.updSeq (fun q => { q with held := q.held.filter (fun d => !l.contains d), pllFrom := none })
  let s := if crown then (s.updCrown (fun c => { c with wdFrom := s.rc })).setPhase 0 else s
  if l.contains 9 && s.phase == 2 then s.setPhase 3 else s

/-- DOMAIN_RELEASE (R377): row `row` of Table 13.3, whose PLL has or has not locked (R378). -/
def State.domainRelease (s : State) (row : Nat) (locked : Bool) : State :=
  if s.rowDue row 0 then
    (if !locked then s.updSeq (fun q => { q with pllFrom := some (q.pllFrom.getD s.rc) })
      else if s.fld F.RS_STRAPS_RST_MODE 0 0 = 1 then s.releaseDomains s.seqr.held
      else s.releaseDomains (releaseRow row).1)
  else s

def execDomainRelease (row : Nat) (locked : Bool) (s : State) : Out := guardUnit (decide (row < 8)) (s.domainRelease row locked)

/-- PLL_LOCK_TIMEOUT (R378): 65,536 rc after the release time the row's PLL has still not locked. -/
def State.pllTimeout (s : State) (row : Nat) : State :=
  if s.seqr.pllFrom.isSome && s.rowDue row 65536 then { s.setPhase 0xE with run := .faulted } else s

def execPllLockTimeout (row : Nat) (s : State) : Out := guardUnit (decide (row < 8)) (s.pllTimeout row)

/-! ## The main rails go off -/

/-- The main domains lose power for reason `r` of OFF_REASON: DRAM is lost (R386, R387, R389). -/
def State.powerOff (s : State) (r : Nat) : State :=
  let s := (((s.resetCrown false).resetLinks).resetRest).setFld F.RS_CAUSE_OFF_REASON 0 0 r
  { s with dram := [], dramBad := [], errs := [] }.updSeq (fun q => { q with
    held := reach 0, t0 := none, only := false, pllFrom := none, drive := none, arm := none, pinLow := none, pinFrom := none, main := false, standby := none, restart := false })

/-! ## Block reset (R382, R383) -/

/-- Counters that a block reset sets to zero, with their debug records. -/
def State.zeroCounters (s : State) (p : Nat → Bool) : State := { s with counters := s.counters.keep (fun k => !p k) }

/-- A tile row (Table 13.6). -/
def State.resetRow (s : State) (die row : Nat) : State :=
  let base := die * 384 + row * 16
  let mine (t : Nat) : Bool := decide (base ≤ t) && decide (t < base + 16)
  let q (k : Nat) : Bool := match keyField k with
    | some f => match f.fld.block with
      | .tl | .sp | .mx | .xt | .syt => mine f.inst
      | _ => false
    | none => false
  let s := s.clearRow (die * 24 + row)
  ({ s with tiles := s.tiles.keep (fun t => !mine t), waiters := s.waiters.filter (fun w => !mine w.unit)
            regs := s.regs.keep (fun k => decide (Block.spr.base ≤ k / 64) || !q k)
            staged := s.staged.keep (fun k => decide (Block.spr.base ≤ k / 64) || !q k) }).zeroCounters (fun k => mine (k / 64) && decide (k < 0x20000))

/-- The RVE of a root die. -/
def State.resetRve (s : State) (r : Nat) : State :=
  let s := { s with waiters := s.waiters.filter (fun w => w.unit != unitId 3 r) }
  let s := s.setRve r (fun v => { Rve.fresh with cur := v.cur, spare0 := v.spare0, spare1 := v.spare1, perm := v.perm, cyc := v.cyc })
  (upFrom 1 5).foldl (fun s w => s.setCtl r w 0) s

/-- Registers of a link that its block reset sets to their reset values. -/
def linkRegs : List RegName :=
  [.LK_LANE_HEALTH, .LK_LANE_SER, .LK_STATUS, .LK_ERR, .LK_ERR_WHEN, .LK_CNT_UNCORR, .LK_CNT_CRC, .LK_CNT_REPLAY, .LK_CNT_TXDATA,
   .LK_CNT_RXDATA, .LK_CNT_CWAIT]

/-- A link: OFF, then TRAINING where it is enabled, with a new session, which the packets that arrived by it are not of. -/
def State.resetLink (s : State) (n : Nat) : State :=
  let s := s.linkOff n
  let s := { s with regs := s.regs.keep (fun k => match keyField k with
    | some f => !(f.fld.block == Block.lk && f.inst == n && linkRegs.contains f.info.name)
    | none => true) }
  let s := s.setLink n { Link.fresh with session := (s.link n).session }
  if s.fld F.LK_CFG_EN n 0 = 1 then s.linkTrain n else s

/-- QP_RESET: outstanding operations are discarded and the queue pair is disconnected. -/
def State.qpReset (s : State) (q : Nat) : State :=
  s.setQp q Qp.fresh |>.updPort (s.qp q).port (fun x => { x with
    intake := x.intake.filter (fun m => m.qp != q), reads := x.reads.filter (fun m => m.qp != q) })

/-- An Ethernet port. -/
def State.resetPort (s : State) (p : Nat) : State :=
  let s := (upFrom 0 64).foldl (fun s q => if (s.qp q).conn && (s.qp q).port == p then s.qpReset q else s) s
  let s := s.updPort p (fun x => { x with intake := [], reads := [] })
  { s with regs := s.regs.keep (fun k => match keyField k with
    | some f => !(f.fld.block == Block.en && f.inst == p && f.fld.acc != Access.rws)
    | none => true) }

end Sys2Proof.Machine
end

