-- ==== Sys2Proof/Machine/Boot.lean ====
section
/-! DEFINITION. Firmware bundles and the boot phases (R381, R401 to R404, R407 to R410, Table 13.5). -/

namespace Sys2Proof.Machine

/-! ## Bundles (Table 14.3) -/

/-- Bytes of a slot, and a little-endian field. -/
def slotBytes (b : SMap Byte) (o n : Nat) : List Byte := b.readList 0 o n
def slotNum (b : SMap Byte) (o n : Nat) : Nat := ofBytes (slotBytes b o n)

def allZero (d : List Byte) : Bool := d.all (fun x => x == 0)

/-- The header breaks Table 14.3, or its sections leave the slot or overlap. -/
def headerMalformed (b : SMap Byte) : Bool :=
  let z (o n : Nat) : Bool := allZero (slotBytes b o n)
  let fo := slotNum b 32 8
  let fl := slotNum b 40 8
  let co := slotNum b 48 8
  let cl := slotNum b 56 8
  slotNum b 0 4 != 0x46574245 || slotNum b 4 2 != 1 || !(z 7 1 && z 26 6 && z 305 15 && z 2156 20)
    || decide (fo < 2176) || fo % 64 != 0 || decide (co < 2176) || co % 64 != 0
    || decide (0x400000 < fo + fl) || decide (0x400000 < co + cl) || (decide (fo < co + cl) && decide (co < fo + fl))

/-- SHA-384 of a section, as the header stores it. -/
def sectionHash (b : SMap Byte) (off : Nat) : List Byte := hashBytes (Config.sha384 (slotBytes b (slotNum b off 8) (slotNum b (off + 8) 8)))

/-- The first check of R402 that a bundle fails, by its place in the list of FW_VERIFY (Table 14.7). -/
def bundleFail (b : SMap Byte) (floor : Nat) : Option Nat :=
  let ecc := slotBytes b 160 97
  let lms := slotBytes b 257 48
  let signed := slotBytes b 0 320
  if headerMalformed b then some 2
  else if Config.sha384 ecc ≠ Config.romEccHash ∨ Config.sha384 lms ≠ Config.romLmsHash then some 3
  else if !Config.ecdsaVerify ecc (Config.sha384 signed) (slotBytes b 320 96) then some 4
  else if !Config.lmsVerify lms signed (slotBytes b 416 1740) then some 5
  else if slotBytes b 64 48 ≠ sectionHash b 32 ∨ slotBytes b 112 48 ≠ sectionHash b 48 then some 6
  else if !bit (slotNum b 6 1) (b2n Config.steppingB0) then some 7
  else if slotNum b 8 4 < floor then some 8
  else none

/-- The bundle of slot `i` is valid (R402). -/
def State.slotValid (s : State) (i : Nat) : Bool := (bundleFail (s.flash.slot i) (s.flash.rpmc.read 0 0)).isNone

/-! ## Phases -/

/-- The Crown works on phase `p`. -/
def State.inPhase (s : State) (p : Nat) : Bool := s.seqr.main && !s.seqr.held.contains 1 && s.phase == p

/-- RECOVERY: the run state is FAULTED (R405, R409). -/
def State.recovery (s : State) : State := (s.setPhase 0xF).enterFaulted

/-- Run from slot `i`: measurements 1 and 2 (R403, R410). -/
def State.runSlot (s : State) (i : Nat) : State :=
  let b := s.flash.slot i
  (((s.setMeas 1 (sectionHash b 32)).setMeas 2 (sectionHash b 48)).updCrown (fun c => { c with slot := i })).setPhase 1

/-- The Crown takes its records from a half; the owner command key opens under the wrap key. -/
def State.useRecords (s : State) (h : Half) : State :=
  s.updCrown (fun c => { c with settings := h.settings, repair := h.repair, owner := h.owner, loaded := true
                                cmdKey := if h.owner.key.isEmpty then 0 else Config.gcmOpen Config.wrapKey h.owner.cmd })

/-- The half that stands gives the records, and a write that a power loss cut is completed (R407). -/
def State.takeHalf (s : State) (h : Half) : State :=
  (if h.gen = s.flash.rpmc.read 0 1 + 1 then s.flashDo (.raise 1 1) else s).useRecords h

/-- Both halves come again from the mirror (R409). -/
def State.fromMirror (s : State) : State :=
  ((s.flashDo .rebuild).useRecords s.flash.mirror).logErr { s.errNote 0xD 2 0 0 0 with cls := 3 } 1

/-- The records of the boot; none when the device enters records recovery (R409). -/
def State.readRecords (s : State) : Option State :=
  match s.flash.standing with
  | some h => some (s.takeHalf h)
  | none => if s.flash.mirrorOk then some s.fromMirror else none

/-- The sequence floor at boot (R353). -/
def State.bootFloor (s : State) : State := s.updCrown (fun c => { c with floor := s.flash.rpmc.read 0 2 * 2 ^ 20 })

/-- RECOVERY with neither bundle valid: authentication and the owner lock apply as the records give them (R405); records
that cannot be read are those of R409 (log entry 65). -/
def State.romRecovery (s : State) : State :=
  match s.readRecords with
  | some s => s.bootFloor.recovery
  | none => s.recovery.setFld F.SC_FW_STATUS_RECORDS 0 0 1

/-- FIRST_STAGE_VERIFY (R403). -/
def State.firstStage (s : State) : State :=
  if !s.inPhase 0 then s
  else
    let a := s.flash.active
    if s.slotValid a then (s.setFld F.SC_FW_STATUS_FALLBACK 0 0 0).runSlot a
    else if s.slotValid (1 - a) then
      ((s.flashDo (.active (1 - a))).setFld F.SC_FW_STATUS_FALLBACK 0 0 1).runSlot (1 - a)
    else s.romRecovery

def execFirstStageVerify (s : State) : Out := .next s.firstStage

/-- A settings record in another format is replaced with the defaults (R408). -/
def State.checkFormat (s : State) : State :=
  let fmt := slotNum (s.flash.slot s.crown.slot) 20 2
  if s.crown.settings.fmt = fmt then s
  else (s.updCrown (fun c => { c with settings := { Settings.default with fmt := fmt }, dirty := true })).logErr
    { s.errNote 0xD 1 0 0 0 with cls := 0 } 1

/-- The log record of the cause that was latched (R317, R375). -/
def State.logCause (s : State) : State :=
  if s.seqr.logged then s
  else
    (s.logErr { s.errNote 0xC (s.fld F.RS_CAUSE_CAUSE 0 0) 0 0 (s.fld F.RS_CAUSE_DETAIL 0 0) with
      cls := 3, beat := s.fld F.RS_CAUSE_BEAT_BEAT 0 0 } 1).updSeq (fun q => { q with logged := true })

/-- State of the update at boot (R419). -/
def State.fwAtBoot (s : State) : State :=
  s.setFld F.SC_FW_STATUS_STATE 0 0
    (if s.fld F.SC_FW_SCHED_VALID 0 0 = 1 then 3 else if s.flash.verified = some (1 - s.activeSlot) then 2 else 0)

/-- READY is reached: RPMC0 rises to the bundle's SVN (R404). -/
def State.enterReady (s : State) : State :=
  let svn := bundleSvn (s.flash.slot s.crown.slot)
  let s := if s.flash.rpmc.read 0 0 < svn then s.flashDo (.raise 0 (svn - s.flash.rpmc.read 0 0)) else s
  (s.updCrown (fun c => { c with ready := true, wdFrom := s.rc })).setPhase 5

/-- The link-local address formed from a port's MAC (R408; modified EUI-64, log entry 64). -/
def linkLocal (p : Nat) : BitVec 128 :=
  let m := (Config.mac p).toNat
  BitVec.ofNat 128 (0xFE80 * 2 ^ 112 + ((m / 2 ^ 24 ^^^ 0x020000) * 2 ^ 40 + 0xFFFE * 2 ^ 24 + m % 2 ^ 24))

/-- Addresses and VLAN tags of the ports, from the settings record. -/
def State.setNet (s : State) : State :=
  let c := s.crown.settings
  (upFrom 0 2).foldl (fun s p => s.updPort p (fun x => { x with
    ipv4 := c.ipv4.read 0 p, ipv6 := c.ipv6.read (linkLocal p) p, vlan := c.vlan.read 0 p })) s

/-- BOOT_SETTINGS (Table 13.5): a restart of the Crown alone goes on to READY, with the addresses that the
record gives (R408). -/
def State.bootSettings (s : State) : State :=
  if !s.inPhase 1 then s
  else
    match s.readRecords with
    | none => (s.recovery).setFld F.SC_FW_STATUS_RECORDS 0 0 1
    | some s =>
      let s := s.checkFormat.logCause
      let s := s.bootFloor.fwAtBoot.measure.measureBoot.flushFlash
      if s.seqr.only then s.setNet.enterReady else s.setPhase (if s.seqr.held.contains 9 then 2 else 3)

def execBootSettings (s : State) : Out := .next s.bootSettings

/-- Stage the recorded maps of the registers that `p` accepts. -/
def State.stageRecorded (s : State) (p : RegName → Bool) : State :=
  s.crown.repair.maps.foldl (fun s e => match keyField e.1 with
    | some f => if p f.info.name then { s with staged := s.staged.put e.1 e.2 } else s
    | none => s) s

/-- A fenced position other than the recorded ones, which of them the spec leaves open (R312; log entry 7). -/
def State.otherFence (s : State) (die row : Nat) : Nat × State :=
  let l := (upFrom 0 17).filter (fun p => p != s.mapRec F.XC_ROWMAP_FENCED_POS die row && p != s.mapRec F.XC_ROWMAP_FENCED_POS2 die row)
  let (g, s) := s.draw
  (l.getD (g % l.length) 0, s)

/-- Every row by its die and row. -/
def allRows : List (Nat × Nat) := (upFrom 0 96).map (fun i => (i / 24, i % 24))

/-- The row maps of the positions outside the logical maps are reached through another FENCED_POS (R312). -/
def State.stageReach (s : State) : State :=
  (allRows.foldl (fun s x =>
    let (p, s) := s.otherFence x.1 x.2
    (s.stageFld F.XC_ROWMAP_FENCED_POS x.1 x.2 p).stageFld F.XC_ROWMAP_FENCED_POS2 x.1 x.2 (s.mapRec F.XC_ROWMAP_FENCED_POS2 x.1 x.2))
    s).stageRecorded (fun n => n == .SP_ROWMAP_LO || n == .SP_ROWMAP_HI)

/-- The flash values, and the power settings. -/
def State.stageMaps (s : State) : State :=
  let s := allRows.foldl (fun s x => s.stageFld F.XC_ROWMAP_FENCED_POS x.1 x.2 (s.mapRec F.XC_ROWMAP_FENCED_POS x.1 x.2)) s
  let s := s.stageRecorded (fun n => n == .RT_PCMAP || n == .RT_PIPEMAP || n == .RT_STOREMAP || n == .LK_LANEMAP)
  let c := s.crown.settings
  (((s.stageFld F.PW_BUDGET_BUDGET 0 0 c.budget).stageFld F.PW_CEIL_TILE_CEIL 0 0 c.tileCeil).stageFld F.PW_CEIL_TEMP_CEIL 0 0
    c.tempCeil).stageFld F.PW_FLOOR_FLOOR 0 0 c.floor

/-- Spare fields of the control lines, in force at once (R249). -/
def State.bootGroups (s : State) : State :=
  ((upFrom 0 8).foldl (fun s r =>
    let v := s.crown.repair.groups.read 4095 r
    s.setCtl r 6 (v % 64 + 256 * (v / 64 % 64))) s).applySpares.capUpdate

/-- BOOT_MAPS (Table 13.5): a commit that is refused ends the boot in FAILED. -/
def State.bootMaps (s : State) : State :=
  if !s.inPhase 3 then s
  else
    let (a, s) := s.stageReach.commitNow
    if a ≠ 1 then { s.setPhase 0xE with run := .faulted }
    else
      let (b, s) := s.stageMaps.commitNow
      if b ≠ 1 then { s.setPhase 0xE with run := .faulted } else s.bootGroups.setPhase 4

def execBootMaps (s : State) : Out := .next s.bootMaps

/-- The straps disable the MCTP endpoint (R429). -/
def State.smbOff (s : State) : Bool := let a := s.fld F.RS_STRAPS_SMB_ADDR 0 0; decide (a < 8) || decide (0x78 ≤ a)

/-- The record of a disabled MCTP endpoint, whose CODE the spec leaves open (R429; log entry 7). -/
def State.logSmbOff (s : State) : State :=
  if s.smbOff then (let (g, s) := s.draw; s.logErr { s.errNote 0xA (g % 256) 0 0 0 with cls := 0 } 1) else s

/-- BOOT_NET (Table 13.5): addresses, ports and the MCTP endpoint. -/
def State.bootNet (s : State) : State :=
  if !s.inPhase 4 then s
  else ((upFrom 0 2).foldl (fun s p => s.updPort p (fun x => { x with up := true })) s.setNet).logSmbOff.enterReady

def execBootNet (s : State) : Out := .next s.bootNet

end Sys2Proof.Machine
end

