-- ==== Sys2Proof/Machine/Datapath.lean ====
section
/-! DEFINITION. What a tile does in one delivered cycle (R105 to R113, R435): slot B of the word issued, exchange slots, core
loads, matrix unit, memory operations, stores, instruction read port and filler queue, in the order of R111: reads of the row as
it stood, exchange writes, tile writes. -/

namespace Sys2Proof.Machine

/-- The exchange accesses of the present cycle (R109), before a tile slot writes (R111). -/
def State.exchangeFirst (s : State) (t : Nat) : State := ((s.exchangeDue t).landPump t).ownPump t 4

/-- STORE_GROUP_WRITE (R110, R111): the store group of row `row` is written in cycle x0 + 4, after the exchange accesses of that
cycle. -/
def State.storeGroupWrite (s : State) (t row : Nat) : State :=
  if !s.esc.live then s
  else
    match (s.tile t).groups.find? (fun g => g.row == row && g.opened + 4 == s.esc.tc && !g.done) with
    | some g => (s.exchangeFirst t).groupWrite t g
    | none => s

def execStoreGroupWrite (t row : Nat) (s : State) : Out :=
  guardUnit (tileOk t && decide (row < 49152)) (s.storeGroupWrite t row)

/-- MEMOP_COMPLETE (R113, R116): the head memory operation's work of the present cycle, if it ends the operation. -/
def State.memopComplete (s : State) (t : Nat) : State :=
  if !s.esc.live then s
  else
    let s' := (s.exchangeFirst t).memopCycle t
    if (s'.tile t).memops.length < (s.tile t).memops.length then s' else s

def execMemopComplete (t : Nat) (s : State) : Out := guardUnit (tileOk t) (s.memopComplete t)

/-- The slot B command of a word, by the opcode of its slot B. -/
def slotBCommand (t : Nat) (w : W64) : State → Out :=
  match fOp (slotB w) with
  | 0x01 => execLds t w
  | 0x02 => execSts t w
  | 0x03 => execLdv t w
  | 0x04 => execStv t w
  | 0x06 => execFill t w
  | 0x07 => execCopy t w
  | 0x08 => execAccw t w
  | 0x10 => execVarith t w
  | 0x11 => execVfma t w
  | 0x12 => execVcmp t w
  | 0x13 => execVlogic t w
  | 0x14 => execVsel t w
  | 0x15 => execVcvt t w
  | 0x16 => execVred t w
  | 0x17 => execVperm t w
  | 0x18 => execVbcast t w
  | 0x19 => execVmovs t w
  | 0x30 => execMld t w
  | 0x31 => execMma t w
  | 0x32 => execMdrain t w
  | 0x33 => execMfq t w
  | _ => execSlotBNop t w

/-- Slot B of the word issued in the present cycle, where no command has performed it: every slot of an issued word
completes (R76). -/
def State.performB (s : State) (t : Nat) : State :=
  match (s.tile t).bWord with
  | some w =>
    match slotBCommand t w s with
    | .next s => s
    | _ => s
  | none => s

/-- SP_PERF_XWAIT counts the rows that wait in the landing buffer (Table 4.13). -/
def State.countRowWait (s : State) (t : Nat) : State :=
  let n := (s.tile t).waitRows
  if n = 0 then s else s.addFld F.SP_PERF_XWAIT_COUNT t 0 n

/-- What tile `t` still has to do in the present delivered cycle. -/
def State.tileCycle (s : State) (t : Nat) : State :=
  let s := (s.performB t).exchangeFirst t
  let s := (((s.pumpReserves t 16).loadAccesses t).matrixCycle t).memopCycle t
  let s := (((s.storeWrites t).instrFetch t).fillerPassBegin t).fillerComplete t
  (s.countRowWait t).updTile t (fun q => q.endCycle s.esc.tc (accessOff s.profile))

/-- Tile `t` at the start of a delivered cycle: completion signals due (R165), a word that waits (R90), and the count of a core
that idles until its boundary (R103). -/
def State.beginTile (s : State) (t : Nat) : State :=
  let s := (s.entrySignals t).retryWait t
  if (s.tile t).core = .boundWait then s.addFld F.TL_PERF_BOUND_COUNT t 0 1 else s

/-- Tiles whose exchange program is enabled. -/
def State.programTiles (s : State) : List Nat :=
  let f := F.XC_XP_CFG_EN
  s.regs.filterMap (fun e =>
    let w := e.1 / 64 - (f.block.base + f.off)
    if f.key (w / f.block.stride) 0 = e.1 ∧ w / f.block.stride < 1536 then some (w / f.block.stride) else none)

/-- Tiles that may have work in a cycle. -/
def State.busyTiles (s : State) : List Nat :=
  let l := s.tiles.map (·.1)
  l ++ s.programTiles.filter (fun t => !l.contains t)

/-- The tile dies' work of the present cycle, if the edge is delivered: tiles, then crossbars. -/
def State.tilesCycle (s : State) : State :=
  if s.esc.live then (upFrom 0 4).foldl (fun s d => s.switchDue d) (s.busyTiles.foldl State.tileCycle s) else s

/-- The start of a delivered cycle on the tile dies. -/
def State.tilesBegin (s : State) : State := if s.esc.live then s.busyTiles.foldl State.beginTile s else s

end Sys2Proof.Machine
end

