-- ==== Sys2Proof/Machine/Power.lean ====
section
/-! DEFINITION. The understory (R384 to R390) and the Regulator (R391 to R397). -/

namespace Sys2Proof.Machine

/-! ## The understory -/

/-- Comparators of Table 13.7, from what they read before. -/
def State.compareInputs (s : State) (x : UsInputs) : State :=
  s.setFlds 0 0
    [(F.RS_US_STATUS_VIN_UV, if x.vinMv < 38000 then 1 else if 40000 < x.vinMv then 0 else s.fld F.RS_US_STATUS_VIN_UV 0 0),
     (F.RS_US_STATUS_VIN_OV, b2n (decide (61000 < x.vinMv))), (F.RS_US_STATUS_AUX_UV, b2n (decide (x.auxMv < 3000))),
     (F.RS_US_STATUS_LEAK, b2n (decide (x.leakKohm < 100))), (F.RS_US_STATUS_ABSENT, b2n x.absent),
     (F.RS_US_STATUS_MARGIN_LOW, b2n x.marginLow), (F.RS_US_STATUS_THERM, b2n (decide (1760 < x.dieTemp)))]

/-- A comparator whose action is an emergency off: its OFF_REASON code. -/
def State.tripSource (s : State) : Option Nat :=
  if s.fld F.RS_US_STATUS_VIN_OV 0 0 = 1 then some 3
  else if s.fld F.RS_US_STATUS_LEAK 0 0 = 1 then some 4
  else if s.fld F.RS_US_STATUS_THERM 0 0 = 1 then some 5
  else none

/-- The condition of an OFF_REASON code is present. -/
def State.tripPresent (s : State) (r : Nat) : Bool :=
  match r with
  | 3 => s.fld F.RS_US_STATUS_VIN_OV 0 0 == 1
  | 4 => s.fld F.RS_US_STATUS_LEAK 0 0 == 1
  | 5 => s.fld F.RS_US_STATUS_THERM 0 0 == 1
  | _ => false

/-- The main rails go off: the beat last adopted is latched, and no wake is recorded (R375, R388). -/
def State.railsOff (s : State) (r : Nat) : State := if s.seqr.main then (s.latch 1 0).powerOff r else s

/-- EMERGENCY_OFF (R389). -/
def State.emergencyOff (s : State) (r : Nat) : State :=
  let s := s.railsOff r
  (if s.fld F.RS_US_STATUS_TRIP 0 0 = 1 then s
    else s.setFlds 0 0 [(F.RS_US_STATUS_TRIP, 1), (F.RS_US_STATUS_TRIP_SRC, r)])

/-- An auxiliary loss resets the understory too (R373, R375, R384). -/
def State.auxLoss (s : State) : State :=
  ((s.railsOff 0).keepBlocks (fun b => b != Block.rs)).updSeq (fun q => { q with aux := false, trip := false, rtc := none })

/-- The actions of Table 13.7. -/
def State.underActions (s : State) : State :=
  let s := match s.tripSource with
    | some r => s.emergencyOff r
    | none => s
  let s := s.updSeq (fun q => { q with trip := s.tripPresent (s.fld F.RS_US_STATUS_TRIP_SRC 0 0) })
  let s := if s.fld F.RS_US_STATUS_VIN_UV 0 0 = 1 then s.railsOff 2 else s
  let s := if s.fld F.RS_US_STATUS_ABSENT 0 0 = 1 then s.railsOff 6 else s
  if s.fld F.RS_US_STATUS_AUX_UV 0 0 = 1 then s.auxLoss else s

/-- Crystal edges in the first `e` tile-clock edges: 32,768 in 600,000,000 (log entry 67). -/
def crystalEdges (e : Nat) : Nat := e * 32768 / 600000000

/-- The real-time clock at the present tile-clock edge (R384): where a crystal edge falls on it, the clock takes what was written
to it, else it counts one 1/32,768 s. Without the auxiliary rail it does not run. -/
def State.rtcTick (s : State) : State :=
  if !s.seqr.aux || crystalEdges s.edge == crystalEdges (s.edge - 1) then s
  else
    let n := s.seqr.rtc.getD (s.fld F.RS_RTC_SECONDS 0 0 * 32768 + s.fld F.RS_RTC_SUB 0 0 + 1)
    (s.setFlds 0 0 [(F.RS_RTC_SECONDS, n / 32768), (F.RS_RTC_SUB, n % 32768)]).updSeq (fun q => { q with rtc := none })

/-- THERMTRIP_N is driven low: while TRIP is latched, with the auxiliary rail on (R389, R427, R428). -/
def State.thermtripLow (s : State) : Bool := s.seqr.aux && s.fld F.RS_US_STATUS_TRIP 0 0 == 1

/-- UNDERSTORY_COMPARE (R385); without the auxiliary rail nothing runs. -/
def State.underCompare (s : State) (x : UsInputs) : State := if s.seqr.aux then (s.compareInputs x).underActions else s

def execUnderstoryCompare (x : UsInputs) (s : State) : Out := .next (s.underCompare x)

/-- STANDBY_ENTER (R387). -/
def execStandbyEnter (v : W64) (s : State) : Out := .next (if v.getLsbD 0 then s.standbyEnter else s)

/-- STANDBY_POWER_OFF (R387): 10 ms after the write. -/
def execStandbyPowerOff (s : State) : Out :=
  .next (match s.seqr.standby with
    | some x => if x ≤ s.rc then s.railsOff 1 else s
    | none => s)

/-- A wake by cause `c`, which the power-on reset that follows records (R388). -/
def State.wake (s : State) (c : Nat) : State :=
  if !s.seqr.main && s.railsFree then s.setFld F.RS_CAUSE_CAUSE 0 0 c else s

/-- WAKE_PIN: WAKE_N was held low for `n` crystal cycles. -/
def execWakePin (n : Nat) (s : State) : Out := .next (if 33 ≤ n then s.wake 2 else s)

/-- TRIP_CLEAR (R389): the condition has cleared and WAKE_N is held low for `n` crystal cycles. -/
def State.tripClear (s : State) (n : Nat) : State :=
  if 32768 ≤ n ∧ !s.seqr.trip ∧ s.fld F.RS_US_STATUS_TRIP 0 0 = 1 then
    (s.setFlds 0 0 [(F.RS_US_STATUS_TRIP, 0), (F.RS_US_STATUS_TRIP_SRC, 0)]).wake 2
  else s

def execTripClear (n : Nat) (s : State) : Out := .next (s.tripClear n)

/-- RTC_ALARM (R388): SECONDS has reached ALARM; it clears EN where it fires, and does nothing while the main domains are
on. -/
def State.rtcAlarm (s : State) : State :=
  if s.fld F.RS_RTC_ALARM_EN 0 0 = 1 ∧ s.fld F.RS_RTC_ALARM_ALARM 0 0 ≤ s.fld F.RS_RTC_SECONDS 0 0 ∧ !s.seqr.main ∧ s.railsFree then
    (s.setFld F.RS_RTC_ALARM_EN 0 0 0).wake 3
  else s

def execRtcAlarm (s : State) : Out := .next s.rtcAlarm

/-- RTC_SET (R384). -/
def execRtcSet (v : W64) (s : State) : Out := .next (s.rtcSet v.toNat)

/-- AUX_POWER_GOOD (R377): the understory leaves reset. -/
def execAuxPowerGood (s : State) : Out := .next (s.updSeq (fun q => { q with aux := true }))

/-! ## The Regulator -/

/-- k_p (R395). -/
def State.protNow (s : State) : Nat := if !s.reg.hot.isEmpty then 192 else if s.reg.droop.any (fun e => decide (e.1 < 4)) then 128 else 0

/-- Set k_p, and mark the override beats of what acts (R395, R397). -/
def State.setProt (s : State) : State :=
  let s := s.setFld F.PW_STATUS_K_PROT 0 0 s.protNow
  (upFrom 0 3).foldl (fun s i => if s.overOn i then s.overMark i else s) s

/-- Sum of a list. -/
def sumOf (l : List Nat) : Nat := l.foldl (· + ·) 0

/-- What the domains of Table 13.1 before `d` draw of the fixed cost of Table 11.9; all ten draw the whole of it. -/
def fixedBelow : Nat → Nat
  | 0 => 0
  | d + 1 => if 9 ≤ d then 15400 else min 15400 (fixedBelow d + Config.fixedShare d)

/-- What domain `d` of Table 13.1 draws under Table 11.9 in a window, or outside segments: 0 understory, 1 Crown, 2 link layer, 3 ring
logic, 4 root dies, 5 to 8 tile dies, to which the window's tiles count in equal parts, 9 escapement (R372, R392; log entry 136). -/
def State.domainCost (s : State) (w : Option Window) (d : Nat) : Nat :=
  let n (f : Window → Nat) : Nat := w.elim 0 f
  let own : Nat :=
    if d = 2 then 500 * ((upFrom 0 24).filter (fun k => s.fld F.LK_CFG_EN k 0 == 1)).length
    else if d = 3 then 800 * ((upFrom 0 2).filter (fun p => (s.ports.read Port.fresh p).up)).length
    else if d = 4 then
      sumOf ((upFrom 0 8).map (fun r =>
        1500 + n (fun w => 125 * w.dramBw.getD r 0 + 125 * w.pipeGrp.getD r 0 + 500 * b2n (bit w.rve r))))
    else if 5 ≤ d ∧ d ≤ 8 then
      sumOf (((s.job.elim [] (·.tiles)).filter (fun x => tileDie x.tile == d - 5)).map (fun x =>
          8 + cdiv (popCount (s.fld F.SP_BANKMASK_MASK x.tile 0) 48) 8))
        + n (fun w => (sumOf ((w.nMat.zip matCosts).map (fun p => p.1 * p.2)) + 2 * w.nFetch) / 4)
    else 0
  own + (fixedBelow (d + 1) - fixedBelow d)

/-- The current limit of a domain, in bu (R392): its share of the current window's cost, and of the headroom that BUDGET leaves in
proportion to it. -/
def State.powerLimit (s : State) (d : Nat) : Nat :=
  let w := s.powerWindow.map (·.2)
  let cost := sumOf ((upFrom 0 10).map (s.domainCost w))
  s.domainCost w d + (s.fld F.PW_BUDGET_BUDGET 0 0 - cost) * s.domainCost w d / cost

/-- The mean of the newest `n` samples exceeds `b`. -/
def meanOver (l : List Nat) (n b : Nat) : Bool := decide (b * (l.take n).length < sumOf (l.take n))
/-- The mean of the newest `n` samples as its register shows it (log entry 68). -/
def meanOf (l : List Nat) (n : Nat) : Nat := sumOf (l.take n) / max 1 (l.take n).length

/-- Record an error of the Regulator; both are corrected (R393, R396). -/
def State.pwErr (s : State) (code item window : Nat) : State :=
  s.capture F.PW_ERR_VALID F.PW_ERR_MORE 0 [(F.PW_ERR_CODE, code), (F.PW_ERR_ITEM, item), (F.PW_ERR_WINDOW, window)]
    { s.errNote 0xB code 0 0 (item * 2 ^ 48 + window * 2 ^ 32) with cls := 0 }

/-- The class under which a tile's matrix unit is active in the present cycle (R331): a K-group occupies the array, or a drain
writes, which counts under the class of its accumulator's latest MMA. -/
def Matrix.activeClass (m : Matrix) (now : Nat) : Option Nat :=
  match m.mmas.find? (fun j => j.starts.head?.any (fun y => decide (y ≤ now))) with
  | some j => some (powerClass j.word)
  | none => (m.drains.find? (fun j => decide (j.first ≤ now))).map (fun j => (m.acc (mdAcc j.word)).cls)

/-- A fetch engine holds a descriptor or an outstanding READ_REQ (R331). -/
def Fetch.active (f : Fetch) : Bool := !f.queue.isEmpty || !f.flights.isEmpty || !f.reads.isEmpty

/-- Groups of 8 pipelines of a root die that add in the present cycle. -/
def State.pipesNow (s : State) (r : Nat) : Nat :=
  let p := (s.root r).pipes
  if p.1 = s.edge then popCount p.2 4 else 0

/-- DRAM traffic of a stack over the last 1,200 fc, in bytes (R396). -/
def State.trafficNow (s : State) (stack : Nat) : Nat :=
  sumOf ((s.reg.traffic.filter (fun e => e.2.1 == stack && decide (s.esc.tc < e.1 + 600))).map (·.2.2))

/-- Units active in the present cycle beyond the window (R396): 0 to 5 the matrix classes, 6 N_FETCH, 7 DRAM_BW, in units of 100 GB/s,
which are 100,000 bytes in 1,200 fc, 8 PIPE_GRP, 9 RVE. -/
def State.overUnits (s : State) (w : Window) : List Nat :=
  let cls := s.tiles.filterMap (fun e => e.2.matrix.activeClass s.esc.tc)
  (upFrom 0 6).filter (fun i => decide (w.nMat.getD i 0 < (cls.filter (· == i)).length))
    ++ (if w.nFetch < (s.tiles.filter (fun e => e.2.fetch.active)).length then [6] else [])
    ++ (if (upFrom 0 8).any (fun r => decide (100000 * w.dramBw.getD r 0 < s.trafficNow r)) then [7] else [])
    ++ (if (upFrom 0 8).any (fun r => decide (w.pipeGrp.getD r 0 < s.pipesNow r)) then [8] else [])
    ++ (if (upFrom 0 8).any (fun r => decide ((s.rve r).st = .run) && !bit w.rve r) then [9] else [])

/-- COUNT_EXCEEDED against the current window (R396). -/
def State.countCheck (s : State) (f : Window → List Nat) : State :=
  match s.powerWindow with
  | some (i, w) => (f w).foldl (fun s k => s.pwErr 1 k i) s
  | none => s

/-- The Regulator's comparison in a delivered cycle. -/
def State.unitCheck (s : State) : State := if s.esc.live then s.countCheck s.overUnits else s

/-- k_b after a sample (R393). -/
def State.kbNext (s : State) (ov : Bool) : Nat :=
  let top := 256 - s.fld F.PW_FLOOR_FLOOR 0 0
  let kb := s.kBudget
  if ov then min (kb + 8) top
  else if s.reg.overAt = 0 ∨ s.reg.overAt + 10000 ≤ s.rc + 1 then min (kb - 1) top
  else min kb top

/-- BUDGET_OVER (R393): k_b at its top and the mean over BUDGET for 100,000 rc. -/
def State.budgetOver (s : State) (ov : Bool) : State :=
  let full := ov && s.kBudget == 256 - s.fld F.PW_FLOOR_FLOOR 0 0
  if !full then { s with reg := { s.reg with fullAt := 0, told := false } }
  else
    let t := if s.reg.fullAt = 0 then s.rc + 1 else s.reg.fullAt
    if t + 100000 ≤ s.rc + 1 ∧ !s.reg.told then { s with reg := { s.reg with fullAt := t, told := true } }.pwErr 2 0 0
    else { s with reg := { s.reg with fullAt := t } }

/-- Dies that protection holds hot after a sample of their temperatures: above 100 °C, until they fall below 97 °C (R395). -/
def State.hotDies (s : State) (temps : List Int) : List Nat :=
  (upFrom 0 16).filter (fun d => match temps[d]? with
    | some t => decide (1600 < t) || (decide (1552 ≤ t) && s.reg.hot.contains d)
    | none => s.reg.hot.contains d)

/-- The temperature of the hottest die. -/
def hottest (temps : List Int) : Int := temps.foldl max (temps.headD 0)

/-- A sample: module power and the temperatures of the dies, 0 to 3 tile dies, 4 to 11 root dies, 12 to 15 ring dies (R393, R395). -/
def State.regSample (s : State) (p : Nat) (temps : List Int) : State :=
  if s.seqr.held.contains 3 then s
  else
    let temp := hottest temps
    let l := (p :: s.reg.power).take 1000
    let budget := s.fld F.PW_BUDGET_BUDGET 0 0
    let hi := meanOver l 10 budget
    let ov := hi || decide ((s.fld F.PW_CEIL_TEMP_CEIL 0 0 : Int) < temp)
    let c := s.crown.chime
    let s : State := { s with
      reg := { s.reg with power := l, hot := s.hotDies temps, overAt := if ov then s.rc + 1 else s.reg.overAt }
      crown := { s.crown with chime := { c with sum := c.sum + p, count := c.count + 1 } } }
    let s := s.setFlds 0 0 [(F.PW_POWER_MEAN_10US, meanOf l 10), (F.PW_POWER_MEAN_1MS, meanOf l 1000),
      (F.PW_TEMP_MAX, wrap 16 temp), (F.PW_STATUS_K_BUDGET, s.kbNext ov)]
    (s.budgetOver hi).setProt

/-- REGULATOR_SAMPLE: power, the temperatures of the tile and root dies, and those of the ring dies. -/
def execRegulatorSample (p : Nat) (core ring : List Int) (s : State) : Out := .next (s.regSample p (core ++ ring))

/-- DROOP (R395): sources 0 to 3 tile dies, 4 to 11 root dies. -/
def State.droopSet (s : State) (src : Nat) : State :=
  if s.seqr.held.contains 3 then s
  else { s with reg := { s.reg with droop := s.reg.droop.write 0 src (s.edge + 1) } }.setProt

def execDroop (src : Nat) (s : State) : Out := guardUnit (decide (src < 12)) (s.droopSet src)

/-- DROOP_HOLD_EXPIRE (R395): 64 edges after the last droop on any die, what a droop of `src` holds ends: k_p of the tile dies, or the
swallowing of a root die. -/
def State.droopExpire (s : State) (src : Nat) : State :=
  let mine (k : Nat) : Bool := if src < 4 then decide (k < 4) else k == src
  if !s.reg.droop.any (fun e => mine e.1) || s.reg.droop.any (fun e => decide (s.edge + 1 < e.2 + 64)) then s
  else { s with reg := { s.reg with droop := s.reg.droop.keep (fun k => !mine k) } }.setProt

def execDroopHoldExpire (src : Nat) (s : State) : Out := guardUnit (decide (src < 12)) (s.droopExpire src)

end Sys2Proof.Machine
end

