-- ==== Sys2Proof/Machine/Firmware.lean ====
section
/-! DEFINITION. Firmware update (R415 to R419) and activation (FW_ACTIVATION). -/

namespace Sys2Proof.Machine

/-- State of the update: 0 IDLE, 1 STAGING, 2 VERIFIED, 3 SCHEDULED. -/
def State.fwState (s : State) : Nat := s.fld F.SC_FW_STATUS_STATE 0 0
def State.setFw (s : State) (v : Nat) : State := s.setFld F.SC_FW_STATUS_STATE 0 0 v
/-- The B slot. -/
def State.bSlot (s : State) : Nat := 1 - s.activeSlot
def Flash.putSlot (f : Flash) (i : Nat) (b : SMap Byte) : Flash := if i = 0 then { f with slot0 := b } else { f with slot1 := b }

/-- The device is in RECOVERY. -/
def State.inRecovery (s : State) : Bool := s.phase == 0xF

/-- The first four tests of R415. -/
def State.fwGate (s : State) : Option Answer :=
  if s.inRun then some s.wrongState
  else if s.crown.owner.lock then some (ans 0xF 0)
  else if s.marginLow then some (ans 0x10 0)
  else if s.permute.isSome then some (ans 8 0x0801)
  else if s.crown.long = 0x0101 then some (ans 8 0x0101)
  else none

/-- A firmware command refused by its own list, in SC_FW_STATUS.LAST. -/
def State.fwRefuse (s : State) (d : Nat) : Answer × State := (ans 0xE d, s.setFld F.SC_FW_STATUS_LAST 0 0 d)

/-- SC_FW_SCHED cleared, where an update is abandoned or staged anew. -/
def State.unschedule (s : State) : State := s.setFlds 0 0 [(F.SC_FW_SCHED_VALID, 0), (F.SC_FW_SCHED_ACT_BEAT, 0)]

/-- The B slot is empty, with no bundle verified. -/
def State.emptyB (s : State) : State := s.flashDo (.empty s.bSlot)

/-- FW_STAGE_BEGIN (R416). -/
def State.fwBegin (s : State) (len : Nat) : Answer × State :=
  match s.fwGate with
  | some a => (a, s)
  | none =>
    if len < 2176 ∨ 4194304 < len ∨ len % 64 ≠ 0 then s.fwRefuse 1
    else (ans 0 0, ((s.emptyB.unschedule).updCrown (fun c => { c with staged := 0, stageLen := len })).setFw 1)

/-- FW_STAGE_DATA (R416). -/
def State.fwData (s : State) (off : Nat) (d : List Byte) : Answer × State :=
  match s.fwGate with
  | some a => (a, s)
  | none =>
    if s.fwState ≠ 1 then s.fwRefuse 1
    else if off ≠ s.crown.staged then s.fwRefuse 2
    else if s.crown.stageLen < off + d.length then s.fwRefuse 3
    else
      (ans 0 0, { s with flash := s.flash.putSlot s.bSlot (SMap.writeList 0 off d (s.flash.slot s.bSlot)) }.updCrown
        (fun c => { c with staged := off + d.length }))

/-- The checks of FW_VERIFY from the header on: the place of the first that fails (Table 14.7). -/
def State.verifyFail (s : State) : Option Nat :=
  let b := s.flash.slot s.bSlot
  match bundleFail b (s.flash.rpmc.read 0 0) with
  | some d => some d
  | none =>
    let f := s.crown.repair.fmt
    if f < slotNum b 22 2 ∨ slotNum b 24 2 < f then some 9 else none

/-- FW_VERIFY (R416); in RECOVERY it activates the bundle and resets the device (R405). -/
def State.fwVerify (s : State) : Answer × State :=
  match s.fwGate with
  | some a => (a, s)
  | none =>
    if s.fwState ≠ 1 ∨ s.crown.staged < s.crown.stageLen then s.fwRefuse 1
    else
      match s.verifyFail with
      | some d => (s.setFw 0).fwRefuse d
      | none =>
        let b := s.bSlot
        let s := { s with flash := { s.flash with verified := some b } }.setFw 2
        if s.inRecovery then
          (ans 0 0, (s.flashDo (.active b)).updCrown (fun c => { c with resetAt := some (s.rc + 100000) }))
        else (ans 0 0, s)

/-- FW_SCHEDULE (R417). -/
def State.fwSchedule (s : State) (beat : Nat) : Answer × State :=
  match s.fwGate with
  | some a => (a, s)
  | none =>
    if s.fwState ≠ 2 then s.fwRefuse 1
    else if s.role ≠ 0 ∧ beat < s.beat + 2 then s.fwRefuse 2
    else if s.role = 0 ∧ beat ≠ 0 then s.fwRefuse 3
    else (ans 0 0, (s.setFlds 0 0 [(F.SC_FW_SCHED_VALID, 1), (F.SC_FW_SCHED_ACT_BEAT, beat), (F.SC_FW_STATUS_LATE, 0)]).setFw 3)

/-- FW_ABANDON (R418). -/
def State.fwAbandon (s : State) : Answer × State :=
  if s.fwState = 0 then (ans 0 0, s)
  else if s.fwState = 3 ∧ s.fld F.SC_FW_SCHED_VALID 0 0 = 0 then s.fwRefuse 1
  else (ans 0 0, (s.unschedule.emptyB).setFw 0)

/-- A word of the live view by the field at its lowest bits. -/
def State.regWord (s : State) (f : RegField) (i j : Nat) : Nat := (s.readWord (f.addr i j)).getD 0

/-- FW_STATUS (Table 14.7). -/
def State.fwStatus (s : State) : Answer :=
  let b := s.flash.slot s.bSlot
  okData (toBytes (s.regWord F.SC_FW_STATUS_STATE 0 0) 8 ++ toBytes (s.regWord F.SC_FW_SCHED_ACT_BEAT 0 0) 8
    ++ toBytes s.crown.staged 4 ++ slotBytes b 8 12)

/-! ## Activation (R417, R418) -/

/-- A clearing at which an activation may take place. -/
def State.activationDue (s : State) : Bool :=
  let act := s.fld F.SC_FW_SCHED_ACT_BEAT 0 0
  match s.run with
  | .idle | .loaded | .armed | .stopped | .faulted => s.role == 0 || decide (act ≤ s.beat)
  | .running | .held => s.esc.ended && s.esc.cleared && s.sysClearing (s.beat + 1) && decide (act ≤ s.beat + 1)
  | .draining => false

/-- FW_ACTIVATION: the escapement clears VALID, ACTIVE names the B slot, and the Crown restarts alone at the next edge
(log entry 134); it waits while MARGIN_LOW. -/
def State.activate (s : State) : State :=
  if s.fld F.SC_FW_SCHED_VALID 0 0 = 1 ∧ s.activationDue ∧ !s.seqr.held.contains 9 then
    if s.marginLow then s.setFld F.SC_FW_STATUS_LATE 0 0 1
    else ((s.flashDo (.active s.bSlot)).setFld F.SC_FW_SCHED_VALID 0 0 0).updSeq (fun q => { q with restart := true })
  else s

def execFwActivation (s : State) : Out := .next s.activate

end Sys2Proof.Machine
end

