-- ==== Sys2Proof/Machine/IcpCodec.lean ====
section
/-! DEFINITION. ICP messages as bytes (R349, R354, Tables 12.2, 12.3, 13.8, 14.6, 14.7) and SPDM requests (Table 14.5): the
message of a command, and the command of a message. The SPDM layouts are those of SPDM 1.2 (log entry 60). -/

namespace Sys2Proof.Machine

/-- Opcode of the SPDM carriage. -/
def opSpdm : Nat := 0x0601

/-- Bytes of a bit vector, little-endian. -/
def vecBytes {w : Nat} (v : BitVec w) (n : Nat) : List Byte := toBytes v.toNat n

/-- OPCODE and parameters of an ICP command; none for a command that is not one. -/
def icpParts : Instr → Option (Nat × List Byte)
  | .getInfo _ => some (0x0001, [])
  | .getCapability _ => some (0x0002, [])
  | .getState _ => some (0x0003, [])
  | .getTime _ => some (0x0004, [])
  | .load _ a n f => some (0x0101, toBytes a 8 ++ toBytes n 8 ++ vecBytes f 8)
  | .arm _ b => some (0x0102, vecBytes b 8)
  | .stop _ b => some (0x0103, vecBytes b 8)
  | .abort _ => some (0x0104, [])
  | .unload _ => some (0x0105, [])
  | .deviceReset _ => some (0x0106, [])
  | .chimeSet _ f d u p n b =>
    some (0x0107, vecBytes f 4 ++ vecBytes d 16 ++ vecBytes u 2 ++ [p, 0] ++ vecBytes n 4 ++ vecBytes b 8)
  | .memRead _ a n => some (0x0201, toBytes a 8 ++ toBytes n 4)
  | .memWrite _ a d => some (0x0202, toBytes a 8 ++ toBytes d.length 4 ++ d)
  | .qpConnect _ q p r a x y =>
    some (0x0210, toBytes q 1 ++ toBytes p 1 ++ vecBytes r 4 ++ vecBytes a 16 ++ vecBytes x 4 ++ vecBytes y 4)
  | .qpReset _ q => some (0x0211, toBytes q 1)
  | .logRead _ w f n => some (0x0301, [w] ++ vecBytes f 4 ++ [n])
  | .health _ => some (0x0302, [])
  | .counterView _ c => some (0x0401, vecBytes c 4)
  | .physRead _ d r p b o => some (0x0402, [d, r, p, b] ++ vecBytes o 4)
  | .fwStageBegin _ n => some (0x0501, vecBytes n 4 ++ zeros 4)
  | .fwStageData _ o d => some (0x0502, vecBytes o 4 ++ zeros 4 ++ d)
  | .fwVerify _ => some (0x0503, [])
  | .fwSchedule _ b => some (0x0504, vecBytes b 8)
  | .fwAbandon _ => some (0x0505, [])
  | .fwStatus _ => some (0x0506, [])
  | .spdmGetVersion _ => some (opSpdm, [0x10, 0x84, 0, 0])
  | .spdmGetCapabilities _ => some (opSpdm, [0x12, 0xE1, 0, 0] ++ zeros 16)
  | .spdmNegotiateAlgorithms _ a h =>
    some (opSpdm, [0x12, 0xE3, 0, 0, 32, 0, 1, 0] ++ vecBytes a 4 ++ vecBytes h 4 ++ zeros 16)
  | .spdmGetDigests _ => some (opSpdm, [0x12, 0x81, 0, 0])
  | .spdmGetCertificate _ k o n => some (opSpdm, [0x12, 0x82, k, 0] ++ vecBytes o 2 ++ vecBytes n 2)
  | .spdmChallenge _ k n => some (opSpdm, [0x12, 0x83, k, 0] ++ vecBytes n 32)
  | .spdmGetMeasurements _ i sg n =>
    some (opSpdm, [0x12, 0xE0, if sg then 1 else 0, i] ++ if sg then vecBytes n 32 ++ [0] else [])
  | .ownerEnrol _ a b c d => some (0x0602, a ++ b ++ c ++ d ++ zeros 2)
  | .ownerLock _ => some (0x0603, [])
  | .ownerRelease _ m g => some (0x0604, [m] ++ zeros 7 ++ g)
  | .netSet _ p a b v => some (0x0610, toBytes p 1 ++ vecBytes a 4 ++ vecBytes b 16 ++ vecBytes v 2)
  | .powerGet _ => some (0x0701, [])
  | .budgetSet _ b => some (0x0702, vecBytes b 4)
  | .ceilingSet _ a b => some (0x0703, vecBytes a 2 ++ vecBytes b 2)
  | .floorSet _ f => some (0x0704, vecBytes f 2)
  | .permute _ t n r b => some (0x0801, vecBytes t 8 ++ vecBytes n 4 ++ vecBytes r 2 ++ vecBytes b 8)
  | .restore _ a l h n => some (0x0802, [a, l] ++ vecBytes h 2 ++ zeros 4 ++ vecBytes n 8)
  | .returnToService _ k i => some (0x0803, [k] ++ vecBytes i 4)
  | .blockReset _ b i => some (0x0804, [b] ++ vecBytes i 2)
  | _ => none

/-- The header of a message (Table 12.2). -/
def icpHeader (flags op plen seq status detail dev beat : Nat) : List Byte :=
  toBytes 0x4350 2 ++ [1] ++ toBytes flags 1 ++ toBytes op 2 ++ toBytes plen 2 ++ toBytes seq 8 ++ toBytes status 2
    ++ toBytes detail 2 ++ toBytes dev 2 ++ zeros 2 ++ toBytes beat 8

/-- Header and parameters of a command, as its tag covers them (R352). -/
def icpBody (c : IcpCmd) (op : Nat) (params : List Byte) : List Byte :=
  icpHeader (if c.tag.isSome then 2 else 0) op params.length c.seq.toNat 0 0 c.dev.toNat 0 ++ params

/-- The whole message. -/
def icpMessage (c : IcpCmd) (op : Nat) (params : List Byte) : List Byte := icpBody c op params ++ c.tag.getD []

/-! ## The command of a message -/

/-- Field of the parameters. -/
def pf {w : Nat} (d : List Byte) (o n : Nat) : BitVec w := BitVec.ofNat w (le d o n)

/-- What the parameters of an opcode spell. -/
inductive Parsed where
  | cmd (i : Instr)
  | malformed
  | unknown
  /-- An SPDM request that Table 14.5 does not list. -/
  | spdmOther (code : Nat)
  deriving DecidableEq, Repr

/-- The command if the parameter area has the right length. -/
def sized (ok : Bool) (i : Instr) : Parsed := if ok then .cmd i else .malformed

/-- SPDM requests (Table 14.5), of SPDM version 1.2; GET_VERSION is of version 1.0, and any other version is a request that is
not served, as is a CHALLENGE that asks for a measurement summary (log entry 60). -/
def parseSpdm (c : IcpCmd) (d : List Byte) : Parsed :=
  let n := d.length
  if n < 4 then .malformed
  else if le d 0 1 ≠ (if le d 1 1 = 0x84 then 0x10 else 0x12) then .spdmOther (le d 1 1)
  else
    match le d 1 1 with
    | 0x84 => .cmd (.spdmGetVersion c)
    | 0xE1 => .cmd (.spdmGetCapabilities c)
    | 0xE3 => sized (decide (32 ≤ n)) (.spdmNegotiateAlgorithms c (pf d 8 4) (pf d 12 4))
    | 0x81 => .cmd (.spdmGetDigests c)
    | 0x82 => sized (n == 8) (.spdmGetCertificate c (pf d 2 1) (pf d 4 2) (pf d 6 2))
    | 0x83 => if n = 36 ∧ le d 3 1 ≠ 0 then .spdmOther 0x83 else sized (n == 36) (.spdmChallenge c (pf d 2 1) (pf d 4 32))
    | 0xE0 =>
      if le d 2 1 % 2 = 1 then sized (n == 37) (.spdmGetMeasurements c (pf d 3 1) true (pf d 4 32))
      else sized (n == 4) (.spdmGetMeasurements c (pf d 3 1) false 0)
    | k => .spdmOther k

/-- The command of an opcode and its parameters (Table 12.3). -/
def parseParams (c : IcpCmd) (op : Nat) (d : List Byte) : Parsed :=
  let n := d.length
  match op with
  | 0x0001 => sized (n == 0) (.getInfo c)
  | 0x0002 => sized (n == 0) (.getCapability c)
  | 0x0003 => sized (n == 0) (.getState c)
  | 0x0004 => sized (n == 0) (.getTime c)
  | 0x0101 => sized (n == 24) (.load c (le d 0 8) (le d 8 8) (pf d 16 8))
  | 0x0102 => sized (n == 8) (.arm c (pf d 0 8))
  | 0x0103 => sized (n == 8) (.stop c (pf d 0 8))
  | 0x0104 => sized (n == 0) (.abort c)
  | 0x0105 => sized (n == 0) (.unload c)
  | 0x0106 => sized (n == 0) (.deviceReset c)
  | 0x0107 => sized (n == 36 && le d 23 1 == 0) (.chimeSet c (pf d 0 4) (pf d 4 16) (pf d 20 2) (pf d 22 1) (pf d 24 4) (pf d 28 8))
  | 0x0201 => sized (n == 12) (.memRead c (le d 0 8) (le d 8 4))
  | 0x0202 => sized (decide (12 ≤ n) && le d 8 4 == n - 12) (.memWrite c (le d 0 8) (d.drop 12))
  | 0x0210 => sized (n == 30) (.qpConnect c (le d 0 1) (le d 1 1) (pf d 2 4) (pf d 6 16) (pf d 22 4) (pf d 26 4))
  | 0x0211 => sized (n == 1) (.qpReset c (le d 0 1))
  | 0x0301 => sized (n == 6) (.logRead c (pf d 0 1) (pf d 1 4) (pf d 5 1))
  | 0x0302 => sized (n == 0) (.health c)
  | 0x0401 => sized (n == 4) (.counterView c (pf d 0 4))
  | 0x0402 => sized (n == 8) (.physRead c (pf d 0 1) (pf d 1 1) (pf d 2 1) (pf d 3 1) (pf d 4 4))
  | 0x0501 => sized (n == 8 && le d 4 4 == 0) (.fwStageBegin c (pf d 0 4))
  | 0x0502 => sized (decide (9 ≤ n) && decide (n ≤ 1032) && le d 4 4 == 0) (.fwStageData c (pf d 0 4) (d.drop 8))
  | 0x0503 => sized (n == 0) (.fwVerify c)
  | 0x0504 => sized (n == 8) (.fwSchedule c (pf d 0 8))
  | 0x0505 => sized (n == 0) (.fwAbandon c)
  | 0x0506 => sized (n == 0) (.fwStatus c)
  | 0x0601 => parseSpdm c d
  | 0x0602 => sized (n == 388 && le d 386 2 == 0)
      (.ownerEnrol c (d.take 97) ((d.drop 97).take 97) ((d.drop 194).take 96) ((d.drop 290).take 96))
  | 0x0603 => sized (n == 0) (.ownerLock c)
  | 0x0604 => sized (n == 104 && le d 1 7 == 0) (.ownerRelease c (pf d 0 1) (d.drop 8))
  | 0x0610 => sized (n == 23) (.netSet c (le d 0 1) (pf d 1 4) (pf d 5 16) (pf d 21 2))
  | 0x0701 => sized (n == 0) (.powerGet c)
  | 0x0702 => sized (n == 4) (.budgetSet c (pf d 0 4))
  | 0x0703 => sized (n == 4) (.ceilingSet c (pf d 0 2) (pf d 2 2))
  | 0x0704 => sized (n == 2) (.floorSet c (pf d 0 2))
  | 0x0801 => sized (n == 22) (.permute c (pf d 0 8) (pf d 8 4) (pf d 12 2) (pf d 14 8))
  | 0x0802 => sized (n == 16 && le d 4 4 == 0) (.restore c (pf d 0 1) (pf d 1 1) (pf d 2 2) (pf d 8 8))
  | 0x0803 => sized (n == 5) (.returnToService c (pf d 0 1) (pf d 1 4))
  | 0x0804 => sized (n == 3) (.blockReset c (pf d 0 1) (pf d 1 2))
  | _ => .unknown

/-- A message that is not a command (R355). -/
def notCommand (d : List Byte) : Bool :=
  decide (d.length < 32) || le d 0 2 != 0x4350 || le d 2 1 != 1 || le d 3 1 % 2 == 1 || bit (le d 3 1) 2

/-- Message length, or reserved bits and fields of the header, are wrong (R354, R356). -/
def headerWrong (d : List Byte) : Bool :=
  d.length != 32 + le d 6 2 + (if bit (le d 3 1) 1 then 16 else 0) || decide (1152 < le d 6 2) || le d 3 1 / 8 != 0
    || le d 16 4 != 0 || le d 22 2 != 0 || le d 24 8 != 0

/-- The header of a received message. -/
def headerOf (src via : Nat) (d : List Byte) : IcpCmd :=
  { seq := pf d 8 8, src := src, via := via, dev := pf d 20 2
    tag := if bit (le d 3 1) 1 then some (d.drop (32 + le d 6 2)) else none, vendor := Config.enterprise }

/-- Its parameters. -/
def paramsOf (d : List Byte) : List Byte := (d.drop 32).take (le d 6 2)

end Sys2Proof.Machine
end

