-- ==== Sys2Proof/Machine/Owner.lean ====
section
/-! DEFINITION. The owner (R412 to R414) and IEEE 1149.1 access (R413). -/

namespace Sys2Proof.Machine

/-- Info string "FRM owner cmd" (R412). -/
def cmdInfo : List Byte := [0x46, 0x52, 0x4D, 0x20, 0x6F, 0x77, 0x6E, 0x65, 0x72, 0x20, 0x63, 0x6D, 0x64]

/-- OPCODE and SEQ as a signature covers them. -/
def opSeq (op : Nat) (seq : W64) : List Byte := toBytes op 2 ++ toBytes seq.toNat 8

/-- A lock forbids the command. -/
def lockedAns : Answer := ans 0xF 0

/-- The owner record changes, with the command key under the wrap key, and RPMC3 holds its generation (R407, Table 14.2). The
nonce of the wrapping is open (log entry 7). -/
def State.putOwner (s : State) (key : List Byte) (cmd : BitVec 384) : State :=
  let (nonce, s) := s.draw
  let s := s.flashDo (.raise 3 1)
  (s.updCrown (fun c => { c with cmdKey := cmd, owner := { c.owner with
    key := key, cmd := if key.isEmpty then [] else Config.gcmSeal Config.wrapKey nonce cmd, lock := false, gen := s.rpmcNow 3 } })).writeRecords

/-- OWNER_ENROL (R412). -/
def State.ownerEnrol (s : State) (seq : W64) (qO qE sigNew sigCur : List Byte) : Answer × State :=
  let h := Config.sha384 (opSeq 0x0602 seq ++ Config.serial ++ qO ++ qE)
  if s.run ≠ .idle ∧ s.run ≠ .loaded ∧ s.run ≠ .stopped then (s.wrongState, s)
  else if s.crown.owner.lock then (lockedAns, s)
  else if !Config.ecdsaVerify qO h sigNew then (ans 0xE 1, s)
  else if !s.crown.owner.key.isEmpty && !Config.ecdsaVerify s.crown.owner.key h sigCur then (ans 0xE 2, s)
  else if !(Config.p384Point qO && Config.p384Point qE) then (ans 0xE 3, s)
  else
    let k := s.freeCtr
    let qD := Config.ephemeralPub k
    let s : State := { s with freeCtr := k + 1 }
    let cmd := Config.hkdf384 (Config.ecdh k qE) Config.identityCertHash cmdInfo
    (okData (qD ++ Config.identitySign (Config.sha384 (qO ++ qE ++ qD ++ Config.serial))), s.putOwner qO cmd)

/-- OWNER_LOCK (R413). -/
def State.ownerLock (s : State) : Answer × State :=
  if s.fwState = 1 then (ans 8 0x0501, s)
  else if s.fwState = 3 then (ans 8 0x0504, s)
  else if s.crown.owner.key.isEmpty then (ans 0xE 1, s)
  else (ans 0 0, (s.updCrown (fun c => { c with owner := { c.owner with lock := true } })).writeRecords)

/-- OWNER_RELEASE (R414). -/
def State.ownerRelease (s : State) (seq : W64) (mode : Byte) (sig : List Byte) : Answer × State :=
  let o := s.crown.owner
  if o.key.isEmpty then (ans 0xE 1, s)
  else if !Config.ecdsaVerify o.key (Config.sha384 (opSeq 0x0604 seq ++ Config.serial ++ [mode])) sig then (ans 0xE 2, s)
  else if mode = 0 then (ans 0 0, (s.updCrown (fun c => { c with owner := { o with lock := false } })).writeRecords)
  else if mode = 1 then (ans 0 0, s.putOwner [] 0)
  else (ans 0xE 3, s)

/-- The test port serves only BYPASS and IDCODE (R409, R413). -/
def State.jtagLocked (s : State) : Bool := s.ownerLocked

/-- IEEE_1149_1_ACCESS, while the main rails power the port (R427). An instruction that the lock does not serve acts as BYPASS (log entry 69); what the others do on an
unlocked device the spec does not say. -/
def execIeee1149Access (op : JtagOp) (s : State) : Out :=
  if !s.seqr.main then .next s
  else match op with
  | .bypass => .next { s with tap := .bypass }
  | .idcode => .next { s with tap := .idcode }
  | .other => if s.jtagLocked then .next { s with tap := .bypass } else .refused .debugUnit

end Sys2Proof.Machine
end

