-- ==== Sys2Proof/Machine/Spdm.lean ====
section
/-! DEFINITION. The SPDM 1.2 responder (R411, Table 14.5) and MCTP control (R369). The message layouts and the signed
transcripts are those of DSP0274 and DSP0236 (log entry 60). -/

namespace Sys2Proof.Machine

/-- An SPDM ERROR message: 1 InvalidRequest, 3 Busy, 4 UnexpectedRequest, 7 UnsupportedRequest. -/
def spdmError (code data : Nat) : List Byte := [0x12, 0x7F, BitVec.ofNat 8 code, BitVec.ofNat 8 data]

/-- "dmtf-spdm-v1.2.*" four times. -/
def spdmPrefix : List Byte :=
  (List.replicate 4 ([0x64, 0x6D, 0x74, 0x66, 0x2D, 0x73, 0x70, 0x64, 0x6D, 0x2D, 0x76, 0x31, 0x2E, 0x32, 0x2E, 0x2A] : List Byte)).flatten

/-- "responder-challenge_auth signing" and "responder-measurements signing". -/
def ctxChallenge : List Byte :=
  [0x72, 0x65, 0x73, 0x70, 0x6F, 0x6E, 0x64, 0x65, 0x72, 0x2D, 0x63, 0x68, 0x61, 0x6C, 0x6C, 0x65, 0x6E, 0x67, 0x65, 0x5F,
   0x61, 0x75, 0x74, 0x68, 0x20, 0x73, 0x69, 0x67, 0x6E, 0x69, 0x6E, 0x67]
def ctxMeasure : List Byte :=
  [0x72, 0x65, 0x73, 0x70, 0x6F, 0x6E, 0x64, 0x65, 0x72, 0x2D, 0x6D, 0x65, 0x61, 0x73, 0x75, 0x72, 0x65, 0x6D, 0x65, 0x6E,
   0x74, 0x73, 0x20, 0x73, 0x69, 0x67, 0x6E, 0x69, 0x6E, 0x67]

/-- The identity key's signature over a transcript. -/
def spdmSign (ctx transcript : List Byte) : List Byte :=
  Config.identitySign (Config.sha384 (spdmPrefix ++ zeros (36 - ctx.length) ++ ctx ++ hashBytes (Config.sha384 transcript)))

/-- `n` bytes that the spec leaves open. -/
def State.drawBytes (s : State) (n : Nat) : List Byte × State := let (g, s) := s.draw; (toBytes g n, s)

/-- A request that comes before its time. -/
def unexpected (s : State) : List Byte × State := (spdmError 4 0, s)

/-- GET_VERSION: version 1.2 only; a new negotiation. -/
def State.spdmVersion (s : State) (req : List Byte) : List Byte × State :=
  let r : List Byte := [0x10, 0x04, 0, 0, 0, 1, 0, 0x12]
  (r, s.updCrown (fun c => { c with spdm := 1, vca := req ++ r, script := [], mlog := [] }))

/-- GET_CAPABILITIES: CERT_CAP, CHAL_CAP and MEAS_CAP with signature. -/
def State.spdmCaps (s : State) (req : List Byte) : List Byte × State :=
  if s.crown.spdm ≠ 1 then unexpected s
  else
    let (e, s) := s.drawBytes 1
    let r : List Byte := [0x12, 0x61, 0, 0, 0] ++ e ++ [0, 0] ++ toBytes 0x16 4 ++ toBytes 1152 4 ++ toBytes 1152 4
    (r, s.updCrown (fun c => { c with spdm := 2, vca := c.vca ++ req ++ r }))

/-- NEGOTIATE_ALGORITHMS: ECDSA P-384 and SHA-384. -/
def State.spdmAlgs (s : State) (req : List Byte) (asym hash : Nat) : List Byte × State :=
  if s.crown.spdm ≠ 2 then unexpected s
  else if !bit asym 7 || !bit hash 1 then (spdmError 1 0, s)
  else
    let r : List Byte := [0x12, 0x63, 0, 0, 36, 0, 1, 0] ++ toBytes 4 4 ++ toBytes 0x80 4 ++ toBytes 2 4 ++ zeros 16
    (r, s.updCrown (fun c => { c with spdm := 3, vca := c.vca ++ req ++ r }))

/-- An exchange of digests or certificates joins the transcript of CHALLENGE. -/
def State.scripted (s : State) (req r : List Byte) : List Byte × State :=
  (r, s.updCrown (fun c => { c with script := c.script ++ req ++ r, mlog := [] }))

/-- GET_DIGESTS. -/
def State.spdmDigests (s : State) (req : List Byte) : List Byte × State :=
  if s.crown.spdm ≠ 3 then unexpected s
  else s.scripted req ([0x12, 0x01, 0, 1] ++ hashBytes (Config.sha384 Config.certChain))

/-- GET_CERTIFICATE of slot 0, in portions of at most 1,024 bytes. -/
def State.spdmCert (s : State) (req : List Byte) (slot off len : Nat) : List Byte × State :=
  let n := Config.certChain.length
  if s.crown.spdm ≠ 3 then unexpected s
  else if slot ≠ 0 ∨ n ≤ off then (spdmError 1 0, s)
  else
    let k := min len (min 1024 (n - off))
    s.scripted req ([0x12, 0x02, 0, 0] ++ toBytes k 2 ++ toBytes (n - off - k) 2 ++ (Config.certChain.drop off).take k)

/-- CHALLENGE: signed by the identity key. -/
def State.spdmChallenge (s : State) (req : List Byte) (slot : Nat) : List Byte × State :=
  if s.crown.spdm ≠ 3 then unexpected s
  else if slot ≠ 0 then (spdmError 1 0, s)
  else
    let (nonce, s) := s.drawBytes 32
    let r : List Byte := [0x12, 0x03, 0, 1] ++ hashBytes (Config.sha384 Config.certChain) ++ nonce ++ [0, 0]
    let g := spdmSign ctxChallenge (s.crown.vca ++ s.crown.script ++ req ++ r)
    (r ++ g, s.updCrown (fun c => { c with script := [], mlog := [] }))

/-- The bytes of measurement `i`. -/
def State.measBytes (s : State) (i : Nat) : List Byte :=
  ((upFrom 0 6).flatMap (fun j =>
    toBytes (s.fld { F.SC_MEAS_VALUE with off := F.SC_MEAS_VALUE.off + 8 * j } 0 (i - 1)) 8)).take (if i = 7 then 16 else 48)

/-- A measurement block; its value type the spec leaves open. -/
def State.measBlock (s : State) (i : Nat) : List Byte × State :=
  let (t, s) := s.drawBytes 1
  let v := s.measBytes i
  ([BitVec.ofNat 8 i, 1] ++ toBytes (v.length + 3) 2 ++ t ++ toBytes v.length 2 ++ v, s)

/-- GET_MEASUREMENTS: index 0 the number of indices, 1 to 7 one, 0xFF all; signed when requested. -/
def State.spdmMeas (s : State) (req : List Byte) (index : Nat) (sgn : Bool) : List Byte × State :=
  if s.crown.spdm ≠ 3 then unexpected s
  else if 7 < index ∧ index ≠ 0xFF then (spdmError 1 0, s)
  else
    let l := if index = 0 then [] else if index = 0xFF then upFrom 1 7 else [index]
    let (d, s) := l.foldl (fun (x : List Byte × State) i => let (b, s) := x.2.measBlock i; (x.1 ++ b, s)) (([] : List Byte), s)
    let (nonce, s) := s.drawBytes 32
    let r : List Byte := [0x12, 0x60, if index = 0 then 7 else 0, 0, BitVec.ofNat 8 l.length] ++ toBytes d.length 3 ++ d ++ nonce ++ [0, 0]
    let m := s.crown.mlog ++ req ++ r
    if sgn then (r ++ spdmSign ctxMeasure (s.crown.vca ++ m), s.updCrown (fun c => { c with mlog := [] }))
    else (r, s.updCrown (fun c => { c with mlog := m }))

/-- The SPDM response to a request, whose bytes are `req`. -/
def State.spdm (s : State) (req : List Byte) (i : Instr) : List Byte × State :=
  match i with
  | .spdmGetVersion _ => s.spdmVersion req
  | .spdmGetCapabilities _ => s.spdmCaps req
  | .spdmNegotiateAlgorithms _ a h => s.spdmAlgs req a.toNat h.toNat
  | .spdmGetDigests _ => s.spdmDigests req
  | .spdmGetCertificate _ k o n => s.spdmCert req k.toNat o.toNat n.toNat
  | .spdmChallenge _ k _ => s.spdmChallenge req k.toNat
  | .spdmGetMeasurements _ k sg _ => s.spdmMeas req k.toNat sg
  | _ => (spdmError 7 0, s)

/-! ## MCTP control (R369) -/

/-- The MCTP endpoint answers: the straps give it an address (R429), and READY is reached, or while the Crown restarts alone it has not lost its address. -/
def State.mctpUp (s : State) : Bool := !s.smbOff && s.seqr.main && s.crown.ready && s.phase == 5 && !s.seqr.held.contains 1

/-- An MCTP control response: message type 0, the instance identifier of the request, command code, completion code and data.
The rows carry no instance identifier: a free value that the response repeats (log entry 60). -/
def State.mctpAnswer (s : State) (cmd cc : Nat) (d : List Byte) : State :=
  let (inst, s) := s.draw
  s.emit (.mctp ([0x00, BitVec.ofNat 8 (inst % 32), BitVec.ofNat 8 cmd, BitVec.ofNat 8 cc] ++ d))

/-- SET_ENDPOINT_ID: 0 and 0xFF are no endpoint identifiers. -/
def State.setEid (s : State) (e : Nat) : State :=
  if !s.mctpUp then s
  else if e = 0 ∨ e = 0xFF then s.mctpAnswer 1 2 []
  else (s.updCrown (fun c => { c with eid := e })).mctpAnswer 1 0 [0, BitVec.ofNat 8 e, 0]

def execSetEndpointId (eid : Byte) (s : State) : Out := .next (s.setEid eid.toNat)

def execGetEndpointId (s : State) : Out :=
  .next (if s.mctpUp then s.mctpAnswer 2 0 [BitVec.ofNat 8 s.crown.eid, 0, 0] else s)

/-- GET_MCTP_VERSION_SUPPORT, for the base (0xFF) and the types that the endpoint has; the version number itself the spec
leaves open (log entry 60). -/
def State.mctpVersion (s : State) (ty : Byte) : State :=
  if !s.mctpUp then s
  else if ty = 0xFF ∨ ty = 0 ∨ ty = 5 ∨ ty = 0x7F then
    let (v, s) := s.drawBytes 4
    s.mctpAnswer 4 0 ([1] ++ v)
  else s.mctpAnswer 4 0x80 []

def execGetMctpVersionSupport (ty : Byte) (s : State) : Out := .next (s.mctpVersion ty)

/-- GET_MESSAGE_TYPE_SUPPORT: SPDM and the vendor-defined type of ICP. -/
def execGetMessageTypeSupport (s : State) : Out := .next (if s.mctpUp then s.mctpAnswer 5 0 [2, 5, 0x7F] else s)

end Sys2Proof.Machine
end

