-- ==== Sys2Proof/Machine/Restore.lean ====
section
/-! DEFINITION. RESTORE (R314, R315), the acceptance of a PERMUTE (R257, R258) and RETURN_TO_SERVICE (R319). -/

namespace Sys2Proof.Machine

/-! ## The parts of a restore (R315) -/

/-- A part that a RESTORE reads: for root die `root`, on device `dev`. -/
structure RPart where
  root : Nat
  dev  : Nat
  /-- Own part (0) or peer part (1) of a slot. -/
  peer : Nat
  host : Bool
  kind : Nat
  /-- DEVICE that the header must carry. -/
  want : Nat
  /-- Bytes of data. -/
  len  : Nat
  deriving DecidableEq, Repr

/-- Members of the group but the lost one. -/
def others (lost : Nat) : List Nat := (upFrom 0 8).filter (fun m => m != lost)

/-- The parts that a source names, root die by root die. -/
def State.restoreParts (s : State) (x : Restore) : List RPart :=
  (upFrom 0 8).flatMap (fun r =>
    let d := s.ckptLen r
    match x.source with
    | 0 => [⟨r, s.self, 0, false, 0, s.self, d⟩]
    | 1 => [⟨r, x.holder, 1, false, 1, s.self, d⟩]
    | 2 => (others x.lost).flatMap (fun m =>
        let dev := (ckptGroup s.fld).getD m 0
        [⟨r, dev, 0, false, 0, dev, d⟩, ⟨r, dev, 1, false, 2, dev, stripeLen d⟩])
    | _ => [⟨r, s.self, 0, true, 0, s.self, d⟩])

/-- Address of slot `j` of a part. -/
def State.rpartAddr (s : State) (p : RPart) (j : Nat) : Nat := if p.host then s.hostPart p.root j else s.partAddr p.root j p.peer

/-- Bytes of one read: whole on this device, a packet elsewhere, 4,096 from host storage. -/
def State.readSize (s : State) (p : RPart) : Nat := if p.host then 4096 else if p.dev = s.self then max 1 p.len else 256

/-- The header of part `i`, slot `j`, as read; and the slot whose STEP is the one of the command. -/
def Restore.hdr (x : Restore) (i j : Nat) : CkptHdr := readHdr (x.got.read [] (2 * i + j))
def Restore.slot (x : Restore) (i : Nat) : Option Nat := [0, 1].find? (fun j => (x.hdr i j).step == x.step % 2 ^ 48)

/-- Number of a piece of data of part `i`. -/
def dataPiece (i k : Nat) : Nat := 2 ^ 40 + i * 2 ^ 32 + k

/-- The headers of part `i` were read. -/
def Restore.hdrRead (x : Restore) (i : Nat) : Bool := !x.bad.contains (2 * i) && !x.bad.contains (2 * i + 1)

/-- Pieces of the present phase: number, part, address, bytes; data only of a part that a header of the step describes. -/
def State.pieces (s : State) (x : Restore) : List (Nat × RPart × Nat × Nat) :=
  ((s.restoreParts x).zipIdx).flatMap (fun (p, i) =>
    if !x.data then [(2 * i, p, s.rpartAddr p 0, 256), (2 * i + 1, p, s.rpartAddr p 1, 256)]
    else if !x.hdrRead i || (x.slot i).isNone then []
    else
      let z := s.readSize p
      let a := s.rpartAddr p ((x.slot i).getD 0) + partData
      (upFrom 0 ((p.len + z - 1) / z)).map (fun k => (dataPiece i k, p, a + k * z, min z (p.len - k * z))))

def State.updRestore (s : State) (f : Restore → Restore) : State := s.updCrown (fun c => { c with restore := c.restore.map f })

/-- Ask for one piece. -/
def State.askPiece (s : State) (k : Nat) (p : RPart) (a n : Nat) : State :=
  if p.host then
    let q := s.fld F.RT_CKPT_HOST_QP 0 0
    let x := s.qp q
    if !x.conn || x.err then s.updRestore (fun y => { y with bad := y.bad ++ [k] })
    else
      ((s.setQp q { x with sendPsn := psnAdd x.sendPsn 1, ops := x.ops ++ [⟨x.sendPsn, p.root, some k⟩] }).emit
        (.rdmaRead q x.sendPsn (s.fld F.RT_CKPT_HOST_RKEY 0 0) a n)).updRestore (fun y => { y with left := y.left + 1 })
  else if p.dev = s.self then
    let s := s.updRestore (fun y => { y with left := y.left + 1 })
    if s.lineHeld a n then s.reqDram p.root ⟨a, n, .restore k false []⟩
    else
      let (d, bad, s) := s.dramRead a n
      s.restoreGot k (!bad) d
  else
    (s.rootSend p.root (.restore k) (fun tag => mkPacket
      { dest := sysAddr p.dev a, unit := ckptUnit p.root, dev := s.self, kind := 3, len := n, tag := tag })).updRestore
      (fun y => { y with left := y.left + 1 })

/-! ## Checks and writes -/

/-- A header's first failing condition, by its place in the list of RESTORE (Table 12.3). -/
def State.hdrFail (s : State) (x : Restore) (p : RPart) (i : Nat) : Option Nat :=
  match x.slot i with
  | none => some (if x.source = 2 then 6 else 2)
  | some j =>
    let h := x.hdr i j
    if !h.valid then some 1
    else if h.dev ≠ p.want ∨ h.kind ≠ p.kind then some 3
    else if h.hash ≠ s.jobHash8 then some 4
    else none

/-- Data of part `i`. -/
def State.partBytes (s : State) (x : Restore) (p : RPart) (i : Nat) : List Byte :=
  let z := s.readSize p
  (upFrom 0 ((p.len + z - 1) / z)).flatMap (fun k => x.got.read [] (dataPiece i k))

/-- Part `i` was read whole. -/
def State.partRead (s : State) (x : Restore) (p : RPart) (i : Nat) : Bool :=
  let z := s.readSize p
  x.hdrRead i && (x.slot i).isSome && !(upFrom 0 ((p.len + z - 1) / z)).any (fun k => x.bad.contains (dataPiece i k))

/-- Conditions 1 to 4, 6 and 7 that fail, as far as the headers show. -/
def State.hdrFails (s : State) (x : Restore) : List Nat :=
  ((s.restoreParts x).zipIdx).filterMap (fun p => if x.hdrRead p.2 then s.hdrFail x p.1 p.2 else none)
    ++ (if x.bad.isEmpty then [] else [7])

/-- Conditions 5 and 8 that fail, once the data is at hand. -/
def State.dataFails (s : State) (x : Restore) : List Nat :=
  let ps := ((s.restoreParts x).zipIdx).filter (fun p => s.partRead x p.1 p.2)
  let h (i : Nat) : CkptHdr := x.hdr i ((x.slot i).getD 0)
  (if ps.any (fun p => crc32 (s.partBytes x p.1 p.2) != (h p.2).crc) then [5] else [])
    ++ (match ps with
      | p :: l => if l.any (fun q => (h q.2).raise != (h p.2).raise) then [8] else []
      | [] => [])

/-- The set of root die `r`: its part, or the lost member's stripes rebuilt by parity (R306). -/
def State.rebuilt (s : State) (x : Restore) (r : Nat) : List Byte :=
  let ps := s.restoreParts x
  if x.source ≠ 2 then (match ps[r]? with
    | some p => s.partBytes x p r
    | none => [])
  else
    let d := s.ckptLen r
    let t := stripeLen d
    let o := others x.lost
    let at' (m kind : Nat) : List Byte :=
      let i := 14 * r + 2 * o.idxOf m + kind
      match ps[i]? with
      | some p => s.partBytes x p i
      | none => []
    ((upFrom 0 7).flatMap (fun k =>
      let m := (x.lost + k + 1) % 8
      (o.filter (fun i => i != m)).foldl (fun a i =>
        let st := (m + 15 - i) % 8
        let own := at' i 0 ++ zeros (7 * t - d)
        List.zipWith (· ^^^ ·) a ((own.drop (st * t)).take t)) (at' m 1))).take d

/-- Write the ranges, clear CUR, and commit RAISE (R314). -/
def State.restoreWrite (s : State) (x : Restore) : Answer × State :=
  let s := (upFrom 0 8).foldl (fun s r =>
    let d := s.rebuilt x r
    let m := s.fld F.RT_CKPT_SET_MLEN r 0 * 1024
    let s := (s.dramWrite (s.ctl r 8 % 2 ^ 38) (d.take m)).2
    let s := (s.dramWrite (s.ctl r 10 % 2 ^ 38) (d.drop m)).2
    s.setRve r (fun v => { v with cur := 0 })) s
  let (code, s) := (s.stageFld F.RT_WRAISE_RAISE 0 0 (x.hdr 0 ((x.slot 0).getD 0)).raise).commitNow
  (if code = 1 ∨ code = 2 then ans 0 0 else ans 0xC code, s)

/-- The ranges that a RESTORE writes: the master and gather ranges of every root die. -/
def State.restoreRanges (s : State) : List (Nat × Nat) :=
  (upFrom 0 8).flatMap (fun r =>
    let m := s.fld F.RT_CKPT_SET_MLEN r 0 * 1024
    [(s.ctl r 8 % 2 ^ 38, m), (s.ctl r 10 % 2 ^ 38, s.ckptLen r - m)])

/-- The RESTORE is over. -/
def State.restoreEnd (s : State) (a : Answer) : Option Answer × State :=
  (some a, s.updCrown (fun c => { c with restore := none, long := 0 }))

/-- What a RESTORE does next, at most 1,024 pieces in hand; an answer when it is over. DETAIL is the lowest position of a
condition that fails: what the first four cannot settle waits for the data (R360). -/
def State.restoreStep (s : State) : Option Answer × State :=
  match s.crown.restore with
  | none => (none, s)
  | some x =>
    if x.left ≠ 0 then (none, s)
    else
      let todo := (s.pieces x).filter (fun p => (x.got.read [] p.1).isEmpty && !x.bad.contains p.1)
      if !todo.isEmpty then (none, (todo.take 1024).foldl (fun s p => s.askPiece p.1 p.2.1 p.2.2.1 p.2.2.2) s)
      else if !x.data then
        match minOf (s.hdrFails x) with
        | some d => if d < 5 then s.restoreEnd (ans 0xE d) else (none, s.updRestore (fun y => { y with data := true }))
        | none => (none, s.updRestore (fun y => { y with data := true }))
      else
        match minOf (s.hdrFails x ++ s.dataFails x) with
        | some d => s.restoreEnd (ans 0xE d)
        | none =>
          if s.rangesHeld s.restoreRanges then (none, s.startRanges s.restoreRanges)
          else let (a, s) := s.restoreWrite x; s.restoreEnd a

/-- Steps until it waits or is over. -/
def State.restoreRun : Nat → State → Option Answer × State
  | 0, s => (none, s)
  | fuel + 1, s =>
    match s.restoreStep with
    | (some a, s) => (some a, s)
    | (none, s) => if s.crown.restore.any (fun x => x.left == 0) then State.restoreRun fuel s else (none, s)

/-- RESTORE (R314, R315): a long command; no answer while it waits for parts elsewhere. -/
def State.restoreStart (s : State) (source lost holder step : Nat) : Option Answer × State :=
  if s.run ≠ .loaded then (some s.wrongState, s)
  else if 3 < source ∨ (source = 2 ∧ 7 < lost) then (some (ans 1 0), s)
  else
    (s.updCrown (fun c => { c with
      long := 0x0802
      restore := some { source := source, lost := lost, holder := holder, step := step, data := false, left := 0, got := []
                        bad := [] } })).restoreRun 6

/-! ## PERMUTE (R257, R258) -/

/-- The words of a table entry. -/
def permWord (d : List Byte) (i k : Nat) : Nat := le d (32 * i + 8 * k) 8

/-- An entry has a reserved bit, a bad length or a bad round. -/
def permBad (d : List Byte) (rounds i : Nat) : Bool :=
  let w (k : Nat) : Nat := permWord d i k
  w 0 / 2 ^ 38 != 0 || bit (w 1) 63 || bits (w 2) 63 48 != 0 || w 3 != 0 || bits (w 2) 31 0 % 256 != 0
    || decide (rounds ≤ bits (w 2) 47 32)

/-- An entry's source or destination leaves DRAM. -/
def permLeaves (d : List Byte) (i : Nat) : Bool :=
  let n := bits (permWord d i 2) 31 0
  decide (2 ^ 38 < permWord d i 0 + n) || decide (2 ^ 38 < permWord d i 1 % 2 ^ 48 + n)

/-- The first failing condition of R258. -/
def State.permFail (s : State) (d : List Byte) (n rounds b0 : Nat) : Option Nat :=
  let round (i : Nat) : Nat := bits (permWord d i 2) 47 32
  if n = 0 ∨ rounds = 0 then some 1
  else if !s.sysClearing b0 || decide (b0 ≤ s.beat) then some 2
  else if (upFrom 0 n).any (permBad d rounds) then some 3
  else if (upFrom 0 (n - 1)).any (fun i => decide (round (i + 1) < round i)) then some 4
  else if (upFrom 0 n).any (permLeaves d) then some 5
  else none

/-- PERMUTE: its table is read when the command is carried out. -/
def State.permuteStart (s : State) (table n rounds b0 : Nat) : Answer × State :=
  if s.run ≠ .running ∧ s.run ≠ .held then (s.wrongState, s)
  else if s.permute.isSome then (ans 8 0x0801, s)
  else if n ≠ 0 ∧ 2 ^ 38 < table + 32 * n then (ans 9 0, s)
  else
    let (d, _, s) := s.dramRead table (32 * n)
    match s.permFail d n rounds b0 with
    | some k => (ans 0xE k, s)
    | none =>
      let l := (upFrom 0 n).map (fun i =>
        { src := permWord d i 0, dst := permWord d i 1, len := bits (permWord d i 2) 31 0, round := bits (permWord d i 2) 47 32 : PermEntry })
      (ans 0 0, { s with permute := some { b0 := b0, rounds := rounds, entries := l, finished := [] } })

/-! ## RETURN_TO_SERVICE (R319; instances: log entry 62) -/

/-- The instance of a kind exists. -/
def unitOk (kind i : Nat) : Bool :=
  match kind with
  | 0 => decide (i < 1632)
  | 1 => decide (i < 1632 * 48 * 1024)
  | 2 => decide (i < 8 * 32 * 8192)
  | 3 | 4 | 5 => decide (i / 64 < 8) && decide (i % 64 < 34)
  | 6 => decide (i / 16 < 24) && decide (i % 16 < 9)
  | _ => false

/-- Stage a map field that names the unit back to the value that names none. -/
def State.unmap (s : State) (f : RegField) (i j v none' : Nat) : State :=
  if s.mapSoon f i j = v then s.stageMap f i j none' else s

/-- The map of the unit, staged without it. -/
def State.unmapUnit (s : State) (kind i : Nat) : State :=
  let r := i / 64
  let u := i % 64
  match kind with
  | 0 => (s.unmap F.XC_ROWMAP_FENCED_POS (i / 408) (i % 408 / 17) (i % 17) 16).unmap F.XC_ROWMAP_FENCED_POS2 (i / 408)
      (i % 408 / 17) (i % 17) 0x1F
  | 1 => rowmapFields.foldl (fun s f => s.unmap f (i / 1024 / 48) (i / 1024 % 48) (0x8000 + i % 1024) 0) s
  | 2 => (upFrom 0 16).foldl (fun s k =>
      let j := 16 * (i / 8192 % 32) + k
      if s.mapSoon F.RT_STOREMAP_VALID (i / 262144) j = 1 ∧ s.mapSoon F.RT_STOREMAP_LINE (i / 262144) j = i % 8192 then
        s.stageMap F.RT_STOREMAP_VALID (i / 262144) j 0
      else s) s
  | 3 => (s.unmap (pcSpare 0) r 0 u 0x3F).unmap (pcSpare 1) r 0 u 0x3F
  | 4 => (s.unmap (pipeSpare 0) r 0 u 0x3F).unmap (pipeSpare 1) r 0 u 0x3F
  | 5 => (let s := if (s.ctlSpares r).1 = u then s.setGroup r 0 0x3F else s
      if (s.ctlSpares r).2 = u then s.setGroup r 1 0x3F else s)
  | _ => s.unmap F.LK_LANEMAP_SPARE_FOR (i / 16) 0 (i % 16) 0xF

/-- The block of the unit, where it has one, is reset (Table 13.6): a lane group its RVE, a lane its link. -/
def State.resetUnit (s : State) (kind i : Nat) : State :=
  match kind with
  | 5 => (let s := s.resetRve (i / 64)
      if s.run = .loaded ∨ s.run = .stopped then s.noJob else s)
  | 6 => s.resetLink (i / 16)
  | _ => s

/-- A failed unit of root die `r` has no spare in its place: a path, pipeline or lane group by what the two spares serve, a store line by
its slice's spares, an RVE always (R309, R313). -/
def State.unspared (s : State) (kind i : Nat) : Bool :=
  let u := i % 64
  let out (a b : Nat) : Bool := if u = 32 then a != 0x3F else if u = 33 then b != 0x3F else a != u && b != u
  let r := i / 64
  if kind = kPath then out (s.mapSoon (pcSpare 0) r 0) (s.mapSoon (pcSpare 1) r 0)
  else if kind = kPipe then out (s.mapSoon (pipeSpare 0) r 0) (s.mapSoon (pipeSpare 1) r 0)
  else if kind = kGroup then out (s.ctlSpares r).1 (s.ctlSpares r).2
  else if kind = kLine then
    !(upFrom 0 16).any (fun k => lineServed s.mapSoon (i / 262144) (i / 8192 % 32) (i % 8192) k)
  else kind == kRve

/-- The root die of a unit; none for a unit of another kind. -/
def rootOfUnit (kind i : Nat) : Option Nat :=
  if kind = kLine then some (i / 262144) else if kind = kPath || kind = kPipe || kind = kGroup then some (i / 64)
  else if kind = kRve then some i else none

/-- Every unit of root die `r` is in service or has a spare in its place. -/
def State.rootWhole (s : State) (r : Nat) : Bool :=
  !s.crown.repair.failed.any (fun e => decide (rootOfUnit e.1 e.2 = some r) && s.unspared e.1 e.2)

/-- RETURN_TO_SERVICE. -/
def State.returnUnit (s : State) (kind i : Nat) : Answer × State :=
  if s.run ≠ .idle ∧ s.run ≠ .loaded ∧ s.run ≠ .stopped then (s.wrongState, s)
  else if !unitOk kind i then (ans 1 0, s)
  else
    let s := (s.dropFailed kind i).unmapUnit kind i
    let s := if kind = 5 then s.dropFailed kRve (i / 64) else s
    let s := match rootOfUnit kind i with
      | some r => if s.rootWhole r then s.gainRoot r else s
      | none => s
    let s := s.updRepair (fun x => match kind with
      | 0 => { x with faults := x.faults.write 0 i 0 }
      | 6 => if bit x.cap.links (i / 16) then x else { x with cap := { x.cap with links := x.cap.links + 2 ^ (i / 16), updated := s.beat } }
      | _ => x)
    let s := if kind = 2 then s.updCrown (fun c => { c with lineErrs := c.lineErrs.write 0 i 0 }) else s
    (ans 0 0, ((s.resetUnit kind i).capUpdate).writeRecords)

end Sys2Proof.Machine
end

