-- ==== Sys2Proof/Machine/RveArith.lean ====
section
/-! DEFINITION. Arithmetic of the root vector engine (R241 to R244): FP32 operations with one rounding, and the lanes of
a vector register. -/

namespace Sys2Proof.Machine

/-! ## FP32 (R244) -/

/-- Quotient with a sticky low bit. -/
def Num.div : Num → Num → Num
  | .nan, _ | _, .nan => .nan
  | .inf _, .inf _ => .nan
  | .inf a, .fin b _ _ => .inf (a != b)
  | .fin a _ _, .inf b => .fin (a != b) 0 0
  | .fin a m e, .fin b n k =>
    if n = 0 then (if m = 0 then .nan else .inf (a != b))
    else if m = 0 then .fin (a != b) 0 0
    else .fin (a != b) (2 * (m * 2 ^ 60 / n) + b2n (m * 2 ^ 60 % n != 0)) (e - k - 61)

/-- Integer square root of a number below 2^(2 × bits), from bit `bits − 1` down. -/
def isqrt (n : Nat) : Nat → Nat → Nat
  | 0, r => r
  | i + 1, r => if (r + 2 ^ i) * (r + 2 ^ i) ≤ n then isqrt n i (r + 2 ^ i) else isqrt n i r

/-- Square root with a sticky low bit; −0 gives −0. -/
def Num.sqrt : Num → Num
  | .nan => .nan
  | .inf neg => if neg then .nan else .inf false
  | .fin neg m e =>
    if m = 0 then .fin neg 0 0
    else if neg then .nan
    else
      let odd := e % 2 != 0
      let n := (if odd then 2 * m else m) * 2 ^ 60
      let h : Int := (if odd then e - 1 else e) / 2
      let r := isqrt n 46 0
      .fin false (2 * r + b2n (r * r != n)) (h - 31)

/-- Round an FP32 result. -/
def f32 (x : Num) : Nat := fp32.encode .near false x

/-- ADD, SUB, MUL, DIV, MAX, MIN of ZOP (Table 8.3). -/
def zopLane (t a b : Nat) : Nat :=
  let x := fp32.decode a
  let y := fp32.decode b
  match t with
  | 0 => f32 (x.add y)
  | 1 => f32 (x.add y.neg)
  | 2 => f32 (x.mul y)
  | 3 => f32 (x.div y)
  | 4 => f32 (x.max y)
  | _ => f32 (x.min y)

/-- SQRT, RCP, ABS, NEG of ZUN. -/
def zunLane (t a : Nat) : Nat :=
  let x := fp32.decode a
  match t with
  | 0 => f32 x.sqrt
  | 1 => f32 ((Num.fin false 1 0).div x)
  | 2 => f32 x.abs
  | _ => f32 x.neg

/-- XFOP (Table 8.3). -/
def xfopOp (t : Nat) (a b : W64) : W64 :=
  let x := a.toNat % 2 ^ 32
  let y := b.toNat % 2 ^ 32
  match t with
  | 0 => BitVec.ofNat 64 (zopLane 0 x y)
  | 1 => BitVec.ofNat 64 (zopLane 1 x y)
  | 2 => BitVec.ofNat 64 (zopLane 2 x y)
  | 3 => BitVec.ofNat 64 (zopLane 3 x y)
  | 4 => BitVec.ofNat 64 (zunLane 0 x)
  | 5 => BitVec.ofNat 64 (zopLane 5 x y)
  | 6 => BitVec.ofNat 64 (zopLane 4 x y)
  | 7 => BitVec.ofNat 64 (f32 (Num.ofInt a.toInt))
  | _ => BitVec.ofNat 64 (floatToInt 64 .zero true (fp32.decode x))

/-- XOP (Table 8.3). -/
def xopOp (t : Nat) (a b : W64) : W64 :=
  let sh := b.toNat % 64
  match t with
  | 0 => a + b
  | 1 => a - b
  | 2 => a &&& b
  | 3 => a ||| b
  | 4 => a ^^^ b
  | 5 => a <<< sh
  | 6 => a >>> sh
  | 7 => a.sshiftRight sh
  | 8 => a * b
  | 9 => if b.ult a then b else a
  | _ => if a.ult b then b else a

/-! ## Vectors -/

/-- The 256 lanes of a vector register. -/
def zLanes (v : BitVec 8192) : List Nat := (upFrom 0 256).map (fun i => (v.extractLsb' (32 * i) 32).toNat)

/-- A vector register of 256 lanes. -/
def ofZLanes (l : List Nat) : BitVec 8192 :=
  BitVec.ofNat 8192 (l.foldr (fun x a => x % 2 ^ 32 + 2 ^ 32 * a) 0)

/-- ZCMP (Table 8.3): 0 EQ, 1 LT, 2 LE, 3 NE, 4 NF. -/
def zcmpLane (t a b : Nat) : Nat :=
  let hit := if t = 4 then (fp32.decode a).nonfinite else laneCmp 0 t a b
  if hit then 0xFFFFFFFF else 0

/-- ZRED (R244): SUM and MAX by the tree of R95, CNT the number of nonzero lanes. -/
def zredOp (t : Nat) (l : List Nat) : Nat :=
  match t with
  | 0 => (treeReduce (zopLane 0) 8 l).headD 0
  | 1 => (treeReduce (zopLane 4) 8 l).headD 0
  | _ => (l.filter (fun x => x != 0)).length

/-- Bytes of 256 elements of a type (R242). -/
def zldBytes (c : Nat) : Nat := if c = 8 then 576 else 256 * deSizeR c
where
  /-- Element size (Table 6.8). -/
  deSizeR (c : Nat) : Nat := if c = 1 ∨ c = 7 then 4 else if c = 2 ∨ c = 3 then 2 else 1

/-- Codes of Table 3.6 for the type codes of ZLD and ZST. -/
def zTy (c : Nat) : Nat :=
  match c with
  | 1 => 0 | 2 => 1 | 3 => 2 | 4 => 3 | 5 => 4 | _ => 5

/-- The types ZLD and ZST take (R242). -/
def zTypeOk (c : Nat) : Bool := (1 ≤ c && c ≤ 5) || c == 7 || c == 8

/-- ZLD's conversion to FP32 lanes. -/
def zldLanes (c : Nat) (d : List Byte) : List Nat :=
  if c = 8 then
    (chunks 72 8 d).flatMap (fun b =>
      let k := bs16OfSplit (b.take 64) (b.drop 64)
      (upFrom 0 32).map (fun i => f32 (k.elem i)))
  else (elemsOf (zldBytes.deSizeR c) d).map (fun v => convert (zTy c) 0 .near false v)

/-- ZST's conversion of FP32 lanes. -/
def zstBytes (c : Nat) (sat : Bool) (l : List Nat) : List Byte :=
  if c = 8 then
    (chunks 32 8 l).flatMap (fun g =>
      let b := bs16Encode (g.map fp32.decode) true
      b.mantBytes ++ b.hdrBytes)
  else l.flatMap (fun v => toBytes (convert 0 (zTy c) .near sat v) (zldBytes.deSizeR c))

end Sys2Proof.Machine
end

