-- ==== Sys2Proof/Machine/Rve.lean ====
section
/-! DEFINITION. The root vector engine (R238 to R248): its instructions, its state and its errors. -/

namespace Sys2Proof.Machine

/-! ## Instruction words (Table 8.2) -/

def vD (w : W64) : Nat := wbits w 55 51
def vA (w : W64) : Nat := wbits w 50 46
def vB (w : W64) : Nat := wbits w 45 41
def vC (w : W64) : Nat := wbits w 40 36
def vT (w : W64) : Nat := wbits w 35 32
/-- IMM, sign-extended. -/
def vImm (w : W64) : Int := signed 32 (wbits w 31 0)

/-- The fields an opcode uses. -/
structure RveUse where
  d : Bool := false
  a : Bool := false
  b : Bool := false
  c : Bool := false
  t : Bool := false
  i : Bool := false

/-- The word carries an opcode that Table 8.3 lists (R241). -/
def rveListed (w : W64) : Bool := rveTable.contains (opR w)

/-- A field that the opcode does not use is nonzero (R241). -/
def RveUse.reserved (u : RveUse) (w : W64) : Bool :=
  (!u.d && vD w != 0) || (!u.a && vA w != 0) || (!u.b && vB w != 0) || (!u.c && vC w != 0) || (!u.t && vT w != 0)
    || (!u.i && wbits w 31 0 != 0)

/-! ## Registers -/

/-- Scalar register; x0 reads as zero (R238). -/
def Rve.xr (v : Rve) (i : Nat) : W64 := if i = 0 then 0 else v.x.read 0 i
/-- Write a scalar register; a write to x0 is discarded. -/
def Rve.putX (v : Rve) (i : Nat) (y : W64) : Rve := if i = 0 then v else { v with x := v.x.write 0 i y }
def Rve.zr (v : Rve) (i : Nat) : List Nat := zLanes (v.z.read 0 i)
def Rve.putZ (v : Rve) (i : Nat) (l : List Nat) : Rve := { v with z := v.z.write 0 i (ofZLanes l) }

def State.putX (s : State) (r i : Nat) (y : W64) : State := s.updRve r (fun v => v.putX i y)
def State.putZ (s : State) (r i : Nat) (l : List Nat) : State := s.updRve r (fun v => v.putZ i l)

/-! ## Errors (R248, Table 8.6) -/

/-- Capture an error in the control line: MORE is set while one is captured, which a write of zero to word 1 clears (R240). -/
def State.rveErr (s : State) (r code epc info : Nat) : State :=
  let s := s.rtUnclean r
  let e := s.errNote 14 code (unitId 3 r) r info
  let w := (s.rve r).err
  let put (s : State) (v : Nat) : State := (s.updRve r (fun x => { x with err := v })).setCtl r 1 v
  if w ≠ 0 ∧ s.ctl r 1 ≠ 0 then (put s (w ||| 2 ^ 62)).note { e with lost := true }
  else (((put s (2 ^ 63 + code * 2 ^ 48 + epc % 32768)).setCtl r 2 (info % 2 ^ 64)).setCtl r 3 (s.beat % 2 ^ 64)).note e

/-- The RVE parks (PC_RANGE): a unit-fatal error. INFO is the word address (DESIGN CHOICE of log entry 147). -/
def State.rvePark (s : State) (r epc : Nat) : State :=
  (s.rveErr r 0x10 epc epc).setRve r (fun v => { v with st := .parked })

/-- An instruction not performed for the causes `es`, each a code of Table 8.6 and its INFO, in ascending order: the lowest is
captured and the others are further errors (R98, R248). With none it is performed. -/
def State.rveErrs (s : State) (r epc : Nat) (es : List (Nat × Nat)) (act : State → State) : State :=
  if es.isEmpty then act s else es.foldl (fun s e => s.rveErr r e.1 epc e.2) s

/-- Error `code` with its INFO where `c` holds. -/
def rveCause (c : Bool) (code info : Nat) : List (Nat × Nat) := if c then [(code, info)] else []

/-! ## Issue -/

/-- A load that has not come back writes one of these registers. -/
def State.rveBusy (s : State) (r : Nat) (xs : List Nat) : Bool :=
  (s.root r).outs.any (fun o => match o.op with
    | .load d _ _ => xs.contains d && d != 0
    | _ => false)

/-- Root core cycle `j` of root die `r` is swallowed: at the rate k_b of 256 (R393), or as every other one while a droop of the root
die lasts (R395). -/
def State.coreSwallowed (s : State) (r j : Nat) : Bool := swallows s.kBudget j || (!(s.reg.droop.read 0 (4 + r) == 0) && j % 2 == 1)

/-- The first of the two root core cycles of the present tile-clock edge (log entry 135). -/
def State.coreNow (s : State) : Nat := 2 * (s.edge - 6 * s.seqr.clk0)

/-- The root core cycle in which the RVE may issue an instruction that uses scalar registers `xs`: of the two of the present
tile-clock edge, the first that is delivered, that the issue costs before it leave free, and in which READCs have brought those
registers. -/
def State.coreSlot (s : State) (r : Nat) (xs : List Nat) : Option Nat :=
  [s.coreNow, s.coreNow + 1].find? (fun j => decide ((s.rve r).cyc ≤ j) && !s.coreSwallowed r j
    && (s.rve r).late.all (fun e => !xs.contains e.1 || decide (e.2 ≤ j)))

/-- Issue cost in root core cycles (Table 8.4). -/
def rveCost (w : W64) : Nat :=
  match opR w, vT w with
  | 0x20, 3 | 0x22, 0 | 0x22, 1 => 4
  | 0x16, 3 | 0x16, 4 | 0x26, _ => 8
  | _, _ => 1

/-- Issue instruction `w`, at most one in a root core cycle and at the cost of Table 8.4: in RUN, with nothing waited for. `bad`: the T
value is undefined; an opcode that Table 8.3 does not list is illegal too (R241). There is no instruction at a PC past the 32,768 words of the memory (R248, log
entry 144). `act` gets the address of the word and the state with the PC past it. -/
def State.rveIssue (s : State) (r : Nat) (w : W64) (u : RveUse) (bad : Bool) (xs : List Nat)
    (act : State → Nat → State) : State :=
  let v := s.rve r
  if v.st ≠ .run ∨ v.wait.isSome ∨ v.ending ∨ (s.coreSlot r xs).isNone then s
  else if v.pc ≥ 32768 then s.rvePark r v.pc
  else if s.rveBusy r xs then s
  else
    let s1 := s.setRve r (fun x => { x with pc := x.pc + 1, cyc := ((s.coreSlot r xs).getD 0) + rveCost w })
    s1.rveErrs r v.pc (rveCause (bad || !rveListed w) 1 0 ++ rveCause (rveListed w && u.reserved w) 2 0) (fun s => act s v.pc)

/-- Branch to a word address; out of range parks the RVE. -/
def State.rveBranch (s : State) (r epc : Nat) (target : Int) : State :=
  if target < 0 ∨ target ≥ 32768 then (s.rvePark r epc).setRve r (fun v => { v with pc := epc })
  else s.setRve r (fun v => { v with pc := target.toNat })

/-- xA + IMM as a 64-bit address. -/
def Rve.addr (v : Rve) (w : W64) : Nat := wrap 64 ((v.xr (vA w)).toNat + vImm w)

/-- A write of the RVE may not leave before a FENCE's earlier writes are delivered (R247): the instruction waits. -/
def State.rveFenced (s : State) (r : Nat) : Bool := let o := (s.rve r).order; decide (o.done < o.epoch)

/-- A write instruction: as `rveIssue`, waiting for a FENCE. -/
def State.rveWrite (s : State) (r : Nat) (w : W64) (u : RveUse) (bad : Bool) (xs : List Nat)
    (act : State → Nat → State) : State :=
  if s.rveFenced r then s else s.rveIssue r w u bad xs act

/-- The next place in the RVE's issue order. -/
def State.rveSeq (s : State) (r : Nat) : Nat × Nat × State :=
  let o := (s.rve r).order
  (o.epoch, o.seq, s.updRve r (fun v => { v with order := { o with seq := o.seq + 1 } }))

/-! ## Control and scalar instructions -/

def execRveNop (r : Nat) (w : W64) (s : State) : Out := guardUnit (rootOk r) (s.rveIssue r w {} false [] (fun s _ => s))

def execRveBr (r : Nat) (w : W64) (s : State) : Out :=
  guardUnit (rootOk r) (s.rveIssue r w { i := true } false [] (fun s pc => s.rveBranch r pc (pc + vImm w)))

def execRveBcc (r : Nat) (w : W64) (s : State) : Out :=
  guardUnit (rootOk r) (s.rveIssue r w { a := true, b := true, t := true, i := true } (decide (vT w > 5)) [vA w, vB w]
    (fun s pc =>
      let v := s.rve r
      if condHolds (vT w) (v.xr (vA w)) (v.xr (vB w)) then s.rveBranch r pc (pc + vImm w) else s))

/-- END (R239): the RVE waits for its earlier writes. -/
def execRveEnd (r : Nat) (w : W64) (s : State) : Out :=
  guardUnit (rootOk r) (s.rveIssue r w {} false [] (fun s _ => s.setRve r (fun v => { v with ending := true })))

/-- END_WAIT_ENTRY (R239): every earlier write has been delivered. -/
def State.endWaitEntry (s : State) (r : Nat) : State :=
  let v := s.rve r
  if v.st = .run ∧ v.ending ∧ s.pendWrites (.rve r) = [] then
    s.setRve r (fun v => { v with ending := false, st := .endWait })
  else s

def execEndWaitEntry (r : Nat) (s : State) : Out := guardUnit (rootOk r) (s.endWaitEntry r)

def execSkip (r : Nat) (w : W64) (s : State) : Out :=
  guardUnit (rootOk r) (s.rveIssue r w {} false [] (fun s _ => s.setRve r (fun v => { v with skip := true })))

def execXop (r : Nat) (w : W64) (s : State) : Out :=
  guardUnit (rootOk r) (s.rveIssue r w { d := true, a := true, b := true, t := true } (decide (vT w > 10))
    [vD w, vA w, vB w] (fun s _ => let v := s.rve r; s.putX r (vD w) (xopOp (vT w) (v.xr (vA w)) (v.xr (vB w)))))

def execXaddi (r : Nat) (w : W64) (s : State) : Out :=
  guardUnit (rootOk r) (s.rveIssue r w { d := true, a := true, i := true } false [vD w, vA w]
    (fun s _ => s.putX r (vD w) ((s.rve r).xr (vA w) + BitVec.ofInt 64 (vImm w))))

def execXseti (r : Nat) (w : W64) (s : State) : Out :=
  guardUnit (rootOk r) (s.rveIssue r w { d := true, i := true } false [vD w]
    (fun s _ => s.putX r (vD w) (BitVec.ofInt 64 (vImm w))))

def execXseth (r : Nat) (w : W64) (s : State) : Out :=
  guardUnit (rootOk r) (s.rveIssue r w { d := true, i := true } false [vD w]
    (fun s _ => s.putX r (vD w) (BitVec.ofNat 64 (((s.rve r).xr (vD w)).toNat % 2 ^ 32 + wbits w 31 0 * 2 ^ 32))))

/-- Operands XFOP reads by T: SQRT and the conversions take xA only. -/
def execXfop (r : Nat) (w : W64) (s : State) : Out :=
  let unary := vT w == 4 || vT w == 7 || vT w == 8
  guardUnit (rootOk r) (s.rveIssue r w { d := true, a := true, b := !unary, t := true } (decide (vT w > 8))
    [vD w, vA w, vB w] (fun s _ => let v := s.rve r; s.putX r (vD w) (xfopOp (vT w) (v.xr (vA w)) (v.xr (vB w)))))

/-! ## Vector arithmetic and the shadow of a lane group (R249) -/

/-- The physical lane group that serves logical group `g` (R238). -/
def Rve.physGroup (v : Rve) (g : Nat) : Nat := if v.spare1 = g then 33 else if v.spare0 = g then 32 else g

/-- The lanes of a group that computes wrongly: `k` is a free value, and lane 0 at least differs (log entry 7). -/
def wrongLanes (k : Nat) : List Nat → List Nat
  | [] => []
  | x :: xs => (x + 1 + k % (2 ^ 32 - 1)) % 2 ^ 32 :: (xs.zip (upFrom 1 xs.length)).map (fun p => (p.1 + k / 2 ^ (32 * p.2)) % 2 ^ 32)

/-- What a physical group gives where `l` is right. -/
def State.groupLanes (s : State) (r phys : Nat) (l : List Nat) : List Nat × State :=
  if (s.rve r).laneBad.read 0 phys = 0 then (l, s) else let (k, s) := s.draw; (wrongLanes k l, s)

/-- Mark a physical lane group failed in word 4 of the control line. -/
def State.failGroup (s : State) (r g : Nat) : State :=
  let v := s.rve r
  if bit v.laneFailed g then s
  else (s.updRve r (fun v => { v with laneFailed := v.laneFailed + 2 ^ g })).setCtl r 4 (v.laneFailed + 2 ^ g)

/-- Logical group `g` differs from its shadow: MISMATCH, LANE_MISMATCH, and the group that two mismatches convict. -/
def State.mismatch (s : State) (r g epc : Nat) : State :=
  let v := s.rve r
  let s := (s.rveErr r 8 epc 0).setMism r (v.mismBits ||| 2 ^ g)
  let s := s.updRve r (fun v => { v with mism := v.mism ++ [(g, s.beat)] })
  if v.mism.any (fun m => m.1 != g && decide (s.beat - m.2 < 32)) then s.failGroup r 33
  else if v.mism.any (fun m => m.1 == g) then s.failGroup r (v.physGroup g)
  else s

/-- The result of vector arithmetic into zD: each logical group's lanes as its physical group gives them. While no spare
serves in group 33's place, group 33 repeats logical group b mod 32 of beat b and the two are compared. -/
def State.vecOut (s : State) (r d epc : Nat) (l : List Nat) : State :=
  let v := s.rve r
  if v.laneBad = [] then s.putZ r d l
  else
    let part (g : Nat) : List Nat := (l.drop (8 * g)).take 8
    let (z, s) := (upFrom 0 32).foldl (fun (x : List Nat × State) g =>
      let (p, s) := x.2.groupLanes r (v.physGroup g) (part g); (x.1 ++ p, s)) ([], s)
    let g := s.beat % 32
    let (shadow, s) := s.groupLanes r 33 (part g)
    let s := (s.putZ r d z).updRve r (fun v => { v with laneBad := v.laneBad.mapVals 0 (fun _ n => n - 1) })
    if v.spare1 = 0x3F ∧ !bit v.laneFailed 33 ∧ shadow ≠ (z.drop (8 * g)).take 8 then s.mismatch r g epc else s

def execZop (r : Nat) (w : W64) (s : State) : Out :=
  guardUnit (rootOk r) (s.rveIssue r w { d := true, a := true, b := true, t := true } (decide (vT w > 5)) []
    (fun s pc => let v := s.rve r; s.vecOut r (vD w) pc (List.zipWith (zopLane (vT w)) (v.zr (vA w)) (v.zr (vB w)))))

def execZfma (r : Nat) (w : W64) (s : State) : Out :=
  guardUnit (rootOk r) (s.rveIssue r w { d := true, a := true, b := true, c := true } false []
    (fun s pc =>
      let v := s.rve r
      s.vecOut r (vD w) pc (List.zipWith (fun (p : Nat × Nat) c => fmaLane 0 p.1 p.2 c)
        ((v.zr (vA w)).zip (v.zr (vB w))) (v.zr (vC w)))))

def execZun (r : Nat) (w : W64) (s : State) : Out :=
  guardUnit (rootOk r) (s.rveIssue r w { d := true, a := true, t := true } (decide (vT w > 3)) []
    (fun s pc => s.vecOut r (vD w) pc (((s.rve r).zr (vA w)).map (zunLane (vT w)))))

def execZbc (r : Nat) (w : W64) (s : State) : Out :=
  guardUnit (rootOk r) (s.rveIssue r w { d := true, a := true } false [vA w]
    (fun s pc => s.vecOut r (vD w) pc (List.replicate 256 (wbits ((s.rve r).xr (vA w)) 31 0))))

def execZcmp (r : Nat) (w : W64) (s : State) : Out :=
  guardUnit (rootOk r) (s.rveIssue r w { d := true, a := true, b := vT w != 4, t := true } (decide (vT w > 4)) []
    (fun s pc => let v := s.rve r; s.vecOut r (vD w) pc (List.zipWith (zcmpLane (vT w)) (v.zr (vA w)) (v.zr (vB w)))))

def execZsel (r : Nat) (w : W64) (s : State) : Out :=
  guardUnit (rootOk r) (s.rveIssue r w { d := true, a := true, b := true, c := true } false []
    (fun s pc =>
      let v := s.rve r
      s.vecOut r (vD w) pc (List.zipWith (fun (p : Nat × Nat) c => if c != 0 then p.1 else p.2)
        ((v.zr (vA w)).zip (v.zr (vB w))) (v.zr (vC w)))))

def execZred (r : Nat) (w : W64) (s : State) : Out :=
  guardUnit (rootOk r) (s.rveIssue r w { d := true, a := true, t := true } (decide (vT w > 2)) [vD w]
    (fun s _ => s.putX r (vD w) (BitVec.ofNat 64 (zredOp (vT w) ((s.rve r).zr (vA w))))))

/-! ## Memory instructions (R242, R243, R245) -/

/-- A read of DRAM that delivers zero for the bytes of an uncorrectable word (R245). -/
def State.rveDram (s : State) (a n : Nat) : List Byte × Bool × State :=
  let (_, bad, s') := s.dramRead a n
  ((upFrom a n).map (fun x => if s.dramCheck (x / 8 * 8) ≥ 2 then 0 else s.dramByte x), bad, s')

/-- Bytes of the own store, zero where a word is uncorrectable (R245). -/
def State.rveStore (s : State) (r o n : Nat) : List Byte × Bool × State :=
  let (_, bad, s') := s.storeRead r o n
  (((upFrom o n).zip (s.storeBytes r o n)).map (fun p =>
    if s.recCheck r (p.1 / 16) (p.1 % 16 / 8) ≥ 2 then 0 else p.2), bad, s')

/-- Record READ_FAULT. -/
def State.readFault (s : State) (r epc a : Nat) (bad : Bool) : State := if bad then s.rveErr r 7 epc a else s

/-- The lowest-numbered region in OPEN, CHECK or RELEASE with a record in the bytes (R233). -/
def State.storeActive (s : State) (r o n : Nat) : Option Nat :=
  (upFrom 0 128).find? (fun i => s.rgActive r i && s.fld F.RT_RGN_CFG_EN r i == 1
    && decide (s.rgBase r i * 16 < o + n) && decide (o < (s.rgBase r i + s.rgCount r i) * 16))

/-- A write to the store (R233): discarded with WRITE_ACTIVE in an active region; answers whether it was applied. -/
def State.storeWrite (s : State) (r o : Nat) (d : List Byte) (unit dev addr : Nat) : Bool × State :=
  if d.isEmpty then (true, s)
  else match s.storeActive r o d.length with
    | some i => (false, s.accErr r 9 0 0 i unit dev addr)
    | none => (true, s.storePut r o d)

/-- The pieces of 8 bytes from address `a`: address, place in the word and length; a packet crosses no 256-byte boundary
(R172). -/
def wordPieces (a : Nat) : List (Nat × Nat × Nat) :=
  if a % 256 ≤ 248 then [(a, 0, 8)] else let k := 256 - a % 256; [(a, 0, k), (a + k, k, 8 - k)]

/-- Bytes `sh` on of scalar register `i` become `d`. -/
def State.mergeX (s : State) (r i sh : Nat) (d : List Byte) : State :=
  let v := ((s.rve r).xr i).toNat
  let hi := 8 * (sh + d.length)
  s.putX r i (BitVec.ofNat 64 (v % 2 ^ (8 * sh) + ofBytes d * 2 ^ (8 * sh) + v / 2 ^ hi * 2 ^ hi))

/-- XLD and XST reach the address: DRAM, the store, a scratchpad or registers (R23, R245). -/
def State.rveReach (s : State) (a n : Nat) : Bool :=
  match s.place a with
  | .dram _ | .store _ _ | .tile _ _ => true
  | .live _ => s.liveRangeOk a n
  | _ => false

/-- One piece of an XLD: the own store and stack directly, everything else by a READ_REQ (R245). -/
def State.xldPart (s : State) (r epc d : Nat) (x : Nat × Nat × Nat) : State :=
  let (a, sh, n) := x
  let far (s : State) : State := s.rootSend r (.load d sh epc) (fun tag => mkPacket
    { dest := sysAddr s.self a, unit := unitId 3 r, dev := s.self, kind := 3, len := n, tag := tag })
  match s.place a with
  | .dram a =>
    if s.stackOf a = r then
      let (b, bad, s) := s.rveDram a n
      (s.mergeX r d sh b).readFault r epc a bad
    else far s
  | .store r' o =>
    if r' = r then
      let (b, bad, s) := s.rveStore r o n
      (s.mergeX r d sh b).readFault r epc a bad
    else far s
  | _ => far s

/-- XLD (R245). -/
def State.xld (s : State) (r epc d a : Nat) : State :=
  let ps := wordPieces a
  if ps.all (fun x => s.rveReach x.1 x.2.2) then ps.foldl (fun s x => s.xldPart r epc d x) s else s.rveErr r 4 epc a

/-- The lines of the own stack among `n` bytes from address `a`. -/
def State.ownLines (s : State) (r a n : Nat) : List Nat :=
  if a + n ≤ dramEnd then (dramLines a n).filter (fun l => s.stackOf l == r) else []
/-- An access to the own stack among `n` bytes from address `a` waits (R204, R208): so does the instruction. -/
def State.rveHeld (s : State) (r a n : Nat) : Bool := (s.ownLines r a n).any (fun l => s.lineHeld l 1)
/-- The instruction waits for its access to the stack, whose retries begin (R202), or is performed. -/
def State.rveStack (s : State) (r a n : Nat) (act : State → State) : State :=
  if s.rveHeld r a n then (s.ownLines r a n).foldl (fun s l => s.startRetry l) s else act s

def execXld (r : Nat) (w : W64) (s : State) : Out :=
  guardUnit (rootOk r) (s.rveStack r ((s.rve r).addr w) 8 fun s => s.rveIssue r w { d := true, a := true, i := true } false [vD w, vA w]
      (fun s pc => s.xld r pc (vD w) ((s.rve r).addr w)))

/-- One piece of an XST: the own store and stack directly, everything else as a WRITE packet (R245). -/
def State.xstPart (s : State) (r ep sq epc dev : Nat) (d : List Byte) (x : Nat × Nat × Nat) : State :=
  let (a, sh, n) := x
  let d := (d.drop sh).take n
  let far (s : State) : State := s.rootSend r (.write ep sq epc) (fun tag => mkPacket
    { dest := sysAddr dev a, unit := unitId 3 r, dev := s.self, kind := 1, len := n, tag := tag, payload := d })
  if dev ≠ s.self then far s
  else
    match s.place a with
    | .dram b => if s.stackOf b = r then (s.dramWrite b d).2 else far s
    | .store r' o => if r' = r then (s.storeWrite r o d (unitId 3 r) s.self (sysAddr dev a)).2 else far s
    | _ => far s

/-- XST (R245) to a system address. -/
def State.xst (s : State) (r epc a : Nat) (d : List Byte) : State :=
  let (ep, sq, s) := s.rveSeq r
  let dev := bits a 62 48
  let ps := wordPieces (a % 2 ^ 48)
  if bit a 63 || (dev == s.self && !ps.all (fun x => s.rveReach x.1 x.2.2)) then s.rveErr r 4 epc a
  else ps.foldl (fun s x => s.xstPart r ep sq epc dev d x) s

def execXst (r : Nat) (w : W64) (s : State) : Out :=
  guardUnit (rootOk r) (s.rveStack r ((s.rve r).addr w % 2 ^ 48) (if bits ((s.rve r).addr w) 62 48 = s.self then 8 else 0) fun s =>
    s.rveWrite r w { a := true, b := true, i := true } false [vA w, vB w]
      (fun s pc => let v := s.rve r; s.xst r pc (v.addr w) (toBytes (v.xr (vB w)).toNat 8)))

/-- The base that T selects (R242): MB0, MB1, GB0 or GB1, bits [37:0] of words 8 to 11 (Table 8.1). -/
def State.zBase (s : State) (r t : Nat) : Nat :=
  let cur := (s.rve r).cur
  let base (k : Nat) : Nat := s.ctl r k % 2 ^ 38
  match t with
  | 0 => 0
  | 1 => base (8 + cur)
  | 2 => base (8 + (1 - cur))
  | 3 => base (10 + cur)
  | _ => base (10 + (1 - cur))

/-- base(T) + xA + IMM. -/
def State.zAddr (s : State) (r : Nat) (w : W64) : Nat :=
  wrap 64 ((s.zBase r (vT w % 8) : Int) + ((s.rve r).xr (vA w)).toNat + vImm w)

/-- Every byte maps to the own stack (R242). -/
def State.ownStack (s : State) (r a n : Nat) : Bool :=
  decide (a + n ≤ dramEnd) && (upFrom (a / 256) ((a + n - 1) / 256 - a / 256 + 1)).all (fun l => s.stackOf (256 * l) == r)

/-- Why a ZLD or ZST of `n` bytes at address `a` is not performed: MISALIGNED, ADDRESS_FAULT. -/
def State.zFault (s : State) (r c a n : Nat) : List (Nat × Nat) :=
  rveCause (decide (a % (if c = 8 then 8 else 64) ≠ 0)) 3 a ++ rveCause (!s.ownStack r a n) 4 a

def execZld (r : Nat) (w : W64) (s : State) : Out :=
  guardUnit (rootOk r) (s.rveStack r (s.zAddr r w) (zldBytes (vC w)) fun s => s.rveIssue r w { d := true, a := true, c := true, t := true, i := true } false [vA w]
    (fun s pc =>
      let c := vC w
      if vT w % 8 > 4 ∨ vT w ≥ 8 ∨ !zTypeOk c then s.rveErr r 2 pc 0
      else
        let a := s.zAddr r w
        s.rveErrs r pc (s.zFault r c a (zldBytes c)) (fun s =>
          let (d, bad, s) := s.rveDram a (zldBytes c)
          (s.putZ r (vD w) (zldLanes c d)).readFault r pc a bad)))

def execZst (r : Nat) (w : W64) (s : State) : Out :=
  guardUnit (rootOk r) (s.rveStack r (s.zAddr r w) (zldBytes (vC w) * min 256 ((s.rve r).xr (vB w)).toNat / 256) fun s => s.rveWrite r w { d := true, a := true, b := true, c := true, t := true, i := true } false
    [vA w, vB w] (fun s pc =>
      let c := vC w
      let n := ((s.rve r).xr (vB w)).toNat
      let count := rveCause (decide (n > 256 ∨ (c = 8 ∧ n % 32 ≠ 0))) 6 n
      if vT w % 8 > 4 ∨ !zTypeOk c then s.rveErrs r pc ((2, 0) :: count) id
      else if n = 0 then (s.rveSeq r).2.2
      else
        let a := s.zAddr r w
        let d := zstBytes c (vT w ≥ 8) (((s.rve r).zr (vD w)).take n)
        s.rveErrs r pc (s.zFault r c a d.length ++ count) (fun s => ((s.rveSeq r).2.2.dramWrite a d).2)))

/-- ZLDR (R243). INFO of its errors is the index of the first record, xA + IMM (DESIGN CHOICE of log entry 147: Table 8.1 says
address, CREF or lane count, by code). -/
def execZldr (r : Nat) (w : W64) (s : State) : Out :=
  guardUnit (rootOk r) (s.rveIssue r w { d := true, a := true, b := true, i := true } false [vA w, vB w]
    (fun s pc =>
      let v := s.rve r
      let x := v.addr w
      s.rveErrs r pc (rveCause (decide (x % 16 ≠ 0)) 3 x ++ rveCause (decide (x + 256 > storeRecords)) 4 x) (fun s =>
        let (d, bad, s) := s.rveStore r (16 * x) 4096
        let e := (v.xr (vB w)).toInt
        (s.putZ r (vD w) ((elemsOf 16 d).map (fun n =>
          releaseCode fp32 (recValue (BitVec.ofNat 128 n)) (recFlags (BitVec.ofNat 128 n)) e))).readFault r pc x bad)))

/-- WIDE packets of at most 16 records that cross no 256-byte boundary of the destination (R243). -/
def State.rsendFrom (s : State) (r ep sq epc : Nat) (w : Int) (a : Nat) : Nat → List (List Byte) → State
  | 0, _ => s
  | fuel + 1, recs =>
    if recs.isEmpty then s
    else
      let k := (256 - a % 256) / 16
      let s := s.rootSend r (.write ep sq epc) (fun tag =>
        accumPkt a (unitId 3 r) s.self 2 w tag (recs.take k).flatten)
      State.rsendFrom s r ep sq epc w (a + 16 * (min k recs.length)) fuel (recs.drop k)

/-- RSEND (R243). -/
def execRsend (r : Nat) (w : W64) (s : State) : Out :=
  guardUnit (rootOk r) (s.rveWrite r w { d := true, a := true, b := true, c := true, i := true } false
    [vA w, vB w, vC w] (fun s pc =>
      let v := s.rve r
      let n := (v.xr (vB w)).toNat
      let a := v.addr w
      let e := (v.xr (vC w)).toInt
      let (ep, sq, s) := s.rveSeq r
      if n = 0 then s
      else
        let recs := ((v.zr (vD w)).take n).map (fun c =>
          let (z, fl) := alignNum (fp32.decode c) e
          toBytes (mkRecord z fl).toNat 16)
        s.rveErrs r pc (rveCause (decide (a % 16 ≠ 0)) 3 a ++ rveCause (bit a 63 || !inStore a) 4 a ++ rveCause (decide (n > 256)) 6 n)
          (fun s => s.rsendFrom r ep sq pc e a (n + 1) recs)))

/-! ## Counters (Table 8.3) -/

/-- CREF xA. -/
def Rve.cref (v : Rve) (w : W64) : Nat := wbits (v.xr (vA w)) 31 0

def execRveSig (r : Nat) (w : W64) (s : State) : Out :=
  guardUnit (rootOk r) (s.rveIssue r w { a := true, b := true, c := bit (vT w) 1, t := true } (decide (vT w > 3))
    [vA w, vB w, vC w] (fun s pc =>
      let v := s.rve r
      match crefKey none (v.cref w) with
      | none => s.rveErr r 5 pc (v.cref w)
      | some k => s.issueSig (.rve r) (bit (vT w) 0) k (wbits (v.xr (vB w)) 31 0)
          (if bit (vT w) 1 then wbits (v.xr (vC w)) 14 0 else s.self)))

/-- Counter `k` is a region counter of root die `r`. -/
def ownRegion (r k : Nat) : Bool := decide (0x30000 ≤ k) && (k - 0x30000) / 128 == r

/-- A compare or read of an own region counter takes 4 root core cycles from its issue (Table 2.8): the next instruction issues
after it. -/
def State.compared (s : State) (r k : Nat) : State :=
  if ownRegion r k then s.updRve r (fun v => { v with cyc := v.cyc + 3 }) else s

/-- READC brings S and C of an own region counter 4 root core cycles after its issue (Table 2.8). -/
def State.readLate (s : State) (r k d : Nat) : State :=
  if ownRegion r k then
    s.updRve r (fun v =>
      let old := v.late.filter (fun e => e.1 != d && e.1 != d + 1)
      { v with late := old ++ [(d, v.cyc + 3), (d + 1, v.cyc + 3)] })
  else s

/-- The RVE waits on counter `k`. -/
def State.rveAwait (s : State) (r k : Nat) (consume : Bool) (amt : Nat) : State :=
  { s.updRve r (fun v => { v with wait := some (k, consume, amt) }) with
    waiters := insertWaiter ⟨unitId 3 r, k, consume, amt⟩ s.waiters }

/-- WAIT and WAITC (R69): a WAIT that is met completes; else, and for every WAITC of an amount above 0, the RVE waits on the
counter, and the WAITC operations of a cycle are granted in order when it ends. -/
def State.rveWaitOp (s : State) (r : Nat) (w : W64) (consume : Bool) : State :=
  s.rveIssue r w { a := true, b := true } false [vA w, vB w] (fun s pc =>
    let v := s.rve r
    match crefKey none (v.cref w) with
    | none => s.rveErr r 5 pc (v.cref w)
    | some k =>
      let amt := if consume then wbits (v.xr (vB w)) 31 0 else wbits (v.xr (vB w)) 47 0
      if consume then (if amt = 0 then s else s.rveAwait r k true amt)
      else if amt ≤ (s.ctr k).s then s.compared r k else s.rveAwait r k false amt)

def execRveWait (r : Nat) (w : W64) (s : State) : Out := guardUnit (rootOk r) (s.rveWaitOp r w false)
def execRveWaitc (r : Nat) (w : W64) (s : State) : Out := guardUnit (rootOk r) (s.rveWaitOp r w true)

def execRveCons (r : Nat) (w : W64) (s : State) : Out :=
  guardUnit (rootOk r) (s.rveIssue r w { a := true, b := true } false [vA w, vB w] (fun s pc =>
    let v := s.rve r
    match crefKey none (v.cref w) with
    | none => s.rveErr r 5 pc (v.cref w)
    | some k => s.queueCons k (wbits (v.xr (vB w)) 31 0) (unitId 3 r)))

/-- READC: D is even, from 2 to 30; any other D is recorded as RESERVED_FIELD (DESIGN CHOICE of log entry 146). -/
def execReadc (r : Nat) (w : W64) (s : State) : Out :=
  guardUnit (rootOk r) (s.rveIssue r w { d := true, a := true } false [vD w, vD w + 1, vA w] (fun s pc =>
    let v := s.rve r
    if vD w % 2 = 1 ∨ vD w < 2 then s.rveErr r 2 pc 0
    else
      match crefKey none (v.cref w) with
      | none => s.rveErr r 5 pc (v.cref w)
      | some k =>
        (((s.putX r (vD w) (BitVec.ofNat 64 (s.ctr k).s)).putX r (vD w + 1) (BitVec.ofNat 64 (s.ctr k).c))).readLate r k (vD w)))

/-- OPEN with the record at own store address xA + IMM. -/
def execOpenRegion (r : Nat) (w : W64) (s : State) : Out :=
  guardUnit (rootOk r) (s.rveIssue r w { a := true, i := true } false [vA w] (fun s pc =>
    let a := (s.rve r).addr w
    match s.place a with
    | .store r' o =>
      if r' = r ∧ o + 32 ≤ 0x4000000 then
        let (d, bad, s) := s.rveStore r o 32
        let x (i : Nat) : Nat := ofBytes ((d.drop (8 * i)).take 8)
        (s.readFault r pc a bad).openRegion r (unitId 3 r) (x 0) (x 1) (x 2) (x 3)
      else s.rveErr r 4 pc a
    | _ => s.rveErr r 4 pc a))

/-- FENCE (R247). -/
def execRveFence (r : Nat) (w : W64) (s : State) : Out :=
  guardUnit (rootOk r) (s.rveIssue r w {} false [] (fun s _ => s.fence (.rve r)))

/-! ## Release of waiters (R69) -/

/-- A waiter's condition holds. -/
def State.waiterHolds (s : State) (v : Waiter) : Bool × State :=
  if v.unit < 4096 then s.waitHolds v.unit v.key v.amt v.consume
  else (if v.consume then decide (v.amt ≤ s.value v.key) else decide (v.amt ≤ (s.ctr v.key).s), s)

/-- Complete a waiter. -/
def State.completeWaiter (s : State) (v : Waiter) : State :=
  if v.unit < 4096 then s.releaseTile v
  else
    let s := if v.consume then s.applyCons v.key v.amt v.unit s.self else s
    let r := v.unit % 4096
    { s.updRve r (fun x => { x with
        wait := none, cyc := if ownRegion r v.key then max x.cyc (s.coreNow + 4) else x.cyc }) with
      waiters := dropFirst (fun x => decide (x = v)) s.waiters }

/-- The first waiter of a list, in ascending unit identifier, whose condition holds. -/
def State.firstHeld (s : State) : List Waiter → Option Waiter × State
  | [] => (none, s)
  | v :: vs =>
    match s.waiterHolds v with
    | (true, s) => (some v, s)
    | (false, s) => State.firstHeld s vs

/-- WAIT_RELEASE (R69): a pending WAIT on the counter whose condition holds is released. -/
def State.waitRelease (s : State) (cref : W32) : State :=
  match crefKey none cref.toNat with
  | none => s
  | some k =>
    match s.firstHeld (s.waiters.filter (fun v => v.key == k && !v.consume)) with
    | (some v, s) => s.completeWaiter v
    | (none, s) => s

def execWaitRelease (cref : W32) (s : State) : Out := .next (s.waitRelease cref)

/-- WAITC_GRANT (R69): after the signals and the CONS operations of the cycle, the first pending WAITC on the counter with S − C ≥ n is
granted. -/
def State.waitcGrant (s : State) (cref : W32) : State :=
  match crefKey none cref.toNat with
  | none => s
  | some k =>
    let s := s.settleSigs.applyConsOps
    match s.firstHeld (s.waiters.filter (fun v => v.key == k && v.consume)) with
    | (some v, s) => s.completeWaiter v
    | (none, s) => s

def execWaitcGrant (cref : W32) (s : State) : Out := .next (s.waitcGrant cref)

/-- A waiter's turn: it completes if its condition holds. -/
def State.waiterTurn (s : State) (v : Waiter) : State :=
  match s.waiterHolds v with
  | (true, s) => s.completeWaiter v
  | (false, s) => s

/-- The end of a cycle at the counters, in the order of R69: the signals, applied as they came but where one overflowed, the CONS
operations, the WAITC grants, each considered once, and the WAIT releases. -/
def State.settleCounters (s : State) : State :=
  let s := s.settleSigs.applyConsOps
  let turns (s : State) (consume : Bool) : State := (s.waiters.filter (fun v => v.consume == consume)).foldl State.waiterTurn s
  turns (turns s true) false

end Sys2Proof.Machine
end

