-- ==== Sys2Proof/Machine/IcpOps.lean ====
section
/-! DEFINITION. What each ICP opcode does and answers (Tables 12.3, 13.8), once the command has passed the tests of R356. -/

namespace Sys2Proof.Machine

/-! ## Information -/

/-- The 1588 time now: it has run on since the last message by a time that the spec leaves open (R351; log entry 7). -/
def State.ptpNow (s : State) : State :=
  let (g, s) := s.draw
  let n := s.crown.secs * 1000000000 + s.crown.nanos + g
  s.updCrown (fun c => { c with secs := n / 1000000000 % 2 ^ 48, nanos := n % 1000000000 })

/-- GET_INFO. -/
def State.getInfo (s : State) : Answer :=
  let b := s.flash.slot s.crown.slot
  okData (toBytes (b2n Config.steppingB0) 1 ++ vecBytes Config.romVersion 4 ++ slotBytes b 12 8 ++ toBytes s.self 2
    ++ toBytes (s.fld F.LK_TOPO_PHYS 0 0) 2 ++ vecBytes (Config.mac 0) 6 ++ vecBytes (Config.mac 1) 6
    ++ toBytes s.crown.floor 8 ++ toBytes (b2n s.owned + 2 * b2n s.ownerLocked) 1 ++ vecBytes Config.enterprise 4)

/-- GET_CAPABILITY (Table 11.7). -/
def State.getCapability (s : State) : Answer := okData s.crown.repair.cap.bytes

/-- GET_STATE. -/
def State.getState (s : State) : Answer :=
  okData (toBytes s.run.code 1 ++ toBytes s.beat 8 ++ toBytes (s.regWord F.ES_STEP_NUM_STEP 0 0) 8
    ++ toBytes (s.regWord F.ES_STEP_STATUS_ATTEMPT 0 0) 8 ++ toBytes (s.regWord F.ES_JOB_STATUS_CODE 0 0) 8
    ++ toBytes (s.regWord F.ES_CFG_STATUS_CODE 0 0) 4 ++ toBytes s.crown.long 2)

/-- GET_TIME. -/
def State.getTime (s : State) : Answer × State :=
  let s := s.ptpNow
  (okData (toBytes (s.fld F.RS_RTC_SECONDS 0 0) 8 ++ toBytes s.crown.secs 6 ++ toBytes s.crown.nanos 4
    ++ toBytes (b2n s.crown.locked) 1 ++ toBytes s.beat 8), s)

/-! ## Memory (R359) -/

/-- The first failing check of a range that is not empty. -/
def State.rangeFail (s : State) (a n : Nat) : Option Answer :=
  let cfg (ok : Bool) : Option Answer :=
    if a % 8 ≠ 0 ∨ n % 8 ≠ 0 then some (ans 1 0) else if ok then none else some (ans 9 0)
  if 1024 < n ∨ 4096 < a % 4096 + n then some (ans 1 0)
  else
    match s.place a with
    | .live _ => cfg (s.liveRangeOk a n)
    | .staging _ => cfg (s.liveRangeOk (a - stagingOff) n)
    | _ => if s.memRangeOk a n then none else some (ans 9 0)

/-- Bytes of a range; a word with an uncorrectable error reads as its place gives. -/
def State.rangeRead (s : State) (a n : Nat) : List Byte × State :=
  match s.place a with
  | .dram a => let (d, _, s) := s.dramRead a n; (d, s)
  | .store r o => let (d, _, s) := s.storeRead r o n; (d, s)
  | .tile t o => s.spRead t 5 o n
  | _ => ((upFrom 0 (n / 8)).flatMap (fun k => toBytes ((s.readWord (a + 8 * k)).getD 0) 8), s)

/-- MEM_READ. -/
def State.memReadOp (s : State) (a n : Nat) : Answer × State :=
  if n = 0 then (ans 0 0, s)
  else
    match s.rangeFail a n with
    | some x => (x, s)
    | none => let (d, s) := s.rangeRead a n; (okData d, s)

/-- A register word with a run-locked field during a run (R32). -/
def State.lockedWord (s : State) (x : RegAt) : Bool := x.info.locked && s.inRun && x.fields.any (fun f => f.acc == Access.rws)

/-- Write the words of a configuration range in ascending order until one is refused; `k`: words written. -/
def State.cfgWrite (s : State) (staging : Bool) (a k : Nat) : List (List Byte) → Answer × State
  | [] => (ans 0 0, s)
  | w :: l =>
    match s.regAt a with
    | none => (ans 9 0, s)
    | some x =>
      if s.lockedWord x then (ans 0xA k, s.setFld F.ES_CFG_STATUS_LOCKED_WRITE 0 0 1)
      else
        let v := ofBytes w
        State.cfgWrite (if staging then s.stageWord x v else s.writeAt x v) staging (a + 8) (k + 1) l

/-- Write a range of memory; not in a run. A write of the store that R233 discards answers ADDRESS (log entry 71). -/
def State.rangeWrite (s : State) (a : Nat) (d : List Byte) : Answer × State :=
  let words := chunks 8 (d.length / 8) d
  match s.place a with
  | .live _ => s.cfgWrite false a 0 words
  | .staging _ => s.cfgWrite true (a - stagingOff) 0 words
  | p =>
    if s.inRun then (s.wrongState, s)
    else
      match p with
      | .dram a => (ans 0 0, (s.dramWrite a d).2)
      | .store r o => (let (ok, s) := s.storeWrite r o d (unitId 7 0) s.self a
          (if ok then ans 0 0 else ans 9 0, s))
      | .tile t o => (ans 0 0, s.spWrite t 5 o d)
      | _ => (ans 9 0, s)

/-- MEM_WRITE. -/
def State.memWriteOp (s : State) (a : Nat) (d : List Byte) : Answer × State :=
  if d.isEmpty then (ans 0 0, s)
  else
    match s.rangeFail a d.length with
    | some x => (x, s)
    | none => s.rangeWrite a d

/-! ## Chimes and queue pairs -/

/-- CHIME_SET (R365). -/
def State.chimeSetOp (s : State) (flags : W32) (dst : BitVec 128) (udp : W16) (p : Byte) (n : W32) (b : W64) : Answer × State :=
  if flags.toNat / 2 ≠ 0 ∨ 1 < p.toNat then (ans 1 0, s)
  else if n.toNat < 64 then (ans 0xE 1, s)
  else
    (ans 0 0, s.updCrown (fun c => { c with chime :=
      { on := flags.getLsbD 0, dst := dst, udp := udp, port := p.toNat, n := n.toNat, base := b.toNat, seq := 0, missed := 0
        due := none, errs := [0, 0, 0, 0], sum := 0, count := 0 } }))

/-- QP_CONNECT. -/
def State.qpConnectOp (s : State) (q p : Nat) (rqpn : W32) (raddr : BitVec 128) (x y : W32) : Answer × State :=
  if 63 < q ∨ 1 < p then (ans 1 0, s)
  else if (s.qp q).conn then (ans 0xE 1, s)
  else if !(s.port p).up || s.fld F.EN_PORT_STATUS_LINK_UP p 0 == 0 then (ans 0xE 2, s)
  else
    (ans 0 0, s.setQp q { Qp.fresh with conn := true, port := p, rqpn := rqpn, raddr := raddr
                                        sendPsn := x.toNat % 2 ^ 24, expPsn := y.toNat % 2 ^ 24 })

/-- QP_RESET. -/
def State.qpResetOp (s : State) (q : Nat) : Answer × State :=
  if 63 < q then (ans 1 0, s)
  else if s.inRun && s.fld F.RT_CKPT_HOST_QP 0 0 == q then (s.wrongState, s)
  else (ans 0 0, s.qpReset q)

/-! ## Logs, health and debug views -/

/-- LOG_READ: records from the first held one at or after `first`. -/
def State.logReadOp (s : State) (which first n : Nat) : Answer :=
  if 1 < which ∨ n = 0 ∨ 32 < n then ans 1 0
  else
    let l := if which = 0 then s.crown.log else s.flash.log
    okData (((l.filter (fun r => decide (first ≤ r.seq))).take n).flatMap LogRec.bytes)

/-- The health bits and live maps of R318. -/
def State.healthNums (s : State) : List Nat :=
  (upFrom 0 8).flatMap (fun r => [s.fld F.RT_PC_HEALTH_FAILED r 0, s.fld F.RT_PIPE_HEALTH_FAILED r 0, s.ctl r 4, s.ctl r 6])
    ++ (upFrom 0 24).flatMap (fun n => [s.fld F.LK_LANE_HEALTH_FAILED n 0, s.linkState n])
    ++ (s.regs.filter (fun e => match keyField e.1 with
      | some f => mapRegs.contains f.info.name
      | none => false)).flatMap (fun e => [e.1, e.2])

/-- HEALTH (log entry 61). -/
def State.healthOp (s : State) : Answer :=
  okData (s.crown.counts.flatMap (fun n => toBytes n 4) ++ (Config.recordBytes 8 s.healthNums).take 1136)

/-- COUNTER_VIEW (R75). -/
def State.counterViewOp (s : State) (cref : Nat) : Answer :=
  match crefKey none cref with
  | none => ans 1 0
  | some k =>
    if k < 0x20000 ∧ (s.physOf (k / 64)).isNone then ans 9 0
    else okData ((upFrom 0 8).flatMap (fun w => toBytes (s.ctrWord k w) 8))

/-- Block of PHYS_READ. -/
def physBlock (b : Nat) : Block :=
  match b with
  | 0 => .tl | 1 => .sp | 2 => .mx | 3 => .xt | _ => .syt

/-- A register word of a tile outside the logical map, which is held in reset (R102): reset values, and in TL_ID the
position. DEDUCED: the spec does not say that what a fenced tile recorded before is kept (log entry 113). -/
def State.fencedWord (s : State) (x : RegAt) (pos : Nat) : Nat :=
  if x.info.name = .TL_ID then
    s.self * 2 ^ 48 + b2n Config.steppingB0 * 2 ^ 36 + s.fld F.ES_JOB_INFO_PROFILE 0 0 * 2 ^ 32 + pos * 2 ^ 16
  else x.fields.foldl (fun a f => a + f.reset * 2 ^ f.lo) 0

/-- PHYS_READ: a register of the physical tile at a position; the row map belongs to the physical tile (R312). -/
def State.physReadOp (s : State) (die row pos b off : Nat) : Answer × State :=
  if 3 < die ∨ 23 < row ∨ 16 < pos ∨ 4 < b ∨ off % 8 ≠ 0 then (ans 1 0, s)
  else
    let t0 := die * 384 + row * 16
    let addr (t : Nat) : Nat := (physBlock b).base + t * (physBlock b).stride + off
    match if off < 0x2000 then Machine.regAt (addr t0) else none with
    | none => (ans 9 0, s)
    | some x =>
      match (upFrom 0 16).find? (fun c => s.physOf (t0 + c) == some pos) with
      | some c => (okData (toBytes ((s.readWord (addr (t0 + c))).getD 0) 8), s)
      | none =>
        if x.fields.any (fun f => f.block == Block.spr) then
          (okData (toBytes (x.fields.foldl (fun a f => a + s.fld f (physIndex die row pos) x.idx * 2 ^ f.lo) 0) 8), s)
        else (okData (toBytes (s.fencedWord x pos) 8), s)

/-! ## Settings (R398, Table 13.8) -/

def State.updSettings (s : State) (f : Settings → Settings) : State :=
  (s.updCrown (fun c => { c with settings := f c.settings })).writeRecords

/-- NET_SET: into the signed settings; in force after the reply (`State.afterReply`). -/
def State.netSetOp (s : State) (p : Nat) (v4 : W32) (v6 : BitVec 128) (vlan : W16) : Answer × State :=
  if s.inRun then (s.wrongState, s)
  else if 1 < p then (ans 1 0, s)
  else
    (ans 0 0, s.updSettings (fun x => { x with
      ipv4 := x.ipv4.write 0 p v4, ipv6 := x.ipv6.put p v6, vlan := x.vlan.write 0 p vlan }))

/-- POWER_GET. -/
def State.powerGet (s : State) : Answer :=
  okData (toBytes (s.regWord F.PW_POWER_MEAN_10US 0 0) 8 ++ toBytes (s.regWord F.PW_STATUS_K 0 0) 8
    ++ toBytes (s.fld F.PW_BUDGET_BUDGET 0 0) 4 ++ toBytes (s.fld F.PW_CEIL_TILE_CEIL 0 0) 2
    ++ toBytes (s.fld F.PW_CEIL_TEMP_CEIL 0 0) 2 ++ toBytes (s.fld F.PW_FLOOR_FLOOR 0 0) 2
    ++ toBytes (s.regWord F.PW_TEMP_MAX 0 0) 8 ++ toBytes (s.regWord F.RS_US_STATUS_TRIP 0 0) 8)

/-- Stage fields, request a target-0 commit, and answer as it went. -/
def State.powerCommit (s : State) (l : List (RegField × Nat)) : Answer × State :=
  let (code, s) := (l.foldl (fun s p => s.stageFld p.1 0 0 p.2) s).commitNow
  (if code = 1 ∨ code = 2 then ans 0 0 else ans 0xC code, s)

/-- BUDGET_SET. -/
def State.budgetSetOp (s : State) (b : Nat) : Answer × State :=
  if b < 90000 ∨ 180000 < b then (ans 0xE 1, s)
  else if s.inRun && (s.job.map (fun j => decide (b < j.alloc))).getD false then (ans 0xE 2, s)
  else (s.updSettings (fun x => { x with budget := b })).powerCommit [(F.PW_BUDGET_BUDGET, b)]

/-- CEILING_SET. -/
def State.ceilingSetOp (s : State) (t h : Nat) : Answer × State :=
  if t < s.fld F.PW_FLOOR_FLOOR 0 0 ∨ 256 < t then (ans 0xE 1, s)
  else if h < 640 ∨ 1520 < h then (ans 0xE 2, s)
  else (s.updSettings (fun x => { x with tileCeil := t, tempCeil := h })).powerCommit
    [(F.PW_CEIL_TILE_CEIL, t), (F.PW_CEIL_TEMP_CEIL, h)]

/-- FLOOR_SET. -/
def State.floorSetOp (s : State) (f : Nat) : Answer × State :=
  if s.inRun then (s.wrongState, s)
  else if f < 1 ∨ 256 < f then (ans 0xE 1, s)
  else if s.fld F.PW_CEIL_TILE_CEIL 0 0 < f then (ans 0xE 2, s)
  else (s.updSettings (fun x => { x with floor := f })).powerCommit [(F.PW_FLOOR_FLOOR, f)]

/-! ## BLOCK_RESET (R382, R383) -/

/-- Instances of a block. -/
def blockCount (b : Nat) : Nat :=
  match b with
  | 0 => 96 | 1 => 8 | 2 => 24 | 3 => 2 | _ => 0

/-- The block is quiescent. -/
def State.blockQuiet (s : State) (b i : Nat) : Bool :=
  match b with
  | 0 => s.rowQuiet (i / 24) (i % 24)
  | 1 => s.rveQuiet i
  | 2 => s.linkQuiet i
  | _ => s.portQuiet i

/-- A tile-row or RVE reset with a job held discards it (R383). -/
def State.dropJob (s : State) : State := if s.run = .loaded ∨ s.run = .stopped then s.noJob else s

/-- The reset of a block. -/
def State.resetBlock (s : State) (b i : Nat) : State :=
  match b with
  | 0 => (s.resetRow (i / 24) (i % 24)).dropJob
  | 1 => (s.resetRve i).dropJob
  | 2 => s.resetLink i
  | _ => s.resetPort i

/-- When the reset of a block that is accepted now is complete (Table 13.6): a tile row 1,100 tc, an RVE 2,048 root core cycles, a
port 1 ms later; a link, which is OFF at once, has nothing to wait for. -/
def State.blockDue (s : State) (b : Nat) : Option Nat :=
  match b with
  | 0 => some (s.esc.tc + 1100)
  | 1 => some (s.coreNow + 2048)
  | 2 => none
  | _ => some (s.rc + 100000)

/-- The reset of block `b` that is complete at `due` is complete. -/
def State.blockDone (s : State) (b due : Nat) : Bool :=
  match b with
  | 0 => decide (due ≤ s.esc.tc)
  | 1 => decide (due ≤ s.coreNow)
  | _ => decide (due ≤ s.rc)

/-- BLOCK_RESET of a command that came over `via`; its answer waits until the reset is complete. -/
def State.blockResetOp (s : State) (via b i : Nat) : Option Answer × State :=
  if s.inRun then (some s.wrongState, s)
  else if blockCount b ≤ i then (some (ans 1 0), s)
  else if b = 3 ∧ via = i then (some (ans 0xE 1), s)
  else if !s.blockQuiet b i then (some (ans 0xD 0), s)
  else
    match s.blockDue b with
    | none => (some (ans 0 0), s.resetBlock b i)
    | some due => (none, (s.resetBlock b i).updCrown (fun c => { c with blockBusy := some (b, due) }))

/-! ## Every opcode -/

/-- An answer that is there. -/
def done (x : Answer × State) : Option Answer × State := (some x.1, x.2)

/-- What a command does and answers; no answer yet for a RESTORE or a block reset that goes on (R358, R382). `params`: its parameters as they
arrived, which are what SPDM signs. -/
def State.perform (s : State) (params : List Byte) (i : Instr) : Option Answer × State :=
  match i with
  | .getInfo _ => (some s.getInfo, s)
  | .getCapability _ => (some s.getCapability, s)
  | .getState _ => (some s.getState, s)
  | .getTime _ => done s.getTime
  | .load _ a n f => if f.toNat / 2 ≠ 0 then (some (ans 1 0), s) else done (s.loadJob a n (f.getLsbD 0))
  | .arm _ b => done (s.armJob b.toNat)
  | .stop _ b => done (s.stopJob b.toNat)
  | .abort _ => done s.abortJob
  | .unload _ => done s.unloadJob
  | .deviceReset _ => (some (ans 0 0), s.updCrown (fun c => { c with resetAt := some (s.rc + 100000) }))
  | .chimeSet _ f d u p n b => done (s.chimeSetOp f d u p n b)
  | .memRead _ a n => done (s.memReadOp a n)
  | .memWrite _ a d => done (s.memWriteOp a d)
  | .qpConnect _ q p r a x y => done (s.qpConnectOp q p r a x y)
  | .qpReset _ q => done (s.qpResetOp q)
  | .logRead _ w f n => (some (s.logReadOp w.toNat f.toNat n.toNat), s)
  | .health _ => (some s.healthOp, s)
  | .counterView _ c => (some (s.counterViewOp c.toNat), s)
  | .physRead _ d r p b o => done (s.physReadOp d.toNat r.toNat p.toNat b.toNat o.toNat)
  | .fwStageBegin _ n => done (s.fwBegin n.toNat)
  | .fwStageData _ o d => done (s.fwData o.toNat d)
  | .fwVerify _ => done s.fwVerify
  | .fwSchedule _ b => done (s.fwSchedule b.toNat)
  | .fwAbandon _ => done s.fwAbandon
  | .fwStatus _ => (some s.fwStatus, s)
  | .ownerEnrol c a b sn sc => done (s.ownerEnrol c.seq a b sn sc)
  | .ownerLock _ => done s.ownerLock
  | .ownerRelease c m g => done (s.ownerRelease c.seq m g)
  | .netSet _ p a b v => done (s.netSetOp p a b v)
  | .powerGet _ => (some s.powerGet, s)
  | .budgetSet _ b => done (s.budgetSetOp b.toNat)
  | .ceilingSet _ t h => done (s.ceilingSetOp t.toNat h.toNat)
  | .floorSet _ f => done (s.floorSetOp f.toNat)
  | .permute _ t n r b => done (s.permuteStart t.toNat n.toNat r.toNat b.toNat)
  | .restore _ a l h n => s.restoreStart a.toNat l.toNat h.toNat n.toNat
  | .returnToService _ k u => done (s.returnUnit k.toNat u.toNat)
  | .blockReset c b u => s.blockResetOp c.via b.toNat u.toNat
  | _ => let (r, s) := s.spdm params i; (some (okData r), s)

end Sys2Proof.Machine
end

