-- ==== Sys2Proof/Machine/Icp.lean ====
section
/-! DEFINITION. The ICP pipeline (R352, R353, R355 to R358, R369, R370): the order of the tests, the reply cache, the queue,
the reply, and one meaning for each ICP command. -/

namespace Sys2Proof.Machine

/-! ## Who serves (R367, R370, R405, R409) -/

/-- The Crown serves commands. -/
def State.crownUp (s : State) : Bool := s.seqr.main && !s.seqr.held.contains 1 && s.phase == 5
/-- RECOVERY: the sideband serves a subset. -/
def State.recovering (s : State) : Bool := s.seqr.main && !s.seqr.held.contains 1 && s.inRecovery
/-- The Crown restarts alone: port and sideband logic queue what arrives (R358, R376, R417). -/
def State.restarting (s : State) : Bool := s.seqr.main && s.seqr.only && !s.crownUp && !s.inRecovery
/-- The port takes frames: it is enabled and ring logic is out of reset. -/
def State.portTakes (s : State) (p : Nat) : Bool := (s.port p).up && s.seqr.main && !s.seqr.held.contains 3
/-- A command that came over `via` reaches the queue. -/
def State.reaches (s : State) (via : Nat) : Bool :=
  if via < 2 then s.portTakes via && (s.crownUp || s.restarting)
  else !s.smbOff && (s.crownUp || s.recovering || s.restarting)

/-! ## Tests (R356) -/

/-- A received command: its header, opcode, whole message, and what its parameters spell. -/
structure Incoming where
  cmd    : IcpCmd
  op     : Nat
  raw    : List Byte
  parsed : Parsed
  deriving DecidableEq, Repr

/-- The command in the bytes that arrived: over MCTP type 0x05 an SPDM request, which has no ICP header (R369). -/
def QCmd.incoming (q : QCmd) : Incoming :=
  if q.via = 3 then
    let c : IcpCmd := { seq := 0, src := q.src, via := 3, dev := 0, tag := none, vendor := Config.enterprise }
    { cmd := c, op := opSpdm, raw := q.raw, parsed := parseSpdm c q.raw }
  else
    let c := headerOf q.src q.via q.raw
    let op := le q.raw 4 2
    { cmd := c, op := op, raw := q.raw, parsed := parseParams c op (paramsOf q.raw) }

/-- Sideband subset (R370). -/
def sideSubset (op : Nat) : Bool := op / 256 == 0 || [0x0301, 0x0302, 0x0106, 0x0610, 0x0701, 0x0702].contains op
/-- Opcodes served in RECOVERY (R405) and in records recovery (R409). -/
def recoverySubset (op : Nat) : Bool := [0x0001, 0x0501, 0x0502, 0x0503, 0x0506, 0x0604, 0x0106].contains op
def recordsSubset (op : Nat) : Bool := [0x0001, 0x0506, 0x0106].contains op

/-- Test 6: the opcode. -/
def State.opcodeFail (s : State) (x : Incoming) : Option Answer :=
  if x.parsed = .unknown then some (ans 2 0)
  else if s.recordsLost then (if recordsSubset x.op then none else some (ans 0xF 0))
  else if s.inRecovery then (if recoverySubset x.op then none else some (ans 0x11 0))
  else if x.cmd.via = 2 ∧ !sideSubset x.op then some (ans 0x11 0)
  else none

/-- The tag that authenticates a message (R352). -/
def State.tagOf (s : State) (x : Incoming) : List Byte :=
  (hashBytes (Config.hmac384 s.crown.cmdKey (x.raw.take (x.raw.length - 16)))).take 16

/-- An authenticated SEQ is accepted: the floor, and the reserve where it is exceeded (R353). -/
def State.raiseFloor (s : State) (n : Nat) : State :=
  let r := s.flash.rpmc.read 0 2
  let s := s.updCrown (fun c => { c with floor := n })
  if r * 2 ^ 20 < n then { s with flash := s.flash.raise 2 ((n + 2 ^ 20 - 1) / 2 ^ 20 - r) } else s

/-- The highest SEQ that the sequence reserve can be raised to: its counter ends at 2^32 − 1 (R353, R404). -/
def seqTop : Nat := (2 ^ 32 - 1) * 2 ^ 20

/-- Test 5: the DETAIL of the first that fails. A SEQ above what the reserve reaches is never accepted (R353; its DETAIL, that of the
floor, is log entry 95). In records recovery no key can match, and what is served is served without
one (R409). -/
def State.authFail (s : State) (x : Incoming) : Option Nat × State :=
  if s.crown.owner.key.isEmpty || s.recordsLost || x.op / 256 == 0 || x.op == opSpdm then (none, s)
  else
    match x.cmd.tag with
    | none => (some 1, s)
    | some t =>
      if t ≠ s.tagOf x then (some 2, s)
      else if x.cmd.seq.toNat ≤ s.crown.floor || decide (seqTop < x.cmd.seq.toNat) then (some 3, s)
      else (none, s.raiseFloor x.cmd.seq.toNat)

/-! ## Replies (R354, R357) -/

/-- A message goes back to where a command came from: on its queue pair (R349), its port or the sideband. -/
def State.sendBack (s : State) (c : IcpCmd) (msg : List Byte) : State :=
  let q := c.src - 2 ^ 192
  if c.via < 2 ∧ 2 ^ 192 ≤ c.src then
    let x := s.qp q
    if !x.conn || x.err then s
    else (s.setQp q { x with sendPsn := psnAdd x.sendPsn 1, ops := x.ops ++ [⟨x.sendPsn, 8, none⟩] }).emit (.send q x.sendPsn msg)
  else s.emit (.icp (min c.via 2) c.src msg)

/-- The command no longer takes a receive buffer of its queue pair (R349). -/
def State.freeBuffer (s : State) (x : Incoming) : State :=
  if x.cmd.via < 2 ∧ 2 ^ 192 ≤ x.cmd.src then
    s.updQp (x.cmd.src - 2 ^ 192) (fun y => { y with rx := dropFirst (fun m => decide (m = x.raw)) y.rx })
  else s

/-- The reply message. -/
def State.replyMsg (s : State) (x : Incoming) (a : Answer) : List Byte :=
  icpHeader 1 x.op a.data.length x.cmd.seq.toNat a.status a.detail s.self s.beat ++ a.data

/-- An SPDM response on the sideband (R369, R411): a refusal is an SPDM ERROR, Busy for QUEUE_FULL, UnsupportedRequest for what is
not served and InvalidRequest otherwise (log entry 60). -/
def State.mctpReply (s : State) (a : Answer) : State :=
  s.emit (.mctp ([0x05] ++ (if a.status = 0 then a.data else spdmError (if a.status = 1 then 1 else if a.status = 6 then 3 else 7) 0)))

/-- Reply, and keep the reply in the cache of the last 16; an SPDM request over MCTP has no place in the cache. -/
def State.reply (s : State) (x : Incoming) (a : Answer) : State :=
  if x.cmd.via = 3 then s.mctpReply a
  else
  let m := s.replyMsg x a
  ((s.updCrown (fun c => { c with cache := newest 16 (c.cache ++ [⟨x.cmd.src, x.raw, m⟩]) })).freeBuffer x).sendBack x.cmd m

/-- Reply without keeping it. -/
def State.replyOnly (s : State) (x : Incoming) (a : Answer) : State := (s.freeBuffer x).sendBack x.cmd (s.replyMsg x a)

/-- The cached reply of a command with the same source and SEQ. -/
def State.cached (s : State) (x : Incoming) : Option CacheEntry :=
  s.crown.cache.find? (fun e => e.src == x.cmd.src && le e.msg 8 8 == x.cmd.seq.toNat)

/-- Tests 1 to 3; none where the command goes on. -/
def State.early (s : State) (x : Incoming) (wrong : Bool) : Option State :=
  match s.cached x with
  | some e =>
    some (if e.msg = x.raw then (s.freeBuffer x).sendBack x.cmd e.reply else s.replyOnly x (ans 5 0))
  | none =>
    if wrong then some (s.reply x (ans 1 0))
    else if x.cmd.dev.toNat ≠ 0xFFFF ∧ x.cmd.dev.toNat ≠ s.self then some (s.reply x (ans 3 0))
    else none

/-! ## Carrying out (R358) -/

/-- LOAD and FW_VERIFY are long commands, as RESTORE is: they are carried out in the Crown's next poll round (log entry 72). -/
def longOp (op : Nat) : Bool := op == 0x0101 || op == 0x0503

/-- Parameters as they arrived; of a request over MCTP the whole of it. -/
def QCmd.params (q : QCmd) : List Byte := if q.via = 3 then q.raw else paramsOf q.raw

/-- What takes effect after the reply: the addresses and VLAN tag of an accepted NET_SET (Table 12.3). -/
def State.afterReply (s : State) (i : Instr) (a : Answer) : State :=
  match i with
  | .netSet _ p v4 v6 vlan => if a.status = 0 then s.updPort p (fun x => { x with ipv4 := v4, ipv6 := v6, vlan := vlan }) else s
  | _ => s

/-- The effect of a command that has passed the tests, and its reply; a RESTORE and a block reset reply when they are over. -/
def State.carryOut (s : State) (q : QCmd) (i : Instr) : State :=
  match s.perform q.params i with
  | (some a, s) => ((s.updCrown (fun c => { c with long := 0, longCmd := none })).reply q.incoming a).afterReply i a
  | (none, s) => s.updCrown (fun c => { c with longCmd := some q })

/-- Tests 5 to 7 and the effect. -/
def State.serve (s : State) (q : QCmd) : State :=
  let x := q.incoming
  match s.authFail x with
  | (some d, s) => s.reply x (ans 4 d)
  | (none, s) =>
    match s.opcodeFail x with
    | some a => s.reply x a
    | none =>
      match x.parsed with
      | .cmd i =>
        if longOp x.op then s.updCrown (fun c => { c with long := x.op, longCmd := some q })
        else if s.crown.long ≠ 0 then
          (match s.perform q.params i with
            | (some a, s) => s.reply x a
            | (none, s) => s)
        else s.carryOut q i
      | .spdmOther k => s.reply x (okData (spdmError 7 k))
      | _ => s.reply x (ans 1 0)

/-- A command answered during a long one (R358). -/
def quickOp (op : Nat) : Bool := op / 256 == 0 || op == 0x0301 || op == 0x0302

/-- The DRAM range of a MEM_READ or MEM_WRITE that passes its checks, or of the table of a PERMUTE. -/
def State.memRange (s : State) (x : Incoming) : Option (Nat × Nat) :=
  let range (a n : Nat) : Option (Nat × Nat) := if n ≠ 0 ∧ a + n ≤ dramEnd ∧ s.rangeFail a n = none then some (a, n) else none
  match x.parsed with
  | .cmd (.memRead _ a n) => range a n
  | .cmd (.memWrite _ a d) => range a d.length
  | .cmd (.permute _ a n _ _) => if a.toNat + 32 * n.toNat ≤ dramEnd then some (a.toNat, 32 * n.toNat) else none
  | _ => none

/-- A command whose path is not free (R202, R204, R208). -/
def State.memHeld (s : State) (x : Incoming) : Bool := s.rangesHeld (s.memRange x).toList

/-- Whether the command waits in the queue, whatever its message spells. -/
def State.waits (s : State) (x : Incoming) : Bool :=
  s.crown.blockBusy.isSome || (s.crown.long != 0 && !quickOp x.op) || (s.crown.long == 0 && !s.crown.queue.isEmpty) || s.memHeld x

/-- The transfers that a queued command waits for begin their retries (R202). -/
def State.retryFor (s : State) (q : QCmd) : State := s.startRanges (s.memRange q.incoming).toList

def State.enqueue (s : State) (q : QCmd) : State := (s.retryFor q).updCrown (fun c => { c with queue := c.queue ++ [q] })

/-- A command arrives (R356, R358). While the Crown restarts nobody makes the first three tests: it waits, or the port or
sideband logic answers QUEUE_FULL (R376). An SPDM request over MCTP has no header to test. -/
def State.arrive (s : State) (q : QCmd) : State :=
  let x := q.incoming
  let full (s : State) : State := if q.via = 3 then s.mctpReply (ans 6 0) else s.replyOnly x (ans 6 0)
  if s.restarting then (if 64 ≤ s.crown.queue.length then full s else s.enqueue q)
  else
    match if q.via = 3 then none else s.early x (headerWrong q.raw) with
    | some s => s
    | none =>
      if 64 ≤ s.crown.queue.length then full s
      else if s.waits x then s.enqueue q
      else s.serve q

/-- A command of the table as it arrives: a message, or over MCTP type 0x05 the SPDM request alone. A row of SPDM may carry another
request than its own (R411). -/
def icpArrival (i : Instr) : Option QCmd :=
  match cmdFrom i, icpParts i with
  | some c, some (op, d) =>
    let d := if op = opSpdm then c.spdm.getD d else d
    some ⟨c.src, c.via, if c.via = 3 then d else icpMessage c op d⟩
  | _, _ => none

/-- The MCTP message that carries the command is for this endpoint: SPDM in type 0x05 with the Crown up or restarting, ICP in
type 0x7F under the device's enterprise number (R369). -/
def State.takesMctp (s : State) (i : Instr) : Bool :=
  match cmdFrom i, icpParts i with
  | some c, some (op, _) =>
    if c.via = 3 then op == opSpdm && !s.smbOff && (s.crownUp || s.restarting) else c.via != 2 || c.vendor == Config.enterprise
  | _, _ => false

/-- A command of the table arrives: over a port in a datagram or a SEND, or on the sideband. -/
def State.icp (s : State) (i : Instr) : State :=
  match icpArrival i with
  | none => s
  | some q =>
    if !s.takesMctp i || (q.via != 3 && !s.reaches q.via) then s
    else
      let s := if q.via < 2 then (s.addFld F.EN_CNT_RXFRAME_COUNT q.via 0 1).addFld F.EN_CNT_ICP_COUNT q.via 0 1 else s
      s.arrive q

/-- The command that the queue gives next: its head, or during a long command the first that is answered meanwhile; none while
its path is not free or a block reset is in progress. -/
def State.nextQueued (s : State) : Option QCmd :=
  (if s.crown.long = 0 then s.crown.queue.head? else s.crown.queue.find? (fun q => quickOp q.incoming.op)).filter
    (fun q => s.crown.blockBusy.isNone && !s.memHeld q.incoming)

/-- The Crown takes commands from the queue (R367); those that came during its restart are tested now. -/
def State.takeQueue : Nat → State → State
  | 0, s => s
  | fuel + 1, s =>
    match s.nextQueued with
    | none => s.crown.queue.foldl State.retryFor s
    | some q =>
      let s := s.updCrown (fun c => { c with queue := dropFirst (fun y => decide (y = q)) c.queue })
      State.takeQueue fuel
        (((if q.via = 3 then none else s.early q.incoming (headerWrong q.raw))).getD (s.serve q))

/-- DRAM that a LOAD reads and writes: it waits till all of it is free (R202, R204, R208). -/
def State.longRanges (s : State) (i : Instr) : List (Nat × Nat) :=
  match i with
  | .load _ a n _ => if a + n ≤ dramEnd then s.loadRanges a n else []
  | _ => []

/-- A long command or a block reset goes on, and is answered when it is over (R358, R382). -/
def State.goOn (s : State) : State :=
  match s.crown.longCmd with
  | none => s
  | some q =>
    match s.crown.blockBusy with
    | some (b, due) =>
      if s.blockDone b due then (s.updCrown (fun c => { c with longCmd := none, blockBusy := none })).reply q.incoming (ans 0 0) else s
    | none =>
    if s.crown.restore.isSome then
      (match s.restoreRun 6 with
        | (none, s) => s
        | (some a, s) => (s.updCrown (fun c => { c with longCmd := none })).reply q.incoming a)
    else
      match q.incoming.parsed with
      | .cmd i => if s.rangesHeld (s.longRanges i) then s.startRanges (s.longRanges i) else s.carryOut q i
      | _ => s

/-! ## One meaning for each command -/

def execGetInfo (c : IcpCmd) (s : State) : Out := .next (s.icp (.getInfo c))
def execGetCapability (c : IcpCmd) (s : State) : Out := .next (s.icp (.getCapability c))
def execGetState (c : IcpCmd) (s : State) : Out := .next (s.icp (.getState c))
def execGetTime (c : IcpCmd) (s : State) : Out := .next (s.icp (.getTime c))
def execLoad (c : IcpCmd) (area len : Nat) (flags : W64) (s : State) : Out := .next (s.icp (.load c area len flags))
def execArm (c : IcpCmd) (bs : W64) (s : State) : Out := .next (s.icp (.arm c bs))
def execStop (c : IcpCmd) (bx : W64) (s : State) : Out := .next (s.icp (.stop c bx))
def execAbort (c : IcpCmd) (s : State) : Out := .next (s.icp (.abort c))
def execUnload (c : IcpCmd) (s : State) : Out := .next (s.icp (.unload c))
def execDeviceReset (c : IcpCmd) (s : State) : Out := .next (s.icp (.deviceReset c))
def execChimeSet (c : IcpCmd) (flags : W32) (dst : BitVec 128) (udp : W16) (p : Byte) (n : W32) (base : W64) (s : State) : Out :=
  .next (s.icp (.chimeSet c flags dst udp p n base))
def execMemRead (c : IcpCmd) (addr len : Nat) (s : State) : Out := .next (s.icp (.memRead c addr len))
def execMemWrite (c : IcpCmd) (addr : Nat) (d : List Byte) (s : State) : Out := .next (s.icp (.memWrite c addr d))
def execQpConnect (c : IcpCmd) (q p : Nat) (rqpn : W32) (raddr : BitVec 128) (x y : W32) (s : State) : Out :=
  .next (s.icp (.qpConnect c q p rqpn raddr x y))
def execQpReset (c : IcpCmd) (q : Nat) (s : State) : Out := .next (s.icp (.qpReset c q))
def execLogRead (c : IcpCmd) (which : Byte) (first : W32) (count : Byte) (s : State) : Out :=
  .next (s.icp (.logRead c which first count))
def execHealth (c : IcpCmd) (s : State) : Out := .next (s.icp (.health c))
def execCounterView (c : IcpCmd) (cref : W32) (s : State) : Out := .next (s.icp (.counterView c cref))
def execPhysRead (c : IcpCmd) (die row pos block : Byte) (off : W32) (s : State) : Out :=
  .next (s.icp (.physRead c die row pos block off))
def execFwStageBegin (c : IcpCmd) (len : W32) (s : State) : Out := .next (s.icp (.fwStageBegin c len))
def execFwStageData (c : IcpCmd) (off : W32) (d : List Byte) (s : State) : Out := .next (s.icp (.fwStageData c off d))
def execFwVerify (c : IcpCmd) (s : State) : Out := .next (s.icp (.fwVerify c))
def execFwSchedule (c : IcpCmd) (beat : W64) (s : State) : Out := .next (s.icp (.fwSchedule c beat))
def execFwAbandon (c : IcpCmd) (s : State) : Out := .next (s.icp (.fwAbandon c))
def execFwStatus (c : IcpCmd) (s : State) : Out := .next (s.icp (.fwStatus c))
def execOwnerEnrol (c : IcpCmd) (qO qE sn sc : List Byte) (s : State) : Out := .next (s.icp (.ownerEnrol c qO qE sn sc))
def execOwnerLock (c : IcpCmd) (s : State) : Out := .next (s.icp (.ownerLock c))
def execOwnerRelease (c : IcpCmd) (mode : Byte) (g : List Byte) (s : State) : Out := .next (s.icp (.ownerRelease c mode g))
def execNetSet (c : IcpCmd) (p : Nat) (v4 : W32) (v6 : BitVec 128) (vlan : W16) (s : State) : Out :=
  .next (s.icp (.netSet c p v4 v6 vlan))
def execPowerGet (c : IcpCmd) (s : State) : Out := .next (s.icp (.powerGet c))
def execBudgetSet (c : IcpCmd) (b : W32) (s : State) : Out := .next (s.icp (.budgetSet c b))
def execCeilingSet (c : IcpCmd) (t h : W16) (s : State) : Out := .next (s.icp (.ceilingSet c t h))
def execFloorSet (c : IcpCmd) (f : W16) (s : State) : Out := .next (s.icp (.floorSet c f))
def execPermute (c : IcpCmd) (table : W64) (n : W32) (rounds : W16) (b0 : W64) (s : State) : Out :=
  .next (s.icp (.permute c table n rounds b0))
def execRestore (c : IcpCmd) (source lost : Byte) (holder : W16) (step : W64) (s : State) : Out :=
  .next (s.icp (.restore c source lost holder step))
def execReturnToService (c : IcpCmd) (kind : Byte) (inst : W32) (s : State) : Out := .next (s.icp (.returnToService c kind inst))
def execBlockReset (c : IcpCmd) (block : Byte) (inst : W16) (s : State) : Out := .next (s.icp (.blockReset c block inst))
def execSpdmGetVersion (c : IcpCmd) (s : State) : Out := .next (s.icp (.spdmGetVersion c))
def execSpdmGetCapabilities (c : IcpCmd) (s : State) : Out := .next (s.icp (.spdmGetCapabilities c))
def execSpdmNegotiateAlgorithms (c : IcpCmd) (asym hash : W32) (s : State) : Out :=
  .next (s.icp (.spdmNegotiateAlgorithms c asym hash))
def execSpdmGetDigests (c : IcpCmd) (s : State) : Out := .next (s.icp (.spdmGetDigests c))
def execSpdmGetCertificate (c : IcpCmd) (slot : Byte) (off len : W16) (s : State) : Out :=
  .next (s.icp (.spdmGetCertificate c slot off len))
def execSpdmChallenge (c : IcpCmd) (slot : Byte) (nonce : BitVec 256) (s : State) : Out := .next (s.icp (.spdmChallenge c slot nonce))
def execSpdmGetMeasurements (c : IcpCmd) (index : Byte) (sg : Bool) (nonce : BitVec 256) (s : State) : Out :=
  .next (s.icp (.spdmGetMeasurements c index sg nonce))

end Sys2Proof.Machine
end

