-- ==== Sys2Proof/Machine/Frames.lean ====
section
/-! DEFINITION. Ethernet frames (R341, R342, R351, R355, R371), SENDs (R349) and the Crown's poll round with its Chimes
(R365 to R368). -/

namespace Sys2Proof.Machine

/-! ## Commands as bytes -/

/-- A command in a datagram or a SEND of port `p` arrives. -/
def State.icpBytes (s : State) (src p : Nat) (d : List Byte) : State :=
  let s := s.addFld F.EN_CNT_ICP_COUNT p 0 1
  let q : QCmd := ⟨src, p, d⟩
  if s.crownUp || s.restarting then s.arrive q else s.freeBuffer q.incoming

/-! ## ETH_FRAME_RECEIVE (R342, R355) -/

/-- UDP destination ports of Table 12.1. -/
def udpPorts : List Nat := [49810, 4791, 319, 320]

/-- Opcodes of the reliable-connected transport without immediate data, atomics and invalidation, and the congestion
notification. PRESUMED: the numbers are those of RoCEv2 (log entry 73). -/
def roceOps : List Nat := [0x00, 0x01, 0x02, 0x04, 0x06, 0x07, 0x08, 0x0A, 0x0C, 0x0D, 0x0E, 0x0F, 0x10, 0x11, 0x81]

/-- The frame is for the port: its MAC, broadcast or IPv6 multicast; its IP address, or for time messages and IPv6 neighbour
discovery a multicast address; untagged, or with the port's tag (R341, R342; log entry 73). -/
def State.frameMine (s : State) (p : Nat) (f : EthFrame) : Bool :=
  let x := s.port p
  let a := f.dstIp.toNat
  let multi := if f.etherType.toNat == 0x0800 then a / 2 ^ 28 == 0xE else a / 2 ^ 120 == 0xFF
  (f.dstMac.toNat % 2 ^ 41 / 2 ^ 40 == 1 || f.dstMac == Config.mac p)
    && (f.vlanTags == 0 || f.vlan.toNat % 4096 == x.vlan.toNat % 4096)
    && (f.etherType.toNat == 0x0806 || a == (if f.etherType.toNat == 0x0800 then x.ipv4.toNat else x.ipv6.toNat)
      || (multi && (f.icmp || (f.udp && (f.udpDst == 319 || f.udpDst == 320)))))

/-- What an IP packet carries breaks Table 12.1: only echo and neighbour discovery of ICMP, and RoCEv2 as listed. -/
def ipBreaks (f : EthFrame) : Bool :=
  f.fragment || f.options || !(f.udp || f.icmp) || (f.udp && (!udpPorts.contains f.udpDst || f.csumBad))
    || (f.udp && f.udpDst == 4791 && !roceOps.contains f.roceOp)
    || (f.icmp && !f.udp && !(if f.etherType.toNat == 0x0800 then f.icmpType == 0 || f.icmpType == 8
        else f.icmpType == 128 || f.icmpType == 129 || f.icmpType == 135 || f.icmpType == 136))

/-- The frame breaks Table 12.1. -/
def State.frameBreaks (s : State) (p : Nat) (f : EthFrame) : Bool :=
  let ip := f.etherType.toNat == 0x0800 || f.etherType.toNat == 0x86DD
  !f.fcsOk || f.fecUncorr != 0 || decide (f.len < 64) || decide (4224 < f.len) || decide (1 < f.vlanTags) || f.pause
    || !(ip || f.etherType.toNat == 0x0806) || (ip && ipBreaks f) || !s.frameMine p f

/-- A frame is discarded or passed to its protocol. A frame of a protocol that has a row of its own is counted here, and its
content is that row's (log entry 73). -/
def State.ethFrame (s : State) (p : Nat) (f : EthFrame) : State :=
  if !s.portTakes p then s
  else
  let s := (s.addFld F.EN_CNT_FEC_CORR_COUNT p 0 f.fecCorr).addFld F.EN_CNT_FEC_UNCORR_COUNT p 0 f.fecUncorr
  if s.frameBreaks p f then s.addFld F.EN_CNT_RXDROP_COUNT p 0 1
  else
    let s := s.addFld F.EN_CNT_RXFRAME_COUNT p 0 1
    if f.etherType.toNat ≠ 0x0806 ∧ f.udp ∧ f.udpDst = 49810 then
      (if notCommand f.payload then s.addFld F.EN_CNT_NOTCMD_COUNT p 0 1 else s.icpBytes f.src p f.payload)
    else s

def execEthFrameReceive (p : Nat) (f : EthFrame) (s : State) : Out := guardUnit (portOk p) (s.ethFrame p f)

/-! ## Addresses, echo and time (R341, R351) -/

/-- A frame that a port accepts, with what it answers. -/
def State.accept (s : State) (p : Nat) (answer : Option Sent) : State :=
  if !s.portTakes p then s
  else
    let s := s.addFld F.EN_CNT_RXFRAME_COUNT p 0 1
    match answer with
    | some x => s.emit x
    | none => s

/-- ARP_REQUEST: answered where the target is the port's IPv4 address. -/
def execArpRequest (p : Nat) (target sender : W32) (s : State) : Out :=
  guardUnit (portOk p) (s.accept p (if target ≠ 0 ∧ target = (s.port p).ipv4 then some (.arpReply p sender) else none))

/-- NEIGHBOR_SOLICITATION. -/
def execNeighborSolicitation (p : Nat) (target sender : BitVec 128) (s : State) : Out :=
  guardUnit (portOk p) (s.accept p (if target ≠ 0 ∧ target = (s.port p).ipv6 then some (.neighborAdvert p sender) else none))

/-- ICMP_ECHO: a request to the port's address. -/
def execIcmpEcho (p : Nat) (v6 : Bool) (src ident : Nat) (d : List Byte) (s : State) : Out :=
  guardUnit (portOk p) (s.accept p (some (.echoReply p v6 src ident d)))

/-- PTP_MESSAGE: time from the source and domain that the settings name. -/
def State.ptp (s : State) (p source domain secs nanos : Nat) (locked : Bool) : State :=
  let t := s.accept p none
  if s.portTakes p && s.crown.settings.ptp == some (source, domain) then
    t.updCrown (fun c => { c with secs := secs, nanos := nanos, locked := locked })
  else t

def execPtpMessage (p source domain : Nat) (secs : BitVec 48) (nanos : W32) (locked : Bool) (s : State) : Out :=
  guardUnit (portOk p) (s.ptp p source domain secs.toNat nanos.toNat locked)

/-- PCS_LOCK_CHANGE (R371). -/
def execPcsLockChange (p : Nat) (locked : Bool) (s : State) : Out :=
  guardUnit (portOk p)
    (if s.seqr.held.contains 3 || !s.seqr.main then s
      else (s.setFld F.EN_PORT_STATUS_PCS_LOCK p 0 (b2n locked)).setFld F.EN_PORT_STATUS_LINK_UP p 0 (b2n locked))

/-! ## ROCE_SEND (R349) -/

/-- A SEND that its queue pair takes: into a receive buffer, acknowledged, and on to the Crown. -/
def State.sendTake (s : State) (p q : Nat) (d : List Byte) : State :=
  let x := s.qp q
  let s := (s.setQp q { x with expPsn := psnAdd x.expPsn 1, nakked := false }).emit (.roceAck q x.expPsn 0)
  if notCommand d then s
  else (s.updQp q (fun y => { y with rx := y.rx ++ [d] })).icpBytes (2 ^ 192 + q) p d

/-- A received SEND. -/
def State.roceSend (s : State) (p q psn : Nat) (ce : Bool) (d : List Byte) : State :=
  let s := s.addFld F.EN_CNT_RXFRAME_COUNT p 0 1
  if !s.qpOn p q then s
  else
    let s := s.ecnMark q ce
    let x := s.qp q
    match psnCheck x.expPsn psn with
    | .expected =>
      if (s.port p).intake.any (fun m => m.qp == q && !m.whole) || decide (1280 < d.length) then s.qpFail q 3
      else if 8 ≤ x.rx.length then s.emit (.roceAck q x.expPsn 5)
      else s.sendTake p q d
    | c => s.psnMiss q c

def execRoceSend (p q : Nat) (psn : BitVec 24) (ce : Bool) (d : List Byte) (s : State) : Out :=
  guardUnit (portOk p && qpOk q) (s.roceSend p q psn.toNat ce d)

/-! ## Chimes (R365, R366) -/

/-- Saturated to `w` bits, in whole bytes. -/
def satBytes (w n : Nat) : List Byte := toBytes (min n (2 ^ w - 1)) (w / 8)

/-- Mean power since the previous Chime; with no sample it is open (log entry 7). -/
def State.chimePower (s : State) : Nat × State :=
  let c := s.crown.chime
  if c.count = 0 then let (g, s) := s.draw; (g % 2 ^ 32, s) else (c.sum / c.count, s)

/-- The payload of Table 12.6. -/
def State.chimePayload (s : State) (power : Nat) : List Byte :=
  let c := s.crown
  let n (i : Nat) : Nat := c.chime.errs.getD i 0
  [BitVec.ofNat 8 s.run.code]
    ++ toBytes (s.fld F.ES_STEP_STATUS_LAST_VERDICT 0 0 + 2 * s.fld F.ES_STEP_STATUS_ACC_CLEAN 0 0 + 4 * b2n s.esc.frozen.isSome
        + 8 * s.fld F.ES_BEAT_STATUS_REF_LOST 0 0 + 16 * b2n s.ownerLocked) 1
    ++ toBytes c.chime.missed 2 ++ zeros 4 ++ toBytes (s.fld F.ES_STEP_NUM_STEP 0 0) 8
    ++ toBytes (s.fld F.ES_STEP_STATUS_ATTEMPT 0 0) 1 ++ zeros 3 ++ toBytes (s.fld F.ES_HOLD_BEAT_LAST 0 0) 4
    ++ toBytes power 4 ++ toBytes (s.fld F.PW_TEMP_MAX 0 0) 2 ++ zeros 2 ++ satBytes 32 (n 0) ++ satBytes 16 (n 1)
    ++ satBytes 8 (n 2) ++ satBytes 8 (n 3) ++ toBytes c.repair.cap.updated 8 ++ toBytes c.secs 6 ++ toBytes c.nanos 4 ++ zeros 6

/-- The Chime of the latest Chime beat, if one is due. -/
def State.sendChime (s : State) : State :=
  match s.crown.chime.due with
  | none => s
  | some b =>
    let (power, s) := s.ptpNow.chimePower
    let c := s.crown.chime
    let h : List Byte := toBytes 0x4350 2 ++ [1, 4] ++ toBytes 0 2 ++ toBytes 64 2 ++ toBytes c.seq 8 ++ zeros 4 ++ toBytes s.self 2
      ++ zeros 2 ++ toBytes b 8
    let m := h ++ s.chimePayload power
    let s := if s.portTakes c.port then s.emit (.icp c.port (c.dst.toNat * 65536 + c.udp.toNat) m) else s
    s.updCrown (fun x => { x with chime := { c with
      due := none, seq := c.seq + 1, errs := [0, 0, 0, 0], sum := 0, count := 0 } })

/-! ## CROWN_POLL_ROUND (R367, R368) -/

/-- One poll round. In RECOVERY the round only serves the sideband, writes what waited for the margin and restarts the
watchdog. -/
def State.pollRound (s : State) : State :=
  let s :=
    if s.crownUp then (((s.takeQueue 64).goOn).healthRound.sendChime).flushFlash
    else if s.recovering then (s.takeQueue 64).goOn.flushFlash
    else s
  if s.crownUp || s.recovering then s.updCrown (fun c => { c with wdFrom := s.rc }) else s

def execCrownPollRound (s : State) : Out := .next s.pollRound

end Sys2Proof.Machine
end

