-- ==== Sys2Proof/Machine/Packets.lean ====
section
/-! DEFINITION. Packets at the place that decodes them (R172 to R180, R188, R204 to R206, R220, R233): malformed
packets, address faults, landings, reads, answers and credits. -/

namespace Sys2Proof.Machine

/-! ## Malformed packets (R172) -/

/-- Reserved header bits that are set (Table 6.4). -/
def pktReservedSet (p : Packet) : Bool :=
  p.h 0 63 63 != 0 || p.h 11 7 7 != 0 || p.h 12 7 7 != 0 || p.h 15 7 1 != 0 || p.h 27 7 0 != 0

/-- A row of Table 6.5 with payload carries LEN bytes; a READ_REQ carries none. -/
def pktLenBad (p : Packet) : Bool :=
  decide (p.len > 256) || (if p.kind = 3 then !p.payload.isEmpty else p.payload.length != p.len)

/-- The request crosses a 256-byte boundary of its destination (R172). -/
def pktCrosses (p : Packet) (n : Nat) : Bool := decide (p.destAddr % 256 + n > 256)

/-- STYPE, DTYPE and LEN of a WRITE. -/
def pktWriteBad (p : Packet) : Bool :=
  !deConv p.stype p.dtype || (p.stype == 8 && p.dtype == 8)
    || ((p.stype != 0 || p.dtype != 0) && !inWindows p.dest)
    || p.len % unitSrc p.stype != 0 || pktCrosses p (convLen p.stype p.dtype p.len)

/-- STYPE, DTYPE and LEN of a WRITE_ACC: the sum is of type DTYPE (Table 6.5). -/
def pktAccBad (p : Packet) : Bool :=
  !(p.dtype == 1 || p.dtype == 2 || p.dtype == 7) || !(p.stype == 0 || deConv p.stype p.dtype)
    || (let st := if p.stype = 0 then p.dtype else p.stype
        p.len % unitSrc st != 0 || pktCrosses p (convLen st p.dtype p.len))

/-- The landing counter of a WRITE or WRITE_ACC. -/
def pktLsigBad (p : Packet) : Bool :=
  bits p.n 31 1 != 0 || (bit p.n 0 && (crefKey none p.cref).isNone)

/-- A malformed packet of a valid KIND; ACCUM packets have the checks of Table 7.6 instead. -/
def pktMalformed (p : Packet) : Bool :=
  pktReservedSet p || pktLenBad p ||
    (match p.kind with
    | 1 => pktWriteBad p || pktLsigBad p
    | 2 => pktAccBad p || pktLsigBad p
    | 3 => pktCrosses p p.len
    | 4 | 7 | 9 => decide (p.status > 1)
    | 5 => p.destAddr != 0 || (crefKey none p.cref).isNone
    | _ => false)

/-! ## Answers -/

/-- Where the unit that decodes a packet puts its answer into the device (R174). -/
def Target.source : Target → Nat × Nat
  | .tile t => (2, t)
  | .root r => (5, r)
  | .ring g => (6, g.getD 0)
  | .xbar d => (13, d)
  | .port t => (14, t)

/-- Where the answer to packet `p` enters the device: where its DEST is decoded. -/
def State.answerAt (s : State) (p : Packet) : Nat × Nat := (s.target p).source

/-- Answer with an ACK. -/
def State.ackTo (s : State) (b : Nat × Nat) (p : Packet) (ok : Bool) : State :=
  s.send b.1 b.2 (ackOf p s.self (b2n (!ok)))

/-- Answer with a READ_RSP; a fault carries LEN bytes of zero. -/
def State.rspTo (s : State) (b : Nat × Nat) (p : Packet) (ok : Bool) (d : List Byte) : State :=
  s.send b.1 b.2 (rspOf p s.self (b2n (!ok)) (if ok then d else zeros p.len))

/-- The answer by which the source of a packet that failed completes (R172, R174). -/
def State.faultTo (s : State) (b : Nat × Nat) (p : Packet) : State :=
  if faultAnswered p.kind then s.ackTo b p false else if p.kind = 3 then s.rspTo b p false [] else s

/-! ## The frame of every packet command -/

/-- An access of `n` bytes, a write where `wr` holds, takes place in the present cycle: the exchange slots of its rows are open, no
two rows lie in one bank, and the port moves its bytes (R105). -/
def State.slotsOpen (s : State) (t o n : Nat) (wr : Bool) : Bool :=
  (rowsOf o n).all (fun g => s.slotOpen t g wr) && distinct (s.banksOf t o n) && s.portRoom t n wr

/-- Bytes that a packet reads or writes in a scratchpad: those of its destination type (R186). -/
def spLen (p : Packet) : Nat :=
  if p.kind = 3 || p.stype = 0 then p.len else convLen p.stype p.dtype p.len

/-- Rows of its landing buffer that the packet's own flits hold. -/
def State.heldLanding (s : State) (p : Packet) : Nat := ((s.net.find? (fun y => y.isPkt p && y.whole)).map Transit.inLanding).getD 0

/-- The packet waits: no cycle is delivered to the tile die that it is bound for (R55), or the landing buffer cannot take what
finds no open exchange slot (R109). -/
def State.mustWait (s : State) (p : Packet) : Bool :=
  if p.kind ≠ 5 ∧ (s.target p).zone < 4 ∧ !s.esc.live then true
  else
  match s.place p.destAddr with
  | .tile t o =>
    if p.kind = 3 ∨ (p.kind = 1 ∧ !p.mc) ∨ p.kind = 2 then
      !((s.tile t).landing.isEmpty && s.slotsOpen t o (spLen p) (p.kind != 3)) && decide (s.landUsed t + rowCount p.len > 16 + s.heldLanding p)
    else false
  | _ => false

/-- KIND 0 and 10 to 15 are reserved (Table 6.5). -/
def kindReserved (k : Nat) : Bool := k == 0 || decide (10 ≤ k)

/-- A packet whose flits are still on their way (R177). -/
def State.coming (s : State) (p : Packet) : Bool :=
  s.net.any (fun y => y.isPkt p) && !s.net.any (fun y => y.isPkt p && y.whole)

/-- A packet that has arrived from outside the device waits where it would be decoded. -/
def State.arrived (s : State) (p : Packet) : State :=
  if s.net.any (fun y => y.isPkt p) then s else { s with net := s.net ++ [⟨p, [], p.flits, [], none⟩] }

/-- A packet of KIND `kind` reaches the place that decodes it: die crossbar `d`, port `port`. One that fails CHECK is recorded
and goes on (R179); one for another device is routed on; a malformed one is discarded and answered, one of a reserved KIND
discarded (R172). -/
def State.decodePacket (s : State) (kind d port : Nat) (p : Packet) (act : State → State) : State :=
  if p.kind ≠ kind ∧ !kindReserved p.kind then s
  else if s.coming p then s
  else if p.destDev ≠ s.self then ((if p.checkOk then s else s.xbErr d port 1 p).take p).routeOut none p
  else if s.seqr.held.contains (s.domainOf p) then s.take p
  else if s.mustWait p then s.arrived p
  else
    let s := s.take p
    let s := if p.checkOk then s else s.xbErr d port 1 p
    if kindReserved p.kind then s.xbErr d port 3 p
    else if pktMalformed p then (s.xbErr d port 3 p).faultTo (s.answerAt p) p
    else act s

/-- The command names a die crossbar and a port of Table 6.1. -/
def crossbarOk (d port : Nat) : Bool := decide (d ≤ 4) && decide (port < 29)

/-! ## WRITE and WRITE_ACC (R175, R188, R204 to R206, R233) -/

/-- Counter and increment of a landing signal. -/
def pktLandSig (p : Packet) (n : Nat) : Option (Nat × Nat) :=
  if bit p.n 0 then (crefKey none p.cref).map (fun k => (k, n)) else none

/-- A landing in a tile's scratchpad: `acc` the accumulate type, if any (R109, R115, R186). -/
def State.landPacket (s : State) (t o : Nat) (p : Packet) (acc : Option Nat) (d : List Byte) : State :=
  let s := if p.mc then s.updTile t (fun q => { q with granted := q.granted - (p.len + 31) / 32 }) else s
  s.landArrive t
    { off := o, data := d, acc := acc, kind := 5, read := none, want := 0, got := [], sig := pktLandSig p d.length
      ack := some (ackOf p s.self 0), seq := none, held := 0, piece := none, unit := p.srcUnit, dev := p.srcDev }

/-- A READ_REQ reads its rows in exchange slots, and is answered when it has them all (R109). -/
def State.landRead (s : State) (t o : Nat) (p : Packet) : State :=
  s.landArrive t
    { off := o, data := [], acc := none, kind := 5, read := some p, want := p.len, got := [], sig := none, ack := none
      seq := none, held := 0, piece := none, unit := p.srcUnit, dev := p.srcDev }

/-- Apply the landing signal of a write outside the scratchpads, then acknowledge it (R175, R188). -/
def State.wrote (s : State) (b : Nat × Nat) (p : Packet) (ok : Bool) : State :=
  let s := match pktLandSig p p.len with
    | some (k, n) => if ok then s.applySig k n p.srcUnit p.srcDev else s
    | none => s
  s.ackTo b p ok

/-- The slot whose parity window a WRITE of a checkpoint engine hits (R306). -/
def State.packetWindow (s : State) (a : Nat) (p : Packet) : Option Nat :=
  if p.kind = 1 ∧ p.srcUnit / 4096 = 9 then s.parityWindow (s.stackOf a) a else none

/-- The bytes that a packet accesses: the first stripe of a checkpoint has the whole peer data zeroed before it (R306). -/
def State.packetRange (s : State) (a : Nat) (p : Packet) : Nat × Nat :=
  let r := s.stackOf a
  match s.packetWindow a p with
  | some j => if (s.root r).ckpt.xored = 0 then (s.partAddr r j 1 + partData, stripeLen (s.ckptLen r)) else (a, p.len)
  | none => (a, p.len)

/-- An access of a packet to DRAM: at once, or from the request queue when its path is free (R204, R208). -/
def State.dramPacket (s : State) (a : Nat) (p : Packet) (act : State → State) : State :=
  let (b, n) := s.packetRange a p
  if s.lineHeld b n then s.reqDram (s.stackOf a) ⟨b, n, .packet p⟩ else act s

/-- A WRITE to DRAM; one of a checkpoint engine in a parity window is XORed (R306). -/
def State.writeDram (s : State) (a : Nat) (p : Packet) : State :=
  let r := s.stackOf a
  let (ok, s) := match s.packetWindow a p with
    | some j => s.parityXor r j a p.payload
    | none => s.dramWrite a p.payload
  s.wrote (5, r) p ok

/-- A WRITE of a root program of this device to its own RT_ block (R29, R174). -/
def State.writeLive (s : State) (a : Nat) (p : Packet) : Option State :=
  if p.srcDev = s.self ∧ p.srcUnit / 4096 = 3 ∧ p.len = 8 ∧ a % 8 = 0 then
    match s.regAt a with
    | some x =>
      if x.info.block = .rt ∧ x.inst = p.srcUnit % 4096 ∧ x.writable then some (s.writeWord x (ofBytes p.payload))
      else none
    | none => none
  else none

/-- A WRITE packet at its destination. -/
def State.writePacket (s : State) (p : Packet) : State :=
  match s.place p.destAddr with
  | .tile t o => s.landPacket t o p none (convertBytes p.stype p.dtype p.payload)
  | .dram a => s.dramPacket a p (fun s => s.writeDram a p)
  | .store r o =>
    let (ok, s) := s.storeWrite r o p.payload p.srcUnit p.srcDev p.dest
    s.wrote (5, r) p ok
  | .live a =>
    match s.writeLive a p with
    | some s => s.ackTo (5, p.srcUnit % 4096) p true
    | none => s.ackTo (s.answerAt p) p false
  | _ => s.ackTo (s.answerAt p) p false

def execWritePacket (d port : Nat) (p : Packet) (s : State) : Out :=
  guardUnit (crossbarOk d port) (s.decodePacket 1 d port p (fun s => s.writePacket p))

/-- A WRITE_ACC packet: adds into a scratchpad only (R205). -/
def State.writeAcc (s : State) (p : Packet) : State :=
  match s.place p.destAddr with
  | .tile t o =>
    s.landPacket t o p (some (deAcc p.dtype)) (if p.stype = 0 then p.payload else convertBytes p.stype p.dtype p.payload)
  | _ => s.ackTo (s.answerAt p) p false

def execWriteAccPacket (d port : Nat) (p : Packet) (s : State) : Out :=
  guardUnit (crossbarOk d port) (s.decodePacket 2 d port p (fun s => s.writeAcc p))

/-! ## READ_REQ (R174, R175, R206) -/

/-- Little-endian bytes of the live view from `a`. -/
def State.liveBytes (s : State) (a n : Nat) : List Byte :=
  (upFrom a n).map (fun x => BitVec.ofNat 8 ((s.readWord (x / 8 * 8)).getD 0 >>> (8 * (x % 8))))

/-- A fetch engine or a root program of this device (R174). -/
def State.mayReadLive (s : State) (p : Packet) : Bool :=
  p.srcDev == s.self && (p.srcUnit / 4096 == 1 || p.srcUnit / 4096 == 3)

/-- A READ_REQ of DRAM. -/
def State.readDram (s : State) (a : Nat) (p : Packet) : State :=
  let (d, bad, s) := s.dramRead a p.len
  s.rspTo (5, s.stackOf a) p (!bad) d

/-- A READ_REQ packet at its destination. -/
def State.readReq (s : State) (p : Packet) : State :=
  match s.place p.destAddr with
  | .tile t o => s.landRead t o p
  | .dram a => s.dramPacket a p (fun s => s.readDram a p)
  | .store r o => let (d, bad, s) := s.storeRead r o p.len; s.rspTo (5, r) p (!bad) d
  | .live a =>
    if s.mayReadLive p && (p.len == 0 || s.liveRangeOk a p.len) then s.rspTo (s.answerAt p) p true (s.liveBytes a p.len)
    else s.rspTo (s.answerAt p) p false []
  | _ => s.rspTo (s.answerAt p) p false []

def execReadReqPacket (d port : Nat) (p : Packet) (s : State) : Out :=
  guardUnit (crossbarOk d port) (s.decodePacket 3 d port p (fun s => s.readReq p))

/-! ## READ_RSP (R179, R185, R191, R245) -/

/-- The answer of a READ_REQ of a fetch engine. -/
def State.tileRsp (s : State) (d port t : Nat) (p : Packet) : State :=
  match (s.tile t).fetch.reads.find? (fun r => r.tag == p.tag) with
  | none => s.xbErr d port 2 p
  | some r =>
    if r.len ≠ p.len then s.xbErr d port 3 p
    else if p.status = 0 then s.readDone t r p.payload
    else (s.descFail t 9 r.seq r.addr).readDone t r (zeros r.len)

/-- A root die's packet with this TAG is answered. -/
def State.rootAnswered (s : State) (r tag : Nat) : State :=
  s.updRoot r (fun q => { q with outs := dropFirst (fun o => o.tag == tag) q.outs })

/-- The answer of a READ_REQ of a root die: of XLD or of a RESTORE. -/
def State.rootRsp (s : State) (d port r : Nat) (p : Packet) : State :=
  match (s.root r).outs.find? (fun o => o.tag == p.tag) with
  | none => s.xbErr d port 2 p
  | some o =>
    match o.op with
    | .load rd sh epc =>
      if o.len ≠ p.len then s.xbErr d port 3 p
      else
        let s := (s.rootAnswered r p.tag).mergeX r rd sh (if p.status = 0 then p.payload else zeros p.len)
        if p.status = 0 then s else s.rveErr r 7 epc o.addr
    | .restore k =>
      if o.len ≠ p.len then s.xbErr d port 3 p
      else (s.rootAnswered r p.tag).restoreGot k (p.status == 0) p.payload
    | _ => s.xbErr d port 2 p

/-- The answer of a READ_REQ of an Ethernet port. -/
def State.portRsp (s : State) (d port e : Nat) (p : Packet) : State :=
  match (s.port e).reads.findSome? (fun m => m.outs.find? (fun o => o.1 == p.tag)) with
  | none => s.xbErr d port 2 p
  | some (_, _, n) => if n ≠ p.len then s.xbErr d port 3 p else s.ethReadRsp e p.tag (p.status == 0) p.payload

/-- A READ_RSP packet at the unit that asked. -/
def State.readRsp (s : State) (d port : Nat) (p : Packet) : State :=
  let n := p.srcUnit % 4096
  match p.srcUnit / 4096 with
  | 1 => s.tileRsp d port n p
  | 3 => s.rootRsp d port n p
  | 9 => s.rootRsp d port n p
  | 6 => s.portRsp d port n p
  | _ => s.xbErr d port 2 p

def execReadRspPacket (d port : Nat) (p : Packet) (s : State) : Out :=
  guardUnit (crossbarOk d port) (s.decodePacket 4 d port p (fun s => s.readRsp d port p))

/-! ## SIGNAL and ACCUM -/

/-- A SIGNAL packet (Table 6.5): SIG CREF, N. DESIGN CHOICE (log entry 146): the counter of a tile of column 15 that its row lacks
takes it as any other does. -/
def State.signalPacket (s : State) (p : Packet) : State :=
  match crefKey none p.cref with
  | some k => s.applySig k p.n p.srcUnit p.srcDev
  | none => s

def execSignalPacket (d port : Nat) (p : Packet) (s : State) : Out :=
  guardUnit (crossbarOk d port) (s.decodePacket 5 d port p (fun s => s.signalPacket p))

/-- An ACCUM packet (Table 7.6). One for DRAM comes to the root die of its stack (R174), where no region contains it; any other
destination outside the accumulation store is an address fault. -/
def State.accumAt (s : State) (p : Packet) : State :=
  match s.place p.destAddr with
  | .store r _ => let (st, s) := s.accumPacket r p; s.ackTo (5, r) p (st == 0)
  | .dram a => let (st, s) := s.accumPacket (s.stackOf a) p; s.ackTo (5, s.stackOf a) p (st == 0)
  | _ => s.ackTo (s.answerAt p) p false

def execAccumPacket (d port : Nat) (p : Packet) (s : State) : Out :=
  guardUnit (crossbarOk d port) (s.decodePacket 6 d port p (fun s => s.accumAt p))

/-! ## ACK (R175, R180, R230, R260, R308) -/

/-- The ACK of a fetch engine's packet or of one copy of a multicast. -/
def State.tileAck (s : State) (d port t : Nat) (p : Packet) : State :=
  match (s.tile t).fetch.writes.find? (fun w => w.tag == p.tag) with
  | none => s.xbErr d port 2 p
  | some w =>
    let s := if p.status = 0 then s else s.descFail t 9 w.seq (w.addrs.headD 0)
    s.updTile t (fun q =>
      let ws := q.fetch.writes.map (fun x => if x.tag = p.tag then { x with left := x.left - 1 } else x)
      { q with fetch := { q.fetch with writes := ws.filter (fun x => decide (0 < x.left)) } })

/-- What a FAULT means to the operation of the root die that sent the packet; FWD_FAULT is recorded for a release of any OUTFMT
(log entry 138). -/
def State.rootFault (s : State) (r : Nat) (o : RootOut) : State :=
  match o.op with
  | .release i => s.accErr r 0xB 0 0 i (closeUnit r) s.self o.addr
  | .write _ _ epc => s.rveErr r 4 epc o.addr
  | .permute => s.permFault r
  | .checkpoint => s.ckptFault r
  | _ => s

/-- The ACK of a root die's packet. -/
def State.rootAck (s : State) (d port r : Nat) (p : Packet) : State :=
  match (s.root r).outs.find? (fun o => o.tag == p.tag) with
  | none => s.xbErr d port 2 p
  | some o =>
    match o.op with
    | .load _ _ _ => s.xbErr d port 2 p
    | .restore _ => s.xbErr d port 2 p
    | _ =>
      let s := s.rootAnswered r p.tag
      if p.status = 0 then s else s.rootFault r o

/-- The ACK of a WRITE of an intake path. -/
def State.portAck (s : State) (d port e : Nat) (p : Packet) : State :=
  if (s.port e).intake.any (fun m => m.outs.any (fun o => o.1 == p.tag)) then s.intakeAck e p.tag (p.status == 0)
  else s.xbErr d port 2 p

/-- An ACK packet at the unit that wrote; a region close names its root die by its unit number (Table 2.15). -/
def State.ackPacket (s : State) (d port : Nat) (p : Packet) : State :=
  let n := p.srcUnit % 4096
  match p.srcUnit / 4096 with
  | 1 => s.tileAck d port n p
  | 3 => s.rootAck d port n p
  | 4 => s.rootAck d port (n / 64) p
  | 9 => s.rootAck d port n p
  | 6 => s.portAck d port n p
  | _ => s.xbErr d port 2 p

def execAckPacket (d port : Nat) (p : Packet) (s : State) : Out :=
  guardUnit (crossbarOk d port) (s.decodePacket 7 d port p (fun s => s.ackPacket d port p))

/-! ## RESERVE and GRANT (R180) -/

/-- A RESERVE at the row port of its target; one to a tile that does not exist is discarded. -/
def State.reservePacket (s : State) (d port : Nat) (p : Packet) : State :=
  match s.place p.destAddr with
  | .tile t _ => (s.updTile t (fun q => { q with reserves := q.reserves ++ [p] })).pumpReserves t 16
  | _ => s.xbErr d port 3 p

def execReservePacket (d port : Nat) (p : Packet) (s : State) : Out :=
  guardUnit (crossbarOk d port) (s.decodePacket 8 d port p (fun s => s.reservePacket d port p))

/-- A GRANT at the fetch engine whose RESERVE it answers. -/
def State.grantPacket (s : State) (d port : Nat) (p : Packet) : State :=
  let t := p.srcUnit % 4096
  match (s.tile t).fetch.mc with
  | some r => if p.srcUnit / 4096 = 1 ∧ r.tag = p.tag then s.mcGranted t r else s.xbErr d port 2 p
  | none => s.xbErr d port 2 p

def execGrantPacket (d port : Nat) (p : Packet) (s : State) : Out :=
  guardUnit (crossbarOk d port) (s.decodePacket 9 d port p (fun s => s.grantPacket d port p))

/-! ## Credits (R177) -/

def execCreditReturn (buf inst : Nat) (vc : Bool) (s : State) : Out :=
  guardUnit ((buf == 1 || decide (0 < bufferFlits buf (b2n vc))) && decide (inst < 8192)) (s.creditReturn buf inst (b2n vc))

end Sys2Proof.Machine
end

