-- ==== Sys2Proof/Machine/Dispatch.lean ====
section
/-! DEFINITION. One arm per command: the call of its meaning. -/

namespace Sys2Proof.Machine

def exec (i : Instr) (s : State) : Host.Outcome State Fault Refusal :=
  match i with
  | .stagingWrite addr v => Sys2Proof.Machine.execStagingWrite addr v s
  | .registerWrite addr v => Sys2Proof.Machine.execRegisterWrite addr v s
  | .commitReq v => Sys2Proof.Machine.execCommitReq v s
  | .commitAbort v => Sys2Proof.Machine.execCommitAbort v s
  | .commitApply => Sys2Proof.Machine.execCommitApply s
  | .tileImageCopyDone => Sys2Proof.Machine.execTileImageCopyDone s
  | .refEdge src => Sys2Proof.Machine.execRefEdge src s
  | .refTimeout => Sys2Proof.Machine.execRefTimeout s
  | .runStopped => Sys2Proof.Machine.execRunStopped s
  | .permuteRoundDone r => Sys2Proof.Machine.execPermuteRoundDone r s
  | .segmentStart => Sys2Proof.Machine.execSegmentStart s
  | .dueCheck d => Sys2Proof.Machine.execDueCheck d s
  | .freeze => Sys2Proof.Machine.execFreeze s
  | .release => Sys2Proof.Machine.execRelease s
  | .forcedRelease => Sys2Proof.Machine.execForcedRelease s
  | .boundaryCheck b => Sys2Proof.Machine.execBoundaryCheck b s
  | .clearingPointDecision b => Sys2Proof.Machine.execClearingPointDecision b s
  | .clearingTilesCheck => Sys2Proof.Machine.execClearingTilesCheck s
  | .clearing => Sys2Proof.Machine.execClearing s
  | .clearingWaitLimit => Sys2Proof.Machine.execClearingWaitLimit s
  | .segmentEnd => Sys2Proof.Machine.execSegmentEnd s
  | .localReady => Sys2Proof.Machine.execLocalReady s
  | .waitRelease cref => Sys2Proof.Machine.execWaitRelease cref s
  | .waitcGrant cref => Sys2Proof.Machine.execWaitcGrant cref s
  | .instructionFetch t => Sys2Proof.Machine.execInstructionFetch t s
  | .nop t w => Sys2Proof.Machine.execNop t w s
  | .br t w => Sys2Proof.Machine.execBr t w s
  | .bcc t w => Sys2Proof.Machine.execBcc t w s
  | .jr t w => Sys2Proof.Machine.execJr t w s
  | .call t w => Sys2Proof.Machine.execCall t w s
  | .loop t w => Sys2Proof.Machine.execLoop t w s
  | .bound t w => Sys2Proof.Machine.execBound t w s
  | .alu t w => Sys2Proof.Machine.execAlu t w s
  | .addi t w => Sys2Proof.Machine.execAddi t w s
  | .andi t w => Sys2Proof.Machine.execAndi t w s
  | .ori t w => Sys2Proof.Machine.execOri t w s
  | .xori t w => Sys2Proof.Machine.execXori t w s
  | .shi t w => Sys2Proof.Machine.execShi t w s
  | .mul t w => Sys2Proof.Machine.execMul t w s
  | .div t w => Sys2Proof.Machine.execDiv t w s
  | .seti t w => Sys2Proof.Machine.execSeti t w s
  | .movk t w => Sys2Proof.Machine.execMovk t w s
  | .crr t w => Sys2Proof.Machine.execCrr t w s
  | .crw t w => Sys2Proof.Machine.execCrw t w s
  | .sig t w => Sys2Proof.Machine.execSig t w s
  | .sigR t w => Sys2Proof.Machine.execSigR t w s
  | .wait t w => Sys2Proof.Machine.execWait t w s
  | .cons t w => Sys2Proof.Machine.execCons t w s
  | .waitc t w => Sys2Proof.Machine.execWaitc t w s
  | .read t w => Sys2Proof.Machine.execRead t w s
  | .sigi t w => Sys2Proof.Machine.execSigi t w s
  | .fenceW t w => Sys2Proof.Machine.execFenceW t w s
  | .fetch t w => Sys2Proof.Machine.execFetch t w s
  | .fqstat t w => Sys2Proof.Machine.execFqstat t w s
  | .slotBNop t w => Sys2Proof.Machine.execSlotBNop t w s
  | .lds t w => Sys2Proof.Machine.execLds t w s
  | .sts t w => Sys2Proof.Machine.execSts t w s
  | .ldv t w => Sys2Proof.Machine.execLdv t w s
  | .stv t w => Sys2Proof.Machine.execStv t w s
  | .fill t w => Sys2Proof.Machine.execFill t w s
  | .copy t w => Sys2Proof.Machine.execCopy t w s
  | .accw t w => Sys2Proof.Machine.execAccw t w s
  | .varith t w => Sys2Proof.Machine.execVarith t w s
  | .vfma t w => Sys2Proof.Machine.execVfma t w s
  | .vcmp t w => Sys2Proof.Machine.execVcmp t w s
  | .vlogic t w => Sys2Proof.Machine.execVlogic t w s
  | .vsel t w => Sys2Proof.Machine.execVsel t w s
  | .vcvt t w => Sys2Proof.Machine.execVcvt t w s
  | .vred t w => Sys2Proof.Machine.execVred t w s
  | .vperm t w => Sys2Proof.Machine.execVperm t w s
  | .vbcast t w => Sys2Proof.Machine.execVbcast t w s
  | .vmovs t w => Sys2Proof.Machine.execVmovs t w s
  | .mld t w => Sys2Proof.Machine.execMld t w s
  | .mma t w => Sys2Proof.Machine.execMma t w s
  | .mdrain t w => Sys2Proof.Machine.execMdrain t w s
  | .mfq t w => Sys2Proof.Machine.execMfq t w s
  | .storeGroupWrite t row => Sys2Proof.Machine.execStoreGroupWrite t row s
  | .memopComplete t => Sys2Proof.Machine.execMemopComplete t s
  | .bankOff t b => Sys2Proof.Machine.execBankOff t b s
  | .bankWakeDone t b => Sys2Proof.Machine.execBankWakeDone t b s
  | .fillerPassBegin t => Sys2Proof.Machine.execFillerPassBegin t s
  | .fillerEntryComplete t => Sys2Proof.Machine.execFillerEntryComplete t s
  | .exchangeTransfer t e x_i => Sys2Proof.Machine.execExchangeTransfer t e x_i s
  | .switchTransfer d e x_i => Sys2Proof.Machine.execSwitchTransfer d e x_i s
  | .writePacket d port p => Sys2Proof.Machine.execWritePacket d port p s
  | .writeAccPacket d port p => Sys2Proof.Machine.execWriteAccPacket d port p s
  | .readReqPacket d port p => Sys2Proof.Machine.execReadReqPacket d port p s
  | .readRspPacket d port p => Sys2Proof.Machine.execReadRspPacket d port p s
  | .signalPacket d port p => Sys2Proof.Machine.execSignalPacket d port p s
  | .accumPacket d port p => Sys2Proof.Machine.execAccumPacket d port p s
  | .ackPacket d port p => Sys2Proof.Machine.execAckPacket d port p s
  | .reservePacket d port p => Sys2Proof.Machine.execReservePacket d port p s
  | .grantPacket d port p => Sys2Proof.Machine.execGrantPacket d port p s
  | .creditReturn buf inst vc => Sys2Proof.Machine.execCreditReturn buf inst vc s
  | .landingBufferWrite t => Sys2Proof.Machine.execLandingBufferWrite t s
  | .fetchDescriptorStart t => Sys2Proof.Machine.execFetchDescriptorStart t s
  | .fetchReadIssue t => Sys2Proof.Machine.execFetchReadIssue t s
  | .fetchDescriptorComplete t => Sys2Proof.Machine.execFetchDescriptorComplete t s
  | .readTimeout t tag => Sys2Proof.Machine.execReadTimeout t tag s
  | .fenceRelease u => Sys2Proof.Machine.execFenceRelease u s
  | .sigRDepart u => Sys2Proof.Machine.execSigRDepart u s
  | .refreshTick => Sys2Proof.Machine.execRefreshTick s
  | .refresh r path => Sys2Proof.Machine.execRefresh r path s
  | .regionCheckEntry r x_i => Sys2Proof.Machine.execRegionCheckEntry r x_i s
  | .regionClose r x_i => Sys2Proof.Machine.execRegionClose r x_i s
  | .regionReleaseComplete r x_i => Sys2Proof.Machine.execRegionReleaseComplete r x_i s
  | .regionForceClose r x_i => Sys2Proof.Machine.execRegionForceClose r x_i s
  | .rveNop r w => Sys2Proof.Machine.execRveNop r w s
  | .rveBr r w => Sys2Proof.Machine.execRveBr r w s
  | .rveBcc r w => Sys2Proof.Machine.execRveBcc r w s
  | .rveEnd r w => Sys2Proof.Machine.execRveEnd r w s
  | .endWaitEntry r => Sys2Proof.Machine.execEndWaitEntry r s
  | .skip r w => Sys2Proof.Machine.execSkip r w s
  | .xop r w => Sys2Proof.Machine.execXop r w s
  | .xaddi r w => Sys2Proof.Machine.execXaddi r w s
  | .xseti r w => Sys2Proof.Machine.execXseti r w s
  | .xseth r w => Sys2Proof.Machine.execXseth r w s
  | .xld r w => Sys2Proof.Machine.execXld r w s
  | .xst r w => Sys2Proof.Machine.execXst r w s
  | .xfop r w => Sys2Proof.Machine.execXfop r w s
  | .zop r w => Sys2Proof.Machine.execZop r w s
  | .zfma r w => Sys2Proof.Machine.execZfma r w s
  | .zun r w => Sys2Proof.Machine.execZun r w s
  | .zbc r w => Sys2Proof.Machine.execZbc r w s
  | .zcmp r w => Sys2Proof.Machine.execZcmp r w s
  | .zsel r w => Sys2Proof.Machine.execZsel r w s
  | .zred r w => Sys2Proof.Machine.execZred r w s
  | .zld r w => Sys2Proof.Machine.execZld r w s
  | .zst r w => Sys2Proof.Machine.execZst r w s
  | .zldr r w => Sys2Proof.Machine.execZldr r w s
  | .rsend r w => Sys2Proof.Machine.execRsend r w s
  | .rveSig r w => Sys2Proof.Machine.execRveSig r w s
  | .rveWait r w => Sys2Proof.Machine.execRveWait r w s
  | .rveWaitc r w => Sys2Proof.Machine.execRveWaitc r w s
  | .rveCons r w => Sys2Proof.Machine.execRveCons r w s
  | .readc r w => Sys2Proof.Machine.execReadc r w s
  | .openRegion r w => Sys2Proof.Machine.execOpenRegion r w s
  | .rveFence r w => Sys2Proof.Machine.execRveFence r w s
  | .linkDataFlit n f => Sys2Proof.Machine.execLinkDataFlit n f s
  | .linkIdleFlit n f => Sys2Proof.Machine.execLinkIdleFlit n f s
  | .replayReq n f => Sys2Proof.Machine.execReplayReq n f s
  | .replayReqResend n => Sys2Proof.Machine.execReplayReqResend n s
  | .laneLossOfLock n pos => Sys2Proof.Machine.execLaneLossOfLock n pos s
  | .trainingComplete n x => Sys2Proof.Machine.execTrainingComplete n x s
  | .retrainComplete n x => Sys2Proof.Machine.execRetrainComplete n x s
  | .laneSerWindow n counts => Sys2Proof.Machine.execLaneSerWindow n counts s
  | .checkpointComplete r => Sys2Proof.Machine.execCheckpointComplete r s
  | .markUnclean => Sys2Proof.Machine.execMarkUnclean s
  | .crownPollRound => Sys2Proof.Machine.execCrownPollRound s
  | .ethFrameReceive p f => Sys2Proof.Machine.execEthFrameReceive p f s
  | .arpRequest p target sender => Sys2Proof.Machine.execArpRequest p target sender s
  | .neighborSolicitation p target sender => Sys2Proof.Machine.execNeighborSolicitation p target sender s
  | .icmpEcho p v6 src ident data => Sys2Proof.Machine.execIcmpEcho p v6 src ident data s
  | .ptpMessage p source domain secs nanos locked => Sys2Proof.Machine.execPtpMessage p source domain secs nanos locked s
  | .rdmaWrite p q psn first last ce rkey va dmaLen data => Sys2Proof.Machine.execRdmaWrite p q psn first last ce rkey va dmaLen data s
  | .rdmaRead p q psn ce rkey va len => Sys2Proof.Machine.execRdmaRead p q psn ce rkey va len s
  | .roceSend p q psn ce msg => Sys2Proof.Machine.execRoceSend p q psn ce msg s
  | .roceAckReceive q psn nak => Sys2Proof.Machine.execRoceAckReceive q psn nak s
  | .rdmaReadResponse q psn data => Sys2Proof.Machine.execRdmaReadResponse q psn data s
  | .cnpReceive q => Sys2Proof.Machine.execCnpReceive q s
  | .rateRaiseTimer q => Sys2Proof.Machine.execRateRaiseTimer q s
  | .intakeLanding p => Sys2Proof.Machine.execIntakeLanding p s
  | .getInfo c => Sys2Proof.Machine.execGetInfo c s
  | .getCapability c => Sys2Proof.Machine.execGetCapability c s
  | .getState c => Sys2Proof.Machine.execGetState c s
  | .getTime c => Sys2Proof.Machine.execGetTime c s
  | .load c area len flags => Sys2Proof.Machine.execLoad c area len flags s
  | .arm c bs => Sys2Proof.Machine.execArm c bs s
  | .stop c bx => Sys2Proof.Machine.execStop c bx s
  | .abort c => Sys2Proof.Machine.execAbort c s
  | .unload c => Sys2Proof.Machine.execUnload c s
  | .deviceReset c => Sys2Proof.Machine.execDeviceReset c s
  | .chimeSet c flags dst udp outPort n base => Sys2Proof.Machine.execChimeSet c flags dst udp outPort n base s
  | .memRead c addr len => Sys2Proof.Machine.execMemRead c addr len s
  | .memWrite c addr data => Sys2Proof.Machine.execMemWrite c addr data s
  | .qpConnect c q port rqpn raddr sendPsn expPsn => Sys2Proof.Machine.execQpConnect c q port rqpn raddr sendPsn expPsn s
  | .qpReset c q => Sys2Proof.Machine.execQpReset c q s
  | .logRead c which first count => Sys2Proof.Machine.execLogRead c which first count s
  | .health c => Sys2Proof.Machine.execHealth c s
  | .counterView c cref => Sys2Proof.Machine.execCounterView c cref s
  | .physRead c die row pos block off => Sys2Proof.Machine.execPhysRead c die row pos block off s
  | .fwStageBegin c len => Sys2Proof.Machine.execFwStageBegin c len s
  | .fwStageData c off data => Sys2Proof.Machine.execFwStageData c off data s
  | .fwVerify c => Sys2Proof.Machine.execFwVerify c s
  | .fwSchedule c beat => Sys2Proof.Machine.execFwSchedule c beat s
  | .fwAbandon c => Sys2Proof.Machine.execFwAbandon c s
  | .fwStatus c => Sys2Proof.Machine.execFwStatus c s
  | .ownerEnrol c qO qE sigNew sigCur => Sys2Proof.Machine.execOwnerEnrol c qO qE sigNew sigCur s
  | .ownerLock c => Sys2Proof.Machine.execOwnerLock c s
  | .ownerRelease c mode sig => Sys2Proof.Machine.execOwnerRelease c mode sig s
  | .netSet c p ipv4 ipv6 vlan => Sys2Proof.Machine.execNetSet c p ipv4 ipv6 vlan s
  | .powerGet c => Sys2Proof.Machine.execPowerGet c s
  | .budgetSet c budget => Sys2Proof.Machine.execBudgetSet c budget s
  | .ceilingSet c tileCeil tempCeil => Sys2Proof.Machine.execCeilingSet c tileCeil tempCeil s
  | .floorSet c floor => Sys2Proof.Machine.execFloorSet c floor s
  | .permute c table entries rounds b0 => Sys2Proof.Machine.execPermute c table entries rounds b0 s
  | .restore c source lost holder step => Sys2Proof.Machine.execRestore c source lost holder step s
  | .returnToService c kind inst => Sys2Proof.Machine.execReturnToService c kind inst s
  | .blockReset c block inst => Sys2Proof.Machine.execBlockReset c block inst s
  | .spdmGetVersion c => Sys2Proof.Machine.execSpdmGetVersion c s
  | .spdmGetCapabilities c => Sys2Proof.Machine.execSpdmGetCapabilities c s
  | .spdmNegotiateAlgorithms c asym hash => Sys2Proof.Machine.execSpdmNegotiateAlgorithms c asym hash s
  | .spdmGetDigests c => Sys2Proof.Machine.execSpdmGetDigests c s
  | .spdmGetCertificate c slot off len => Sys2Proof.Machine.execSpdmGetCertificate c slot off len s
  | .spdmChallenge c slot nonce => Sys2Proof.Machine.execSpdmChallenge c slot nonce s
  | .spdmGetMeasurements c index signed nonce => Sys2Proof.Machine.execSpdmGetMeasurements c index signed nonce s
  | .setEndpointId eid => Sys2Proof.Machine.execSetEndpointId eid s
  | .getEndpointId => Sys2Proof.Machine.execGetEndpointId s
  | .getMctpVersionSupport msgType => Sys2Proof.Machine.execGetMctpVersionSupport msgType s
  | .getMessageTypeSupport => Sys2Proof.Machine.execGetMessageTypeSupport s
  | .powerOnReset x => Sys2Proof.Machine.execPowerOnReset x s
  | .resetPin lowRc => Sys2Proof.Machine.execResetPin lowRc s
  | .criticalStateReset block inst => Sys2Proof.Machine.execCriticalStateReset block inst s
  | .commandReset => Sys2Proof.Machine.execCommandReset s
  | .watchdogReset => Sys2Proof.Machine.execWatchdogReset s
  | .domainRelease row locked => Sys2Proof.Machine.execDomainRelease row locked s
  | .pllLockTimeout row => Sys2Proof.Machine.execPllLockTimeout row s
  | .resetStretchEnd => Sys2Proof.Machine.execResetStretchEnd s
  | .firstStageVerify => Sys2Proof.Machine.execFirstStageVerify s
  | .bootSettings => Sys2Proof.Machine.execBootSettings s
  | .bootMaps => Sys2Proof.Machine.execBootMaps s
  | .bootNet => Sys2Proof.Machine.execBootNet s
  | .understoryCompare x => Sys2Proof.Machine.execUnderstoryCompare x s
  | .standbyEnter v => Sys2Proof.Machine.execStandbyEnter v s
  | .standbyPowerOff => Sys2Proof.Machine.execStandbyPowerOff s
  | .wakePin lowCrystal => Sys2Proof.Machine.execWakePin lowCrystal s
  | .tripClear lowCrystal => Sys2Proof.Machine.execTripClear lowCrystal s
  | .rtcAlarm => Sys2Proof.Machine.execRtcAlarm s
  | .rtcSet v => Sys2Proof.Machine.execRtcSet v s
  | .regulatorSample powerBu coreTemps ringTemps => Sys2Proof.Machine.execRegulatorSample powerBu coreTemps ringTemps s
  | .droop src => Sys2Proof.Machine.execDroop src s
  | .droopHoldExpire src => Sys2Proof.Machine.execDroopHoldExpire src s
  | .fwActivation => Sys2Proof.Machine.execFwActivation s
  | .linkFlitSend n => Sys2Proof.Machine.execLinkFlitSend n s
  | .holdAccounting => Sys2Proof.Machine.execHoldAccounting s
  | .farEndRetrain n => Sys2Proof.Machine.execFarEndRetrain n s
  | .pcsLockChange p locked => Sys2Proof.Machine.execPcsLockChange p locked s
  | .auxPowerGood => Sys2Proof.Machine.execAuxPowerGood s
  | .resetNRelease highRc => Sys2Proof.Machine.execResetNRelease highRc s
  | .periodicInterfaceTraining r path ok => Sys2Proof.Machine.execPeriodicInterfaceTraining r path ok s
  | .ieee1149Access op => Sys2Proof.Machine.execIeee1149Access op s

end Sys2Proof.Machine
end

