-- ==== Sys2Proof/Machine/Requests.lean ====
section
/-! DEFINITION. The request queues of the root dies (R202, R204, R208): accesses to DRAM that wait for their path. -/

namespace Sys2Proof.Machine

/-- Perform an access whose path is free: it has left the queue. Of a RESTORE's piece one line is read. -/
def State.performReq (s : State) (r : Nat) (q : DramReq) : State :=
  match q.op with
  | .packet p => if p.kind = 1 then s.writeDram p.destAddr p else s.readDram p.destAddr p
  | .release _ d => (s.dramWrite q.addr d).2
  | .permute dst => s.permPiece r q.addr dst q.len
  | .restore k bad got =>
    let n := min q.len (256 - q.addr % 256)
    let (d, bad', s) := s.dramRead q.addr n
    if n = q.len then s.restoreGot k (!(bad || bad')) (got ++ d)
    else s.updRoot r (fun x => { x with reqs := x.reqs ++ [⟨q.addr + n, q.len - n, .restore k (bad || bad') (got ++ d)⟩] })

/-- The bytes whose path an access needs now. -/
def DramReq.now (q : DramReq) : Nat :=
  match q.op with
  | .restore _ _ _ => min q.len (256 - q.addr % 256)
  | _ => q.len

/-- An access goes on if the paths of its lines are free and no earlier one to its lines waits; else it stays, and its retries begin. -/
def State.pumpReq (s : State) (r : Nat) (q : DramReq) : State :=
  if (dramLines q.addr q.now).any s.pathBusy || (s.root r).reqs.any (fun x => sameLine q.addr q.now x.addr x.len) then
    s.startRetries q.addr q.now |>.updRoot r (fun x => { x with reqs := x.reqs ++ [q] })
  else s.performReq r q

/-- The request queue of root die `r` at an edge, its forced refreshes and its checkpoint engine. -/
def State.pumpRoot (s : State) (r : Nat) : State :=
  let l := (s.root r).reqs
  ((if l = [] then s else l.foldl (fun s q => s.pumpReq r q) (s.updRoot r (fun x => { x with reqs := [] }))).forcedRefresh r).ckptPiece r

def State.pumpRoots (s : State) : State := (upFrom 0 8).foldl State.pumpRoot s

end Sys2Proof.Machine
end

