-- ==== Sys2Proof/Machine/Tick.lean ====
section
/-! DEFINITION. The tile-clock edge (log entry 2): what step does on an empty queue. The work of the present cycle that no
command has done and the events of the escapement that are due take place, and the next edge arrives. -/

namespace Sys2Proof.Machine

/-- Boundaries whose cycle is the one delivered last. -/
def State.boundariesNow (s : State) : List Nat :=
  match s.curClass with
  | some c => (upFrom 0 c.bounds.length).filter (fun j => c.bounds[j]? == some (s.esc.next - 1))
  | none => []

/-- What is due at an rc edge. -/
def State.rcEvents (s : State) : State :=
  if s.atRc then
    let s := s.refreshTick.refTimeout
    let s := if s.idleRun || s.run == .draining then s.commitApply else s
    s.localReady.runStopped.clearingTiles.clearing.clearingLimit.escRelease.forcedRelease.registerBeat.pumpPorts
  else s

/-- What is due in a delivered segment cycle. -/
def State.cycleEvents (s : State) : State :=
  if s.ticking then
    ((s.boundariesNow.foldl State.boundaryCheck s).dueCheck (s.esc.next + 19)).clearingDecision (s.esc.next + 19)
  else s

/-- Whatever is due at the present edge. -/
def State.finishEdge (s : State) : State :=
  if s.seqr.held.contains 9 then s.pumpFlits.pumpTransit.dropHeld
  else
    let s := s.unitCheck.tilesCycle.pumpFlits.pumpTransit.pumpRoots
    ((if s.esc.live then s.countCreditWait else s).settleCounters.rcEvents.cycleEvents.holdAccounting.segmentEnd).freeze

/-- The next edge arrives. -/
def State.nextEdge (s : State) : State :=
  let s := { s with edge := s.edge + 1, w1cSets := [], slotUse := laterUse s.esc.live s.slotUse, esc := { s.esc with live := false } }
  s.rtcTick.activationRestart.pinRegister.endHold.segmentStart.deliver.tilesBegin.compatReset

/-- One tile-clock edge. -/
def State.tick (s : State) : State := s.finishEdge.nextEdge

end Sys2Proof.Machine
end

