-- ==== Sys2Proof/Safety.lean ====
section
/-! DEFINITION. What claims are stated in: memory in canonical form, completion of a command, when a tile's word issues
and what its issue leaves unchanged. -/

namespace Sys2Proof.Machine

/-- DRAM in canonical form: addresses strictly rise and no entry holds the 0 that an unlisted byte reads as
(log entry 6). -/
def Memory.wf (m : SMap Byte) : Bool := m.canon 0

/-- The command completes with a next state of which `P` holds. -/
def Completes (c : Instr) (s : State) (P : State → Prop) : Prop := ∃ s', exec c s = .next s' ∧ P s'

/-! ## Issue of a tile's word -/

/-- Word `w` of tile `t` issues in segment cycle `x`: the core runs with cycles delivered, decode finds no error, and
neither a register nor slot B's unit holds it (R76, R80, R82). Cycles are delivered tile-clock edges. -/
def State.Issues (s : State) (t : Nat) (w : W64) (x : Nat) : Prop :=
  tileOk t = true ∧ (s.offer t w).2 = true ∧ x = s.esc.tc

/-- Slot B of word `w` of tile `t` is next: its slot A has issued (R81). -/
def State.SlotBNext (s : State) (t : Nat) (w : W64) : Prop := tileOk t = true ∧ (s.tile t).bWord = some w

/-- What the issue of a word leaves unchanged: every other tile, every register field but the tile's count of issued words,
and of the tile itself all but its scalar registers, PC, superstep, loop and issue bookkeeping. -/
structure Issued (s s' : State) (t : Nat) (w : W64) (x : Nat) : Prop where
  rest   : s' = { s with regs := s'.regs, tiles := s'.tiles }
  others : ∀ u, u ≠ t → s'.tile u = s.tile u
  fields : ∀ f i j, f.key i j ≠ F.TL_PERF_ISSUE_COUNT.key t 0 → s'.fld f i j = s.fld f i j
  count  : s'.fld F.TL_PERF_ISSUE_COUNT t 0 = (s.fld F.TL_PERF_ISSUE_COUNT t 0 + 1) % 2 ^ F.TL_PERF_ISSUE_COUNT.width
  tile   : s'.tile t = { s.tile t with
    core := (s'.tile t).core, pc := (s'.tile t).pc, sstep := (s'.tile t).sstep, loop := (s'.tile t).loop
    sreg := (s'.tile t).sreg, sready := (s'.tile t).sready, cyc := (s'.tile t).cyc, bWord := some w, bCyc := x
    bPc := (s.tile t).pc, bTold := false, overlay := (s'.tile t).overlay, wait := none
    fetchRows := (s'.tile t).fetchRows, loopRows := (s'.tile t).loopRows, fetchAt := (s'.tile t).fetchAt }

/-- The scalar registers are as before but for `rd`, which holds `v`; s0 stays 0 (R77). -/
def SetsScalar (s s' : State) (t rd : Nat) (v : W64) : Prop :=
  ∀ r, (s'.tile t).s r = if r = rd ∧ r ≠ 0 then v else (s.tile t).s r

/-- The PC moves to the next word, or to the loop's first word at the end of a turn (R85), and the next word can issue
one cycle on. -/
def Falls (s s' : State) (t x : Nat) : Prop :=
  (s'.tile t).pc = wrap 18 ((s.tile t).loopNext ((s.tile t).pc + 1)).1 ∧ (s'.tile t).cyc = x + 1

/-- The tile's word `w` issues in cycle `x` and writes `v` into scalar register `rd` with latency `lat`. -/
def Scalar (s s' : State) (t : Nat) (w : W64) (x rd lat : Nat) (v : W64) : Prop :=
  Issued s s' t w x ∧ SetsScalar s s' t rd v ∧ Falls s s' t x ∧ (rd ≠ 0 → (s'.tile t).sready.read 0 rd = x + lat)

/-- Every scalar register is as before. -/
def SameScalars (s s' : State) (t : Nat) : Prop := ∀ r, (s'.tile t).s r = (s.tile t).s r

/-- Word address `target` as the PC after an issue, which R85 turns back at the end of a loop's turn. -/
def State.pcAfter (s : State) (t : Nat) (target : Int) : Int := ((s.tile t).loopNext target).1

/-- A PC within program space (R84). -/
def InProgram (pc : Int) : Prop := 0 ≤ pc ∧ pc < 0x30000

/-- A transfer taken in cycle `x`: the next word, at `target`, can issue after the penalty of Table 3.5. -/
def Jumps (s s' : State) (t x : Nat) (target : Int) : Prop :=
  (s'.tile t).pc = wrap 18 (s.pcAfter t target) ∧ (s'.tile t).cyc = x + 1 + (if s.profile = 2 then 6 else 7) ∧
    (s'.tile t).fetchRows = [] ∧ (s'.tile t).fetchAt = x + 1

/-! ## Slot B of a tile's word -/

/-- Slot B of the word in progress writes `v` into vector register `rd`, ready `lat` cycles after issue, and changes
nothing else. -/
def VectorResult (s s' : State) (t rd lat : Nat) (v : BitVec 512) : Prop :=
  s' = { s with tiles := s'.tiles, freeCtr := s'.freeCtr } ∧ (∀ u, u ≠ t → s'.tile u = s.tile u) ∧
    s'.tile t = { s.tile t with vreg := (s'.tile t).vreg, vready := (s'.tile t).vready, bWord := none } ∧
    (∀ r, (s'.tile t).v r = if r = rd then v else (s.tile t).v r) ∧
    (s'.tile t).vready.read 0 rd = (s.tile t).bCyc + lat

/-- No two global rows of the tile lie in one physical row: its row map gives no spare twice (R122). -/
def State.RowsApart (s : State) (t : Nat) : Prop :=
  ∀ g h, g < 49152 → h < 49152 → s.spKey t g = s.spKey t h → g = h

/-- Every bank of the tile is ON (R117). -/
def State.BanksOn (s : State) (t : Nat) : Prop := ∀ g, g < 49152 → s.rowOn t g = true

/-- Bytes `o` to `o + d.length − 1` of the scratchpad hold `d`, and every other byte is as before. -/
def SpWritten (s s' : State) (t o : Nat) (d : List Byte) : Prop :=
  ∀ a, a < 0x180000 → s'.spByte t a = if o ≤ a then (d[a - o]?).getD (s.spByte t a) else s.spByte t a

/-! ## Memory and packets -/

/-- DRAM bytes `a` to `a + d.length − 1` hold `d`, and every other byte is as before. -/
def DramWritten (s s' : State) (a : Nat) (d : List Byte) : Prop :=
  ∀ b, b < 2 ^ 38 → s'.dramByte b = if a ≤ b then (d[b - a]?).getD (s.dramByte b) else s.dramByte b

/-- Every DRAM byte is as before. -/
def SameDram (s s' : State) : Prop := ∀ b, s'.dramByte b = s.dramByte b

/-- Every scratchpad and register of every tile is as before. -/
def SameTiles (s s' : State) : Prop := ∀ u, s'.tile u = s.tile u

/-- Packet `p` is decoded at its destination: it names a crossbar and a port, carries the KIND, is for this device and a
unit out of reset, has all its flits there, waits for neither a delivered cycle nor a landing buffer, and is not
malformed (R55, R109, R172, R174, R177, R179). -/
def State.Decodes (s : State) (kind d port : Nat) (p : Packet) : Prop :=
  d ≤ 4 ∧ port < 29 ∧ p.kind = kind ∧ p.destDev = s.self ∧ s.seqr.held.contains (s.domainOf p) = false ∧
    s.coming p = false ∧ s.mustWait p = false ∧ p.checkOk = true ∧ pktMalformed p = false

/-- Every path of every stack passes the CRC of its transfers, and none failed one in its last transfer (R202). -/
def State.PathsSound (s : State) : Prop :=
  ∀ r p, (s.root r).crcBad.read 0 p = 0 ∧ (s.root r).crcRun.read 0 p = 0

/-- Packet `q` as it stands at the unit that sends it: every flit waits at the place that `b` names (R177). -/
def atSource (b : Nat × Nat) (q : Packet) : Transit := ⟨q, [(sourceSpot b.1 b.2, q.flits)], 0, [], none⟩

/-- What waits in the device once `p` has been decoded and the unit at `b` has sent `q`. -/
def Answered (s s' : State) (p : Packet) (b : Nat × Nat) (q : Packet) : Prop := s'.net = (s.take p).net ++ [atSource b q]

/-! ## The root vector engine -/

/-- The RVE of root die `r` issues its next word: it runs and waits for nothing, a root core cycle of the present edge is its own to
issue in, its PC lies in its instruction memory, and no load still to come writes one of the scalar registers `xs` (R238, R239, R245,
R393). -/
def State.RveRuns (s : State) (r : Nat) (xs : List Nat) : Prop :=
  rootOk r = true ∧ (s.rve r).st = .run ∧ (s.rve r).wait = none ∧ (s.rve r).ending = false ∧ (s.rve r).pc < 32768 ∧
    s.rveBusy r xs = false ∧ (s.coreSlot r xs).isSome = true

/-- The root core cycle from which the RVE may issue again after instruction `w` (Table 8.4). -/
def State.rveNext (s : State) (r : Nat) (xs : List Nat) (w : W64) : Nat := (s.coreSlot r xs).getD 0 + rveCost w

/-- `s` with the DRAM traffic that `s'` has counted for the Regulator (R396). -/
def State.counted (s s' : State) : State := { s with reg := { s.reg with traffic := s'.reg.traffic } }

/-- Nothing changes but the RVE of root die `r`, which becomes `v`, and word 0 of the control line, which shows it. -/
structure RveBecomes (s s' : State) (r : Nat) (v : Rve) : Prop where
  rest    : s' = { s with roots := s'.roots }
  others  : ∀ u, u ≠ r → s'.root u = s.root u
  root    : s'.root r = { s.root r with rve := v, store := (s'.root r).store, storeBad := (s'.root r).storeBad }
  records : ∀ x, x < storeRecords → x ≠ ctlRecord → s'.record r x = s.record r x
  checks  : ∀ x h, x < storeRecords → h < 2 → x ≠ ctlRecord → s'.recCheck r x h = s.recCheck r x h
  word0   : s'.ctl r 0 = v.st.code + v.cur % 2 * 8 + b2n v.skip * 16 + v.pc % 32768 * 65536
  word1   : s'.ctl r 1 = s.ctl r 1

/-- The RVE's next word may issue from root core cycle `next`, scalar register `d` holds `y` (x0 stays 0), and the rest of the RVE is as before. -/
def RveSetsX (s s' : State) (r d next : Nat) (y : W64) : Prop :=
  RveBecomes s s' r { s.rve r with pc := (s.rve r).pc + 1, cyc := next, x := (s'.rve r).x } ∧
    ∀ i, (s'.rve r).xr i = if i = d ∧ i ≠ 0 then y else (s.rve r).xr i

/-- Lane `i` of vector register `j`. -/
def Rve.lane (v : Rve) (j i : Nat) : Nat := ((v.z.read 0 j).extractLsb' (32 * i) 32).toNat

/-- The RVE's next word may issue from root core cycle `next`, the lanes of vector register `d` are those of `f`, and the rest of the RVE is as before. -/
def RveSetsZ (s s' : State) (r d next : Nat) (f : Nat → Nat) : Prop :=
  RveBecomes s s' r { s.rve r with pc := (s.rve r).pc + 1, cyc := next, z := (s'.rve r).z } ∧
    ∀ j i, i < 256 → (s'.rve r).lane j i = if j = d then f i else (s.rve r).lane j i

/-- The RVE's next word follows and every register of it is as before. -/
def RveFalls (s s' : State) (r : Nat) : Prop :=
  (s'.rve r).pc = (s.rve r).pc + 1 ∧ (s'.rve r).x = (s.rve r).x ∧ (s'.rve r).z = (s.rve r).z ∧ (s'.rve r).st = (s.rve r).st ∧
    (s'.rve r).cur = (s.rve r).cur ∧ (s'.rve r).skip = (s.rve r).skip ∧ ∀ u, u ≠ r → s'.root u = s.root u

/-! ## Commits -/

/-- Registers whose commit acts on a unit, or on the Crown's count of spares: row maps, entries, bank masks, spares, links and beat
registers (R35, R329). -/
def actingRegs : List RegName :=
  [.XC_ROWMAP, .TL_ENTRY, .SP_BANKMASK, .SP_ROWMAP_LO, .SP_ROWMAP_HI, .RT_STOREMAP, .ES_BEAT_CFG, .ES_BEAT_INIT, .ES_REF_CFG,
   .ES_STEP_BASE, .LK_CFG, .LK_LANEMAP, .RT_PCMAP, .RT_PIPEMAP]

/-! ## Resets -/

/-- What a reset of every domain but the Crown's and the link layer's leaves: no run, job, commit or counter, and
every tile and root die as its own reset leaves it (R374). -/
def State.Cleared (s : State) : Prop :=
  s.run = .idle ∧ s.job = none ∧ s.commit = none ∧ s.esc = .fresh ∧ s.bt = .fresh ∧ s.counters = [] ∧ s.waiters = [] ∧
    s.sigOps = [] ∧ s.consOps = [] ∧ s.tiles = [] ∧ s.roots = []

/-! ## Ethernet and ICP (chapter 12) -/

/-- One counting field of port `p` is one higher and every other register field is as before. -/
def Counted (s s' : State) (f : RegField) (p : Nat) : Prop :=
  s'.fld f p 0 = (s.fld f p 0 + 1) % 2 ^ f.width ∧ ∀ g i j, g.key i j ≠ f.key p 0 → s'.fld g i j = s.fld g i j

/-- Two commands complete alike: what they leave differs in no register field and in nothing else. -/
def Alike (a b : Out) : Prop :=
  ∃ s t, a = .next s ∧ b = .next t ∧ s = { t with regs := s.regs } ∧ ∀ f i j, s.fld f i j = t.fld f i j

/-- Queue pair `q` is `x`, and every other is as before. -/
def QpBecomes (s s' : State) (q : Nat) (x : Qp) : Prop := s'.qp q = x ∧ ∀ u, u ≠ q → s'.qp u = s.qp u

/-- Port `p` is `x`, and the other is as before. -/
def PortBecomes (s s' : State) (p : Nat) (x : Port) : Prop := s'.port p = x ∧ ∀ u, u ≠ p → s'.port u = s.port u

/-- The port's path to DRAM sends what it has: nothing waits for quiescence and ring logic is out of reset (R350). -/
def State.PathOpen (s : State) : Prop := s.intakePaused = false ∧ s.seqr.held.contains 3 = false

/-- Successive little-endian fields of `d` from byte `o` on, each as bytes and value, up to its end. -/
def Holds (d : List Byte) : Nat → List (Nat × Nat) → Prop
  | o, [] => d.length = o
  | o, (n, v) :: l => le d o n = v % 2 ^ (8 * n) ∧ Holds d (o + n) l

/-- The OPCODE of an ICP command. -/
def icpOpcode (i : Instr) : Nat := ((icpParts i).map (·.1)).getD 0

/-- Every operand of an ICP command fits its parameter field (Tables 12.3, 14.5). -/
def icpFits : Instr → Bool
  | .load _ a n _ => a < 2 ^ 64 && n < 2 ^ 64
  | .memRead _ a n => a < 2 ^ 64 && n < 2 ^ 32
  | .memWrite _ a d => a < 2 ^ 64 && d.length ≤ 1140
  | .qpConnect _ q p _ _ _ _ => q < 256 && p < 256
  | .qpReset _ q => q < 256
  | .netSet _ p _ _ _ => p < 256
  | .spdmGetMeasurements _ _ sg n => sg || n == 0
  | _ => true

/-- Command `i` with header `c` reaches the Crown, which is ready: over a port that takes frames, or on the sideband under
the device's enterprise number. -/
def State.Reached (s : State) (i : Instr) (c : IcpCmd) : Prop :=
  cmdFrom i = some c ∧ i.wf = true ∧ icpFits i = true ∧ s.crownUp = true ∧ s.recordsLost = false ∧ c.via < 3 ∧
    (c.via < 2 → s.portTakes c.via = true) ∧ (c.via = 2 → c.vendor = Config.enterprise ∧ s.smbOff = false)

/-- The Crown has no command in hand. -/
def State.CrownFree (s : State) : Prop :=
  s.crown.queue = [] ∧ s.crown.long = 0 ∧ s.crown.longCmd = none ∧ s.crown.restore = none ∧ s.crown.blockBusy = none

/-- Command `i` with header `c` reaches the Crown, which is ready and idle, and passes the tests of R356 that precede
its own checks: it is new, it is for this device, no owner key asks for a tag, and the sideband carries its opcode. -/
def State.Serves (s : State) (i : Instr) (c : IcpCmd) : Prop :=
  s.Reached i c ∧ (c.via = 2 → sideSubset (icpOpcode i) = true) ∧
    (∀ x ∈ s.crown.cache, ¬(x.src = c.src ∧ le x.msg 8 8 = c.seq.toNat)) ∧
    (c.dev.toNat = 0xFFFF ∨ c.dev.toNat = s.self) ∧ s.CrownFree ∧ s.crown.owner.key = []

/-- The state at the arrival of a command over `via`: a port has counted a frame and a command, the sideband nothing. -/
def State.heard (s : State) (via : Nat) : State :=
  if via < 2 then (s.addFld F.EN_CNT_RXFRAME_COUNT via 0 1).addFld F.EN_CNT_ICP_COUNT via 0 1 else s

/-- What leaves the ports and the sideband between `e` and `s'` is `l`, each as a frame of its port or in packets of the
sideband (R341, R342, R369). -/
def Sends (e s' : State) (l : List Sent) : Prop := s'.sent = e.sent ++ l ∧ s'.wires = e.wires ++ l.map e.wireOf

/-- A message leaves the way a command with header `c` came: from its port or the sideband to its source, or as a SEND on
its queue pair (R349, R355). -/
def Leaves (e s' : State) (c : IcpCmd) (m : List Byte) : Prop :=
  Sends e s'
      (if c.via < 2 ∧ 2 ^ 192 ≤ c.src then
        let q := c.src - 2 ^ 192
        if (e.qp q).conn = true ∧ (e.qp q).err = false then [.send q (e.qp q).sendPsn m] else []
      else [.icp (min c.via 2) c.src m]) ∧
    ∀ q, (c.via < 2 → c.src ≠ 2 ^ 192 + q) → s'.qp q = e.qp q

/-- Message `m` is the reply to OPCODE `op` with SEQ `seq`: the header of Table 12.2 with STATUS, DETAIL, SELF and the beat
of `e`, then the data `d`. -/
def ReplyIs (e : State) (op seq status detail : Nat) (d m : List Byte) : Prop :=
  m.drop 32 = d ∧ Holds (m.take 32) 0 [(2, 0x4350), (1, 1), (1, 1), (2, op), (2, d.length), (8, seq), (2, status),
    (2, detail), (2, e.self), (2, 0), (8, e.beat)]

/-- The one reply to command `i` with header `c`. Nothing else changes but the reply cache, which holds it, and, for a
SEND, the queue pair. -/
structure Replied (e s' : State) (i : Instr) (c : IcpCmd) (status detail : Nat) (d : List Byte) : Prop where
  reply : ∃ m, ReplyIs e (icpOpcode i) c.seq.toNat status detail d m ∧ Leaves e s' c m ∧
    (s'.crown.cache.getLast?).map (fun x => (x.src, x.reply)) = some (c.src, m)
  rest  : s' = { e with sent := s'.sent, wires := s'.wires, qps := s'.qps, crown := { e.crown with cache := s'.crown.cache } }

/-- Command `i` with header `c` completes with one reply; `P` tells its STATUS, DETAIL and data, and what the command's
effect leaves. -/
def Answers (i : Instr) (c : IcpCmd) (s : State) (P : Nat → Nat → List Byte → State → Prop) : Prop :=
  ∃ s' e st det d, exec i s = .next s' ∧ P st det d e ∧ Replied e s' i c st det d

/-- Command `i` with header `c` answers STATUS and DETAIL with no data, and has no effect. -/
def Replies (i : Instr) (c : IcpCmd) (s : State) (status detail : Nat) : Prop :=
  Answers i c s (fun st det d e => st = status ∧ det = detail ∧ d = [] ∧ e = s.heard c.via)

/-- Command `i` with header `c`, a long one, is taken in hand: the Crown carries it out in its next poll round (R358, log
entry 72). -/
def Begins (i : Instr) (c : IcpCmd) (s : State) : Prop :=
  Completes i s (fun s' => s' = { s.heard c.via with
    crown := { (s.heard c.via).crown with long := icpOpcode i, longCmd := icpArrival i } })

/-- The Crown, ready, has the long command `i` with header `c` in hand and nothing in its queue. -/
def State.InHand (s : State) (i : Instr) (c : IcpCmd) : Prop :=
  s.Reached i c ∧ s.crown.long = icpOpcode i ∧ s.crown.longCmd = icpArrival i ∧ s.crown.restore = none ∧ s.crown.blockBusy = none ∧ s.crown.queue = []

/-- The rest of a poll round: errors and health, a Chime that is due, deferred writes, and the watchdog (R365 to R368). -/
def State.roundEnd (s : State) : State := ((s.healthRound.sendChime).flushFlash).updCrown (fun c => { c with wdFrom := s.rc })

/-- The poll round carries out the long command `i` that the Crown has in hand, replies, and takes its other course. `P`
tells the reply's STATUS, DETAIL and data and what the command's effect leaves, with no long command in hand. -/
def Finishes (i : Instr) (c : IcpCmd) (s : State) (P : Nat → Nat → List Byte → State → Prop) : Prop :=
  ∃ t e st det d, Completes .crownPollRound s (fun s' => s' = t.roundEnd) ∧ P st det d e ∧ Replied e t i c st det d

/-- The Crown with no long command in hand. -/
def State.freed (s : State) : State := { s with crown := { s.crown with long := 0, longCmd := none } }

end Sys2Proof.Machine
end

