-- ==== Sys2Proof/Certificates/Slice0/Obligations.lean ====
section
/-! DEFINITION. The statements for the provers, from the spec's rules. -/

open Sys2Proof Sys2Proof.Machine

/-! ## The block as a whole -/

/-- A step runs the command at the front of the queue on the state with the queue's rest. -/
def Obligations.StepRunsFront : Prop :=
  ∀ (c : Instr) (s : State), step (s.push c) = exec c s

/-- With no command waiting a step is the next tile-clock edge (log entry 2). While the escapement is in reset, no segment
starts, no tile has work, no packet is under way and no crystal edge falls on the edge, nothing else happens but that the edge is
delivered or, where the swallow rate takes it, counted as swallowed. -/
def Obligations.StepIdles : Prop :=
  ∀ s : State, s.pending = [] → step s = .next s.tick ∧
    (s.seqr.held.contains 9 = true → s.esc.hold = none → s.esc.frozen = none → s.esc.due0 = false → s.seqr.arm = none →
      s.busyTiles = [] → s.net = [] → s.seqr.restart = false → s.bt.pinEdge = false →
      crystalEdges (s.edge + 1) = crystalEdges s.edge →
      let s1 : State := { s with
        edge := s.edge + 1, w1cSets := [], slotUse := laterUse s.esc.live s.slotUse, esc := { s.esc with live := false } }
      (s.swallowedAt (s.edge + 1) = false → s.tick = { s1 with esc := { s.esc with
        live := true, tc := s.esc.tc + 1, next := if s.esc.segOn then s.esc.next + 1 else s.esc.next } }) ∧
      (s.swallowedAt (s.edge + 1) = true → s.tick = s1.addFld F.PW_SWALLOW_COUNT 0 s.kTerm 1))

/-- A command stops with a fault where it names a unit that the device lacks (DESIGN CHOICE of log entry 3), and nowhere else but at
a CREDIT_RETURN of a buffer that has no place for its virtual channel or of an instance of 8,192 or more; every well-formed command
completes but one; a write of any register address completes. The one refusal is that of a test-port instruction other than BYPASS
and IDCODE on an unlocked device (R413; DESIGN CHOICE of log entry 69). -/
def Obligations.CommandsComplete : Prop :=
  ∀ (c : Instr) (s : State),
    (c.units.all UnitRef.present = false → exec c s = .fault .noSuchUnit) ∧
    (c.wf = true → c ≠ .ieee1149Access .other → ∃ s', exec c s = .next s') ∧
    (∀ a v, c = .registerWrite a v ∨ c = .stagingWrite a v → ∃ s', exec c s = .next s') ∧
    (∀ f, exec c s = .fault f → f = .noSuchUnit ∧ (c.units.all UnitRef.present = false ∨
      ∃ b i v, c = .creditReturn b i v ∧ (b ≠ 1 ∧ bufferFlits b (b2n v) = 0 ∨ 8192 ≤ i))) ∧
    (∀ r, exec c s = .refused r → c = .ieee1149Access .other ∧ r = .debugUnit ∧ s.jtagLocked = false)

/-- The state after reset: a power-on reset that holds every domain. Every register field reads its reset value, every
counter is 0, no job is held and the run state is IDLE, every core and RVE is in RESET with its registers 0, every
link is OFF, and nothing is under way; DRAM, whose contents at power-on the spec leaves open, reads as 0 (log entries
6, 9, 11). -/
def Obligations.ResetState : Prop :=
  let s := State.reset
  (∀ f i j, s.fld f i j = f.reset) ∧ (∀ k, s.ctr k = Counter.fresh ∧ (s.ctr k).s = 0 ∧ (s.ctr k).c = 0) ∧
  s.run = .idle ∧ s.job = none ∧ s.commit = none ∧ s.staged = [] ∧ s.permute = none ∧ s.pending = [] ∧ s.net = [] ∧
  s.sent = [] ∧ s.errs = [] ∧
  (∀ t, (s.tile t).core = .reset ∧ (∀ r, (s.tile t).s r = 0 ∧ (s.tile t).v r = 0)) ∧
  (∀ r, (s.rve r).st = .reset ∧ ∀ i, (s.rve r).xr i = 0) ∧ (∀ n, s.linkState n = 0) ∧
  (∀ d, d ∈ [1, 2, 3, 4, 5, 6, 7, 8, 9] → s.seqr.held.contains d = true) ∧ s.crown.queue = [] ∧ s.crown.cache = [] ∧
  Memory.wf s.dram = true ∧ s.tiles.canon Tile.fresh = true ∧ s.counters.canon Counter.fresh = true ∧ (∀ b, s.dramByte b = 0)

/-- Memory in its canonical form stays in it: whatever a step does to DRAM, its addresses still rise and no entry
equals what an unlisted byte reads as. So do the list of tiles and that of counters. -/
def Obligations.StepKeepsMemoryCanonical : Prop :=
  ∀ (s s' : State), step s = .next s' →
    (Memory.wf s.dram = true → Memory.wf s'.dram = true) ∧
    (s.tiles.canon Tile.fresh = true → s'.tiles.canon Tile.fresh = true) ∧
    (s.counters.canon Counter.fresh = true → s'.counters.canon Counter.fresh = true)

/-- An ICP command survives its encoding: for every well-formed command whose operands fit their fields, the header,
opcode and parameters of its message spell that command again, with every operand at every value, and the message
passes the tests of R354 to R356 on its form; the enterprise number is not in the header but in the MCTP message, and a command of
an SPDM row that carries another request is not that row's. -/
def Obligations.IcpRoundTrip : Prop :=
  ∀ (i : Instr) (c : IcpCmd), cmdFrom i = some c → c.spdm = none → i.wf = true → icpFits i = true →
    ∃ op v, icpParts i = some (op, v) ∧
      let m := icpMessage c op v
      headerOf c.src c.via m = { c with vendor := Config.enterprise } ∧ le m 4 2 = op ∧ paramsOf m = v ∧ parseParams c op v = .cmd i ∧
        notCommand m = false ∧ headerWrong m = false

/-! ## Tile core, scratchpad and matrix unit -/

/-- ADDI, ANDI, ORI, XORI and SETI: RD takes the sum, the bitwise result or the immediate, IMM16 sign-extended by ADDI
and SETI and zero-extended by the logical forms; nothing else of the device changes but the tile's issue bookkeeping.
ALU: RD takes the function of RA and RB that FN names; shifts take RB[5:0]. SHI and MOVK, MUL and DIV, FQSTAT: shifts
by FN[5:0]; the half-word at 16Q replaced; the low or high half of a product; quotients and remainders toward zero,
and by zero all ones or the dividend; the entries in the fetch queue, at most 8. Their latencies are 1, 1, 3, 20 and
1. -/
def Obligations.ScalarArithmetic : Prop :=
  (∀ (s : State) (t : Nat) (w : W64) (x : Nat), s.Issues t w x →
     let rd := (w.extractLsb' 21 5).toNat
     let a := (s.tile t).s (w.extractLsb' 16 5).toNat
     let imm := w.extractLsb' 0 16
     Completes (.addi t w) s (fun s' => Scalar s s' t w x rd 1 (a + imm.signExtend 64)) ∧
     Completes (.andi t w) s (fun s' => Scalar s s' t w x rd 1 (a &&& imm.setWidth 64)) ∧
     Completes (.ori t w) s (fun s' => Scalar s s' t w x rd 1 (a ||| imm.setWidth 64)) ∧
     Completes (.xori t w) s (fun s' => Scalar s s' t w x rd 1 (a ^^^ imm.setWidth 64)) ∧
     Completes (.seti t w) s (fun s' => Scalar s s' t w x rd 1 (imm.signExtend 64))) ∧
  (∀ (s : State) (t : Nat) (w : W64) (x : Nat), s.Issues t w x →
     let rd := (w.extractLsb' 21 5).toNat
     let a := (s.tile t).s (w.extractLsb' 16 5).toNat
     let b := (s.tile t).s (w.extractLsb' 11 5).toNat
     let fn := w.extractLsb' 0 11
     let sh := (b.extractLsb' 0 6).toNat
     Completes (.alu t w) s (fun s' => ∃ v, Scalar s s' t w x rd 1 v ∧
       (fn = 0 → v = a + b) ∧ (fn = 1 → v = a - b) ∧ (fn = 2 → v = a &&& b) ∧ (fn = 3 → v = a ||| b) ∧
       (fn = 4 → v = a ^^^ b) ∧ (fn = 5 → v = a <<< sh) ∧ (fn = 6 → v = a >>> sh) ∧ (fn = 7 → v = a.sshiftRight sh) ∧
       (fn = 8 → v = if a.toInt < b.toInt then 1 else 0) ∧ (fn = 9 → v = if a.toNat < b.toNat then 1 else 0) ∧
       (fn = 10 → v.toInt = min a.toInt b.toInt) ∧ (fn = 11 → v.toInt = max a.toInt b.toInt) ∧
       (fn = 12 → v.toNat = min a.toNat b.toNat) ∧ (fn = 13 → v.toNat = max a.toNat b.toNat))) ∧
  (∀ (s : State) (t : Nat) (w : W64) (x : Nat), s.Issues t w x →
     let rd := (w.extractLsb' 21 5).toNat
     let a := (s.tile t).s (w.extractLsb' 16 5).toNat
     let b := (s.tile t).s (w.extractLsb' 11 5).toNat
     let fn := w.extractLsb' 0 11
     let kind := w.extractLsb' 9 2
     let sh := (w.extractLsb' 0 6).toNat
     let q := (w.extractLsb' 16 2).toNat
     Completes (.shi t w) s (fun s' => ∃ v, Scalar s s' t w x rd 1 v ∧
       (kind = 0 → v = a <<< sh) ∧ (kind = 1 → v = a >>> sh) ∧ (kind = 2 → v = a.sshiftRight sh)) ∧
     Completes (.movk t w) s (fun s' => ∃ v, Scalar s s' t w x rd 1 v ∧
       ∀ i, i < 64 → v.getLsbD i =
         if 16 * q ≤ i ∧ i < 16 * q + 16 then w.getLsbD (i - 16 * q) else ((s.tile t).s rd).getLsbD i) ∧
     Completes (.mul t w) s (fun s' => ∃ v, Scalar s s' t w x rd 3 v ∧
       (fn = 0 → v = a * b) ∧ (fn = 1 → v.toInt = a.toInt * b.toInt / 2 ^ 64) ∧
       (fn = 2 → v.toNat = a.toNat * b.toNat / 2 ^ 64)) ∧
     Completes (.div t w) s (fun s' => ∃ v, Scalar s s' t w x rd 20 v ∧
       (fn = 0 → v = if b = 0 then BitVec.allOnes 64 else a.sdiv b) ∧
       (fn = 1 → v = if b = 0 then BitVec.allOnes 64 else a.udiv b) ∧
       (fn = 2 → v = if b = 0 then a else a.srem b) ∧ (fn = 3 → v = if b = 0 then a else a.umod b)) ∧
     Completes (.fqstat t w) s (fun s' => ∃ v, Scalar s s' t w x rd 1 v ∧
       v.toNat = min (s.tile t).fetch.queued 8))

/-- NOP, BR, BCC, JR and CALL: the PC moves to the next word or to the target, and a taken transfer costs the penalty
of Table 3.5 and empties the fetch buffer; BCC is taken by its condition on two registers, JR takes RA[17:0], CALL leaves
the address of the next word in s31. LOOP and BOUND: LOOP with a count of 0 passes over the body, and otherwise starts the
body's first turn with count − 1 turns to follow; BOUND adds 1 to the superstep, and where the superstep's boundary has not
passed it holds the core until the cycle after the boundary's; every delivered cycle that the core idles so counts in
TL_PERF_BOUND. -/
def Obligations.TileControl : Prop :=
  (∀ (s : State) (t : Nat) (w : W64) (x : Nat), s.Issues t w x →
     let pc : Int := (s.tile t).pc
     let a := (s.tile t).s (w.extractLsb' 21 5).toNat
     let b := (s.tile t).s (w.extractLsb' 16 5).toNat
     let near := pc + (w.extractLsb' 0 13).toInt
     let far := pc + (w.extractLsb' 0 26).toInt
     let cond := w.extractLsb' 13 3
     let holds : Prop := (cond = 0 ∧ a = b) ∨ (cond = 1 ∧ a ≠ b) ∨ (cond = 2 ∧ a.toInt < b.toInt) ∨
       (cond = 3 ∧ b.toInt ≤ a.toInt) ∨ (cond = 4 ∧ a.toNat < b.toNat) ∨ (cond = 5 ∧ b.toNat ≤ a.toNat)
     Completes (.nop t w) s (fun s' => Issued s s' t w x ∧ SameScalars s s' t ∧ Falls s s' t x) ∧
     (InProgram (s.pcAfter t far) →
       Completes (.br t w) s (fun s' => Issued s s' t w x ∧ SameScalars s s' t ∧ Jumps s s' t x far)) ∧
     (¬ holds → Completes (.bcc t w) s (fun s' => Issued s s' t w x ∧ SameScalars s s' t ∧ Falls s s' t x)) ∧
     (holds → InProgram (s.pcAfter t near) →
       Completes (.bcc t w) s (fun s' => Issued s s' t w x ∧ SameScalars s s' t ∧ Jumps s s' t x near)) ∧
     (InProgram (s.pcAfter t (b.extractLsb' 0 18).toNat) → Completes (.jr t w) s (fun s' =>
       Issued s s' t w x ∧ SameScalars s s' t ∧ Jumps s s' t x (b.extractLsb' 0 18).toNat)) ∧
     (InProgram (s.pcAfter t far) → Completes (.call t w) s (fun s' =>
       Issued s s' t w x ∧ SetsScalar s s' t 31 (BitVec.ofNat 64 ((s.tile t).pc + 1)) ∧ Jumps s s' t x far))) ∧
  (∀ (s : State) (t : Nat) (w : W64) (x : Nat), s.Issues t w x →
     let pc := (s.tile t).pc
     let n := ((s.tile t).s (w.extractLsb' 21 5).toNat).extractLsb' 0 32
     let len := (w.extractLsb' 0 7).toNat
     (n = 0 → Completes (.loop t w) s (fun s' => Issued s s' t w x ∧ SameScalars s s' t ∧
       (s'.tile t).pc = wrap 18 (s.pcAfter t (pc + 1 + len)) ∧ (s'.tile t).cyc = x + 1)) ∧
     (n ≠ 0 → 1 ≤ len → Completes (.loop t w) s (fun s' => Issued s s' t w x ∧ SameScalars s s' t ∧
       (s'.tile t).loop = some ⟨pc + 1, len, n.toNat - 1⟩ ∧ (s'.tile t).pc = wrap 18 (pc + 1) ∧
       (s'.tile t).cyc = x + 1)) ∧
     (∀ b, s.boundary (s.tile t).sstep = some b → s.cycleNow ≤ b →
       Completes (.bound t w) s (fun s' => Issued s s' t w x ∧ SameScalars s s' t ∧
         (s'.tile t).sstep = ((s.tile t).sstep + 1) % 65536 ∧ (s'.tile t).core = .boundWait ∧
         (s'.tile t).pc = wrap 18 (s.pcAfter t (pc + 1)) ∧ (s'.tile t).cyc = x + (b - s.cycleNow) + 1 ∧
         (s'.tile t).fetchRows = [])) ∧
     ((∀ b, s.boundary (s.tile t).sstep = some b → b < s.cycleNow) → InProgram (s.pcAfter t (pc + 1)) →
       Completes (.bound t w) s (fun s' => Issued s s' t w x ∧ SameScalars s s' t ∧
         (s'.tile t).sstep = ((s.tile t).sstep + 1) % 65536 ∧ (s'.tile t).core = .run ∧ Falls s s' t x ∧
         (s'.tile t).fetchRows = []))) ∧
  (∀ (s : State) (t : Nat), (s.tile t).core = .boundWait → (s.tile t).wait = none → (s.tile t).xSig = [] →
     s.beginTile t = s.addFld F.TL_PERF_BOUND_COUNT t 0 1)

/-- CRR reads the TL_ register that FN[9:0] numbers with latency 2: TL_PC as the address of the word, TL_CYCLE as the
segment cycle of the issue, any other as its live value. CRW writes one with a field that takes a direct write, and nothing
else. -/
def Obligations.ControlRegisters : Prop :=
  ∀ (s : State) (t : Nat) (w : W64) (x : Nat) (r : RegAt), s.Issues t w x →
    let rd := (w.extractLsb' 21 5).toNat
    let a := (s.tile t).s (w.extractLsb' 16 5).toNat
    let s1 := (s.offer t w).1
    s1.regAt (0xF000000000 + t * 0x10000 + 8 * (w.extractLsb' 0 10).toNat) = some r →
    Completes (.crr t w) s (fun s' => ∃ v, Scalar s s' t w x rd 2 v ∧
      (r.info.name = .TL_PC → v = BitVec.ofNat 64 (s.tile t).pc) ∧
      (r.info.name = .TL_CYCLE → v = BitVec.ofNat 64 s.cycleNow) ∧
      (r.info.name ≠ .TL_PC → r.info.name ≠ .TL_CYCLE → v = BitVec.ofNat 64 (s1.liveWord r))) ∧
    (r.writable = true → Completes (.crw t w) s (fun s' =>
      SameScalars s s' t ∧ Falls s s' t x ∧ (s'.tile t).bWord = some w ∧ (∀ u, u ≠ t → s'.tile u = s.tile u) ∧
      (∀ f i j, f.key i j ≠ F.TL_PERF_ISSUE_COUNT.key t 0 → s'.fld f i j = (s1.writeWord r a.toNat).fld f i j) ∧
      s' = { s with regs := s'.regs, tiles := s'.tiles, w1cSets := s'.w1cSets }))

/-- FETCH with an entry free reads the 32-byte descriptor at the offset in RA, through the gather buffer (DESIGN CHOICE of log entry
29), and, where no check refuses it, puts it at the end of the fetch engine's queue. With all 8 entries occupied its word stalls, and
the cycle counts once in TL_PERF_QUEUE. A descriptor that is misaligned or leaves the scratchpad is recorded in TL_ERR, and one that
fails a check in XC_FE_ERR: neither joins the queue, the step is unclean and the tile goes on. INSTRUCTION_FETCH, in a slot of the
instruction read port, puts the row of the PC into the fetch buffer when the core runs, the buffer has room and the row's bank is ON
with good parity, and drops from it the rows that the PC has passed (DESIGN CHOICE of log entry 114); nothing else changes. -/
def Obligations.FetchAndInstructionFetch : Prop :=
  (∀ (s : State) (t : Nat) (w : W64) (x : Nat), s.Issues t w x →
     let o := ((s.tile t).s (w.extractLsb' 16 5).toNat).toNat
     let s1 := (s.offer t w).1
     let q := s.tile t
     let word (i : Nat) : Nat := ofBytes (((s1.coreLoad t x o 32).1.drop (8 * i)).take 8)
     let desc := decodeDesc (word 0) (word 1) (word 2) (word 3) o x x q.order.epoch q.order.seq
     q.fetch.queued < 8 → o % 32 = 0 → o + 32 ≤ 0x180000 →
     (s1.coreLoad t x o 32).2.1 = [] →
     s1.descErr t (word 2) (word 3) (bits (word 0) 63 63 + bits (word 1) 63 63) desc = none →
     Completes (.fetch t w) s (fun s' =>
       (s'.tile t).fetch = { q.fetch with queue := q.fetch.queue ++ [desc.moved] } ∧
       (s'.tile t).order = { q.order with seq := q.order.seq + 1 } ∧ SameScalars s s' t ∧ Falls s s' t x ∧
       (s'.tile t).mem = q.mem ∧ (s'.tile t).bWord = some w ∧ (∀ u, u ≠ t → s'.tile u = s.tile u) ∧
       s' = { s with regs := s'.regs, tiles := s'.tiles })) ∧
  (∀ (s : State) (t : Nat) (w : W64) (x : Nat), s.Issues t w x →
     let o := ((s.tile t).s (w.extractLsb' 16 5).toNat).toNat
     let s1 := (s.offer t w).1
     let q := s.tile t
     let word (i : Nat) : Nat := ofBytes (((s1.coreLoad t x o 32).1.drop (8 * i)).take 8)
     let desc := decodeDesc (word 0) (word 1) (word 2) (word 3) o x x q.order.epoch q.order.seq
     let rejects (s' : State) : Prop := (s'.tile t).fetch = q.fetch ∧ (s'.tile t).order = q.order ∧ SameScalars s s' t ∧
       Falls s s' t x ∧ (s'.tile t).mem = q.mem ∧ (s'.tile t).unclean = true ∧ (∀ u, u ≠ t → s'.tile u = s.tile u)
     (8 ≤ q.fetch.queued → 0 ∉ q.did → Completes (.fetch t w) s (fun s' => s'.tile t = { q with did := 0 :: q.did } ∧
       s'.fld F.TL_PERF_QUEUE_COUNT t 0 = (s.fld F.TL_PERF_QUEUE_COUNT t 0 + 1) % 2 ^ F.TL_PERF_QUEUE_COUNT.width ∧
       (∀ u, u ≠ t → s'.tile u = s.tile u) ∧ s' = { s with regs := s'.regs, tiles := s'.tiles })) ∧
     (8 ≤ q.fetch.queued → 0 ∈ q.did → Completes (.fetch t w) s (fun s' => s' = s)) ∧
     (q.fetch.queued < 8 → o % 32 ≠ 0 ∨ 0x180000 < o + 32 → Completes (.fetch t w) s (fun s' => rejects s' ∧
       s'.fld F.TL_ERR_STATUS_VALID t 0 = 1)) ∧
     (∀ c a, q.fetch.queued < 8 → o % 32 = 0 → o + 32 ≤ 0x180000 → (s1.coreLoad t x o 32).2.1 = [] →
       s1.descErr t (word 2) (word 3) (bits (word 0) 63 63 + bits (word 1) 63 63) desc = some (c, a) →
       Completes (.fetch t w) s (fun s' => rejects s' ∧ s'.fld F.XC_FE_ERR_VALID t 0 = 1 ∧
         (s.fld F.XC_FE_ERR_VALID t 0 = 0 → s'.fld F.XC_FE_ERR_CODE t 0 = c % 2 ^ F.XC_FE_ERR_CODE.width)))) ∧
  (∀ (s : State) (t : Nat), tileOk t = true →
     let q := s.tile t
     let g := q.pc / 4
     q.core = .run → q.pc < 0x30000 → s.ticking = true → q.fetchAt ≤ s.esc.tc → (s.esc.tc - q.fetchAt) % 4 = 0 →
     2 ∉ q.did → g ∉ q.fetchRows → ¬ (q.loop.isSome = true ∧ g ∈ q.loopRows) →
     (q.fetchRows.filter (fun r => decide (g ≤ r))).length < 4 → s.rowOn t g = true →
     (∀ a, 32 * g ≤ a → a < 32 * g + 32 → (s.spAt t a).2 = false) →
     Completes (.instructionFetch t) s (fun s' =>
       s'.tile t = { q with fetchRows := q.fetchRows.filter (fun r => decide (g ≤ r)) ++ [g], did := 2 :: q.did } ∧
       (∀ u, u ≠ t → s'.tile u = s.tile u) ∧ s' = { s with tiles := s'.tiles }))

/-- SIGI, and SIG and SIG.R on a counter of the own tile: with no FENCE.W outstanding, and for SIG.R no write in its
scope, S rises by n and the signaller is recorded, unless the counter already records a later one of the same cycle in the
order of R69; the counter's C, every other counter and the scalar registers stay. SIG and SIG.R on a counter that is not the
own tile's leave as one SIGNAL packet that names the counter, the amount and the device, which is RB[14:0] when REMOTE is
set; no counter changes. -/
def Obligations.TileSignals : Prop :=
  (∀ (s : State) (t : Nat) (w : W64) (x k n : Nat), s.Issues t w x →
     let q := s.tile t
     let cref := ((q.s (w.extractLsb' 21 5).toNat).extractLsb' 0 32).toNat
     let amount := ((q.s (w.extractLsb' 16 5).toNat).extractLsb' 0 32).toNat
     let c := s.ctr k
     let later : Prop := c.edge = s.edge + 1 ∧ (t < c.unit ∨ (t = c.unit ∧ s.self < c.dev))
     let after (s' : State) : Prop :=
       (later → s'.ctr k = { c with s := c.s + n }) ∧
       (¬ later → s'.ctr k = { c with s := c.s + n, valid := true, dev := s.self, unit := t, beat := s.beat
                                      cycle := s.sigCycle, edge := s.edge + 1 }) ∧
       (∀ j, j ≠ k → s'.ctr j = s.ctr j) ∧ SameScalars s s' t ∧ Falls s s' t x ∧ s'.net = s.net
     q.order.epoch ≤ q.order.done → 0 < n → c.s + n < 2 ^ 48 →
     (n = (w.extractLsb' 0 16).toNat → k = tileCtr t (w.extractLsb' 20 6).toNat → Completes (.sigi t w) s after) ∧
     (n = amount → crefKey (some t) cref = some k → k / 64 = t → w.getLsbD 10 = false →
       Completes (.sig t w) s after ∧
       (s.pendWrites (.tile t) = [] → Completes (.sigR t w) s after))) ∧
  (∀ (s : State) (t : Nat) (w : W64) (x k : Nat), s.Issues t w x →
     let q := s.tile t
     let cref := ((q.s (w.extractLsb' 21 5).toNat).extractLsb' 0 32).toNat
     let dev := if w.getLsbD 10 then ((q.s (w.extractLsb' 11 5).toNat).extractLsb' 0 15).toNat else s.self
     let after (rel : Bool) (s' : State) : Prop :=
       s'.counters = s.counters ∧ SameScalars s s' t ∧ Falls s s' t x ∧
       s'.net = s.net ++ [atSource (0, t) (mkPacket
         { dest := dev * 2 ^ 48, unit := t, dev := s.self, kind := 5, rel := rel, cref := keyCref k
           n := ((q.s (w.extractLsb' 16 5).toNat).extractLsb' 0 32).toNat })]
     q.order.epoch ≤ q.order.done → crefKey (some t) cref = some k → (dev ≠ s.self ∨ 0x20000 ≤ k ∨ k / 64 ≠ t) →
     Completes (.sig t w) s (after false) ∧
     ((∀ p ∈ s.pendWrites (.tile t), ∀ a ∈ p.addrs, s.inScope k dev a = false) → Completes (.sigR t w) s (after true)))

/-- FENCE.W and the events that end its and SIG.R's hold. A FENCE.W with no earlier write outstanding is released at
its issue; with one outstanding it holds later signals. On a delivered edge FENCE_RELEASE releases the oldest FENCE.W once its writes
are delivered, and SIG_R_DEPART lets the oldest SIG.R with no write in scope leave the queue of held signals: it raises a counter of
the own tile, and otherwise goes out as one SIGNAL packet; on an edge that is not delivered they do nothing. CONS takes its place,
by unit and device, among the CONS operations of the cycle; as one takes effect at the cycle's end it raises C by n where that
does not pass S, and otherwise changes no counter and records an underrun. READ gives S and C of a tile or device counter,
with the counter's latency. -/
def Obligations.FencesAndCounts : Prop :=
  (∀ (s : State) (t : Nat) (w : W64) (x : Nat),
     let q := s.tile t
     (s.Issues t w x → q.order.done = q.order.epoch → q.order.held = [] →
       (s.pendWrites (.tile t) = [] → Completes (.fenceW t w) s (fun s' =>
         (s'.tile t).order.epoch = q.order.epoch + 1 ∧ (s'.tile t).order.done = q.order.epoch + 1 ∧ SameScalars s s' t ∧
         Falls s s' t x ∧ s'.counters = s.counters ∧ s'.net = s.net)) ∧
       ((∃ p ∈ s.pendWrites (.tile t), p.epoch ≤ q.order.done) → Completes (.fenceW t w) s (fun s' =>
         (s'.tile t).order.epoch = q.order.epoch + 1 ∧ (s'.tile t).order.done = q.order.done ∧ SameScalars s s' t ∧
         Falls s s' t x ∧ s'.counters = s.counters ∧ s'.net = s.net))) ∧
     (tileOk t = true → s.esc.live = false → Completes (.fenceRelease (.tile t)) s (fun s' => s' = s) ∧
       Completes (.sigRDepart (.tile t)) s (fun s' => s' = s)) ∧
     (tileOk t = true → s.esc.live = true → q.order.done < q.order.epoch → (∀ p ∈ s.pendWrites (.tile t), q.order.done < p.epoch) →
       q.order.held = [] → Completes (.fenceRelease (.tile t)) s (fun s' =>
         (s'.tile t).order = { q.order with done := q.order.done + 1 } ∧ (∀ u, u ≠ t → s'.tile u = s.tile u) ∧
         s' = { s with tiles := s'.tiles })) ∧
     (∀ h k, tileOk t = true → s.esc.live = true → q.order.held = [h] → h.rel = true → s.canLeave (.tile t) h = true →
       crefKey (some t) h.cref.toNat = some k →
       Completes (.sigRDepart (.tile t)) s (fun s' => (s'.tile t).order = { q.order with held := [] } ∧
         (∀ u, u ≠ t → s'.tile u = s.tile u) ∧
         (h.dev = s.self → k < 0x20000 → k / 64 = t → 0 < h.n → (s.ctr k).s + h.n < 2 ^ 48 → s'.net = s.net ∧
           (s'.ctr k).s = (s.ctr k).s + h.n ∧ (s'.ctr k).c = (s.ctr k).c ∧ ∀ j, j ≠ k → s'.ctr j = s.ctr j) ∧
         (h.dev ≠ s.self ∨ 0x20000 ≤ k ∨ k / 64 ≠ t → s'.counters = s.counters ∧
           s'.net = s.net ++ [atSource (0, t) (mkPacket { dest := h.dev * 2 ^ 48, unit := t, dev := s.self, kind := 5, rel := true
                                                          cref := keyCref k, n := h.n })])))) ∧
  (∀ (s : State) (t : Nat) (w : W64) (x k : Nat), s.Issues t w x →
     let q := s.tile t
     let cref := ((q.s (w.extractLsb' 21 5).toNat).extractLsb' 0 32).toNat
     let n := ((q.s (w.extractLsb' 16 5).toNat).extractLsb' 0 32).toNat
     let rb := (w.extractLsb' 11 5).toNat
     crefKey (some t) cref = some k →
     Completes (.cons t w) s (fun s' =>
       s'.consOps = insertCons ⟨k, n, t, s.self⟩ s.consOps ∧ SameScalars s s' t ∧ Falls s s' t x ∧ (s'.tile t).bWord = some w ∧
       (∀ u, u ≠ t → s'.tile u = s.tile u) ∧ s' = { s with regs := s'.regs, tiles := s'.tiles, consOps := s'.consOps }) ∧
     (k < 0x30000 → 2 ≤ rb → Completes (.read t w) s (fun s' =>
       (∀ r, (s'.tile t).s r = if r = rb then BitVec.ofNat 64 (s.ctr k).s
         else if r = rb + 1 then BitVec.ofNat 64 (s.ctr k).c else q.s r) ∧
       (s'.tile t).sready.read 0 rb = x + ctrLatency t k ∧ Issued s s' t w x ∧ Falls s s' t x))) ∧
  (∀ (s : State) (k n u d : Nat), s.consOps = [⟨k, n, u, d⟩] →
     let c := s.ctr k
     let s' := s.applyConsOps
     s'.consOps = [] ∧ (∀ j, j ≠ k → s'.ctr j = s.ctr j) ∧
     (c.c + n ≤ c.s → s'.ctr k = { c with c := c.c + n } ∧ s'.errs = s.errs ∧ s'.regs = s.regs) ∧
     (c.s < c.c + n → s'.counters = s.counters ∧ s'.errs.length = s.errs.length + 1))

/-- WAIT and WAITC stall their word with PC and scalar registers as they are. A WAIT on a counter that has reached n goes on
after the counter's latency, if that falls in the segment; an unmet one, and every WAITC of an amount above 0, joins the queue
of waiters in ascending unit; a WAITC of 0 passes. A word whose latency is over issues once slot B's unit accepts it.
WAIT_RELEASE and WAITC_GRANT on a tile or device counter complete, in the order of the queue of waiters, the first whose
condition holds: it leaves the queue, a WAITC takes its amount, an engine goes on at once and a tile's word after the
counter's latency. -/
def Obligations.WaitsAndWaiters : Prop :=
  (∀ (s : State) (t : Nat) (w : W64) (x k : Nat), s.Issues t w x →
     let q := s.tile t
     let cref := ((q.s (w.extractLsb' 21 5).toNat).extractLsb' 0 32).toNat
     let ra := q.s (w.extractLsb' 16 5).toNat
     let n := (ra.extractLsb' 0 48).toNat
     let m := (ra.extractLsb' 0 32).toNat
     let lat := ctrLatency t k
     let stalls (s' : State) (p : WaitWord) : Prop :=
       (s'.tile t).wait = some p ∧ (s'.tile t).pc = q.pc ∧ (s'.tile t).bWord = none ∧ SameScalars s s' t ∧
         (∀ u, u ≠ t → s'.tile u = s.tile u) ∧
         (0 ∉ q.did → s'.fld F.TL_PERF_SYNC_COUNT t 0 = (s.fld F.TL_PERF_SYNC_COUNT t 0 + 1) % 2 ^ F.TL_PERF_SYNC_COUNT.width) ∧
         s' = { s with regs := s'.regs, tiles := s'.tiles, waiters := s'.waiters }
     crefKey (some t) cref = some k → k < 0x30000 →
     (n ≤ (s.ctr k).s → s.cycleNow + lat ≤ s.esc.len → Completes (.wait t w) s (fun s' =>
       stalls s' ⟨w, k, false, n, x, some (x + lat)⟩ ∧ s'.waiters = s.waiters)) ∧
     ((s.ctr k).s < n ∨ s.esc.len < s.cycleNow + lat → Completes (.wait t w) s (fun s' =>
       stalls s' ⟨w, k, false, n, x, none⟩ ∧ s'.waiters = insertWaiter ⟨t, k, false, n⟩ s.waiters)) ∧
     (m = 0 → Completes (.waitc t w) s (fun s' => Issued s s' t w x ∧ SameScalars s s' t ∧ Falls s s' t x)) ∧
     (0 < m → Completes (.waitc t w) s (fun s' =>
       stalls s' ⟨w, k, true, m, x, none⟩ ∧ s'.waiters = insertWaiter ⟨t, k, true, m⟩ s.waiters))) ∧
  (∀ (s : State) (t c : Nat) (p : WaitWord), (s.tile t).wait = some p → p.ready = some c → c ≤ s.esc.tc →
     s.acceptB t (slotB p.word) (s.tile t).s = true →
     let s' := s.retryWait t
     (s'.tile t).wait = none ∧ (s'.tile t).bWord = some p.word ∧ SameScalars s s' t ∧ Falls s s' t s.esc.tc) ∧
  (∀ (s : State) (cref : W32) (k : Nat) (v : Waiter) (pre post : List Waiter),
     let holds (u : Waiter) : Prop := if u.consume then u.amt ≤ (s.ctr k).s - (s.ctr k).c else u.amt ≤ (s.ctr k).s
     let event : Instr := if v.consume then .waitcGrant cref else .waitRelease cref
     let after (s' : State) : Prop := s'.waiters = pre ++ post ∧ (∀ j, j ≠ k → s'.ctr j = s.ctr j) ∧
       s'.ctr k = { s.ctr k with c := (s.ctr k).c + (if v.consume then v.amt else 0) }
     crefKey none cref.toNat = some k → k < 0x30000 → (v.consume = true → s.consOps = [] ∧ s.sigOps = []) →
       s.waiters = pre ++ v :: post → v.key = k → holds v →
     (∀ u ∈ pre, u.key = k → u.consume = v.consume → ¬ holds u) → 0 < v.amt →
     (∀ r, r < 8 → v.unit = 3 * 4096 + r → Completes event s (fun s' => after s' ∧ (s'.rve r).wait = none)) ∧
     (∀ t p, t < 1536 → v.unit = t → (s.tile t).wait = some p → s.cycleNow + ctrLatency t k ≤ s.esc.len →
       Completes event s (fun s' => after s' ∧
         s'.tile t = { s.tile t with wait := some { p with ready := some (s.esc.tc + ctrLatency t k) } } ∧
         ∀ u, u ≠ t → s'.tile u = s.tile u)))

/-- VARITH, VFMA and VCMP on the integer types, lane by lane in two's complement of the lane's width: sum, difference,
product, maximum, minimum, absolute value, negation and shifts by the lane of RB; the product plus RD; all ones or
zero by the relation. VARITH and VFMA on FP32, BF16 and FP16, lane by lane: the exact sum, difference, product, or
product plus RD, of the lanes' values is rounded once to nearest even; the greater or the lesser of the two, NaN where either is NaN
and −0 below +0; the absolute value and the negation; the latency of sums, differences and products is that of Table 3.5. VCMP on
the floating-point types, E4M3 and E5M2 among them: all ones or zero by the relation of the lanes' values, ±0 being equal and NaN
unordered. -/
def Obligations.VectorArithmetic : Prop :=
  (∀ (s : State) (t : Nat) (w : W64) (n : Nat), s.SlotBNext t w →
     let q := s.tile t
     let rd := (w.extractLsb' 53 5).toNat
     let ty := w.extractLsb' 40 3
     let fn := w.extractLsb' 32 8
     let lane (v : BitVec 512) (i : Nat) : BitVec n := v.extractLsb' (n * i) n
     let a (i : Nat) : BitVec n := lane (q.v (w.extractLsb' 48 5).toNat) i
     let b (i : Nat) : BitVec n := lane (q.v (w.extractLsb' 43 5).toNat) i
     let d (i : Nat) : BitVec n := lane (q.v rd) i
     ((ty = 5 ∧ n = 32) ∨ (ty = 6 ∧ n = 16) ∨ (ty = 7 ∧ n = 8)) →
     Completes (.varith t w) s (fun s' => ∃ v lat, VectorResult s s' t rd lat v ∧ ∀ i, n * i < 512 →
       (fn = 0 → lane v i = a i + b i) ∧ (fn = 1 → lane v i = a i - b i) ∧ (fn = 2 → lane v i = a i * b i) ∧
       (fn = 3 → (lane v i).toInt = max (a i).toInt (b i).toInt) ∧
       (fn = 4 → (lane v i).toInt = min (a i).toInt (b i).toInt) ∧
       (fn = 5 → lane v i = if (a i).toInt < 0 then - a i else a i) ∧ (fn = 6 → lane v i = - a i) ∧
       (fn = 8 → lane v i = a i <<< ((b i).toNat % n)) ∧ (fn = 9 → lane v i = a i >>> ((b i).toNat % n)) ∧
       (fn = 10 → lane v i = (a i).sshiftRight ((b i).toNat % n))) ∧
     Completes (.vfma t w) s (fun s' => ∃ v lat, VectorResult s s' t rd lat v ∧
       ∀ i, n * i < 512 → lane v i = a i * b i + d i) ∧
     Completes (.vcmp t w) s (fun s' => ∃ v lat, VectorResult s s' t rd lat v ∧ ∀ i, n * i < 512 →
       (fn = 0 → lane v i = if a i = b i then BitVec.allOnes n else 0) ∧
       (fn = 1 → lane v i = if (a i).toInt < (b i).toInt then BitVec.allOnes n else 0) ∧
       (fn = 2 → lane v i = if (a i).toInt ≤ (b i).toInt then BitVec.allOnes n else 0) ∧
       (fn = 3 → lane v i = if a i = b i then 0 else BitVec.allOnes n))) ∧
  (∀ (s : State) (t : Nat) (w : W64) (f : Fmt) (n : Nat), s.SlotBNext t w →
     let q := s.tile t
     let rd := (w.extractLsb' 53 5).toNat
     let ty := w.extractLsb' 40 3
     let fn := w.extractLsb' 32 8
     let a (i : Nat) := f.decode (lane n (q.v (w.extractLsb' 48 5).toNat) i)
     let b (i : Nat) := f.decode (lane n (q.v (w.extractLsb' 43 5).toNat) i)
     let d (i : Nat) := f.decode (lane n (q.v rd) i)
     let code (x : Machine.Num) : Nat := f.encode .near false x
     ((ty = 0 ∧ f = fp32 ∧ n = 32) ∨ (ty = 1 ∧ f = bf16 ∧ n = 16) ∨ (ty = 2 ∧ f = fp16 ∧ n = 16)) →
     Completes (.varith t w) s (fun s' => ∃ v lat, VectorResult s s' t rd lat v ∧
       (w.extractLsb' 58 6 = 0x10 → lat = if fn = 2 then (if s.profile = 2 then 3 else 4) else 2) ∧ ∀ i, n * i < 512 →
       (fn = 0 → lane n v i = f.encode .near false ((a i).add (b i)) % 2 ^ n) ∧
       (fn = 1 → lane n v i = f.encode .near false ((a i).add (b i).neg) % 2 ^ n) ∧
       (fn = 2 → lane n v i = f.encode .near false ((a i).mul (b i)) % 2 ^ n) ∧
       (fn = 3 → lane n v i = (if a i = .nan ∨ b i = .nan then f.nanCode else if (a i).lt (b i) then code (b i)
         else if (b i).lt (a i) then code (a i) else if (a i).isNeg then code (b i) else code (a i)) % 2 ^ n) ∧
       (fn = 4 → lane n v i = (if a i = .nan ∨ b i = .nan then f.nanCode else if (a i).lt (b i) then code (a i)
         else if (b i).lt (a i) then code (b i) else if (a i).isNeg then code (a i) else code (b i)) % 2 ^ n) ∧
       (fn = 5 → lane n v i = code (a i).abs % 2 ^ n) ∧ (fn = 6 → lane n v i = code (a i).neg % 2 ^ n)) ∧
     Completes (.vfma t w) s (fun s' => ∃ v lat, VectorResult s s' t rd lat v ∧
       (w.extractLsb' 58 6 = 0x11 → lat = if s.profile = 2 then 3 else 4) ∧ ∀ i, n * i < 512 →
       lane n v i = f.encode .near false (((a i).mul (b i)).add (d i)) % 2 ^ n)) ∧
  (∀ (s : State) (t : Nat) (w : W64) (f : Fmt) (n : Nat), s.SlotBNext t w →
     let q := s.tile t
     let rd := (w.extractLsb' 53 5).toNat
     let ty := w.extractLsb' 40 3
     let fn := w.extractLsb' 32 8
     let a (i : Nat) := f.decode (lane n (q.v (w.extractLsb' 48 5).toNat) i)
     let b (i : Nat) := f.decode (lane n (q.v (w.extractLsb' 43 5).toNat) i)
     let mask (c : Bool) : Nat := if c then 2 ^ n - 1 else 0
     ((ty = 0 ∧ f = fp32 ∧ n = 32) ∨ (ty = 1 ∧ f = bf16 ∧ n = 16) ∨ (ty = 2 ∧ f = fp16 ∧ n = 16) ∨
       (ty = 3 ∧ f = fpE4M3 ∧ n = 8) ∨ (ty = 4 ∧ f = fpE5M2 ∧ n = 8)) →
     Completes (.vcmp t w) s (fun s' => ∃ v lat, VectorResult s s' t rd lat v ∧ ∀ i, n * i < 512 →
       (fn = 0 → lane n v i = mask ((a i).eq (b i))) ∧ (fn = 1 → lane n v i = mask ((a i).lt (b i))) ∧
       (fn = 2 → lane n v i = mask ((a i).lt (b i) || (a i).eq (b i))) ∧ (fn = 3 → lane n v i = mask (!(a i).eq (b i)))))

/-- VLOGIC, VSEL, VPERM, VBCAST and VMOVS: the bitwise function; RA's lane where RD's lane is not zero, else RB's;
RA's lane that RB's lane numbers, modulo the lane count; the scalar's low bits in every lane; one lane, zero-extended,
into a scalar register. VCVT, VRED and the slot B NOP: between types of one width every lane is converted; to a wider
type, the half of RA that FN[2] selects; to a type of half the width, into the half of RD that FN[2] selects, the
other half kept. The layout of a widening by four, from 8 to 32 bits, is the model's (DESIGN CHOICE of log entry 21). VRED leaves the balanced tree's value in lane 0 and zero in the others. NOP changes nothing. -/
def Obligations.VectorMovesAndConversions : Prop :=
  (∀ (s : State) (t : Nat) (w : W64) (n : Nat), s.SlotBNext t w →
     let q := s.tile t
     let rd := (w.extractLsb' 53 5).toNat
     let ra := (w.extractLsb' 48 5).toNat
     let rb := (w.extractLsb' 43 5).toNat
     let fn := w.extractLsb' 32 8
     let ty := w.extractLsb' 40 3
     let a := q.v ra
     let b := q.v rb
     let idx := (w.extractLsb' 32 6).toNat
     (((ty = 0 ∨ ty = 5) ∧ n = 32) ∨ ((ty = 1 ∨ ty = 2 ∨ ty = 6) ∧ n = 16) ∨ ((ty = 3 ∨ ty = 4 ∨ ty = 7) ∧ n = 8)) →
     Completes (.vlogic t w) s (fun s' => ∃ v lat, VectorResult s s' t rd lat v ∧
       (fn = 0 → v = a &&& b) ∧ (fn = 1 → v = a ||| b) ∧ (fn = 2 → v = a ^^^ b) ∧ (fn = 3 → v = a &&& ~~~b) ∧
       (fn = 4 → v = ~~~a)) ∧
     Completes (.vsel t w) s (fun s' => ∃ v lat, VectorResult s s' t rd lat v ∧ ∀ i, n * i < 512 →
       lane n v i = if lane n (q.v rd) i ≠ 0 then lane n a i else lane n b i) ∧
     Completes (.vperm t w) s (fun s' => ∃ v lat, VectorResult s s' t rd lat v ∧ ∀ i, n * i < 512 →
       lane n v i = lane n a (lane n b i % (512 / n))) ∧
     Completes (.vbcast t w) s (fun s' => ∃ v lat, VectorResult s s' t rd lat v ∧ ∀ i, n * i < 512 →
       lane n v i = (q.sOld ra).toNat % 2 ^ n) ∧
     (n * idx < 512 → Completes (.vmovs t w) s (fun s' =>
       (∀ r, (s'.tile t).s r = if r = rd ∧ r ≠ 0 then BitVec.ofNat 64 (lane n a idx) else q.s r) ∧
       (s'.tile t).vreg = q.vreg ∧ (s'.tile t).bWord = none ∧ (∀ u, u ≠ t → s'.tile u = s.tile u) ∧
       s' = { s with tiles := s'.tiles, freeCtr := s'.freeCtr }))) ∧
  (∀ (s : State) (t : Nat) (w : W64) (ws wd : Nat), s.SlotBNext t w →
     let q := s.tile t
     let rd := (w.extractLsb' 53 5).toNat
     let a := q.v (w.extractLsb' 48 5).toNat
     let dt := (w.extractLsb' 40 3).toNat
     let st := (w.extractLsb' 37 3).toNat
     let half := (w.extractLsb' 34 1).toNat
     let cv (x : Nat) : Nat := convert st dt (if w.getLsbD 35 then .zero else .near) (w.getLsbD 36) x
     ws = tyWidth st → wd = tyWidth dt →
     Completes (.vcvt t w) s (fun s' => ∃ v, VectorResult s s' t rd 3 v ∧
       (ws = wd → ∀ i, wd * i < 512 → lane wd v i = cv (lane ws a i) % 2 ^ wd) ∧
       (ws < wd → ∀ i, wd * i < 512 → lane wd v i = cv (lane ws a (half * (256 / ws) + i)) % 2 ^ wd) ∧
       (ws = 2 * wd → (∀ i, ws * i < 512 → lane wd v (half * (256 / wd) + i) = cv (lane ws a i) % 2 ^ wd) ∧
         ∀ i, ws * i < 512 → lane wd v ((1 - half) * (256 / wd) + i) = lane wd (q.v rd) ((1 - half) * (256 / wd) + i))) ∧
     Completes (.vred t w) s (fun s' => ∃ v lat, VectorResult s s' t rd lat v ∧
       (∀ i, 0 < i → wd * i < 512 → lane wd v i = 0) ∧
       lane wd v 0 = (treeReduce (arithLane dt (redFn (w.extractLsb' 32 8).toNat)) 6 (lanes wd a)).headD 0 % 2 ^ wd) ∧
     Completes (.slotBNop t w) s (fun s' => s'.tile t = { q with bWord := none } ∧
       (∀ u, u ≠ t → s'.tile u = s.tile u) ∧ s' = { s with tiles := s'.tiles }))

/-- LDS and LDV from a byte address RA + offset that is aligned and lies in the scratchpad: the load is on its way, its
destination is ready after the latency of Table 3.5, and it claims its bank A cycles on, unless an LDS joins a load entry. One
outside the scratchpad gives zero; one misaligned writes no register; either, where its word's errors were not recorded with slot
A's and TL_ERR holds none, is captured there with the lower code, 5 with the byte offset or 6 with the device address. As the access
takes place, with every bank ON and good parity, the bytes are those of the stores before it that are still in the gather buffer,
else the bank's; LDS extends them by SZ into a register that no later word has written, and nothing else changes. STS puts its bytes
into a store group, where the tile's own later loads find them, and STV waits for its two banks; neither writes a bank as it issues.
STORE_GROUP_WRITE, four cycles after the group was opened and after the exchange accesses of that cycle, writes into its row for
every byte the last store of it, or discards it where the bank is not ON, and loads of that cycle still find the stores; the write of
an STV writes its 64 bytes. Bytes other than those stored are as before. -/
def Obligations.LoadsAndStores : Prop :=
  (∀ (s : State) (t : Nat) (w : W64), s.SlotBNext t w →
     let q := s.tile t
     let rd := (w.extractLsb' 53 5).toNat
     let ra := q.sOld (w.extractLsb' 48 5).toNat
     let sz := (w.extractLsb' 45 3).toNat
     let n := 2 ^ (sz % 4)
     let lat := if s.profile = 2 then 5 else 6
     let ref : WordRef := ⟨q.bPc, s.cycleNow, (w.extractLsb' 32 32).toNat⟩
     let at' := q.bCyc + accessOff s.profile
     let same (s' : State) : Prop := (∀ u, u ≠ t → s'.tile u = s.tile u) ∧ (s'.tile t).mem = q.mem ∧
       (s'.tile t).groups = q.groups ∧ (s'.tile t).bWord = none
     let captures (s' : State) (code info : Nat) : Prop := q.bTold = false → s.fld F.TL_ERR_STATUS_VALID t 0 = 0 →
       s'.fld F.TL_ERR_STATUS_VALID t 0 = 1 ∧ s'.fld F.TL_ERR_STATUS_CODE t 0 = code ∧ s'.fld F.TL_ERR_STATUS_SLOT t 0 = 1 ∧
         s'.fld F.TL_ERR_STATUS_SLOTWORD t 0 = (w.extractLsb' 32 32).toNat ∧ s'.fld F.TL_ERR_INFO_INFO t 0 = info
     let address (o : Nat) : Nat := (0x00C000000000 + t * 0x200000 + o) % 2 ^ 64
     (let o := (ra + (w.extractLsb' 32 13).signExtend 64).toNat
      w.extractLsb' 58 6 = 1 →
      (o % n = 0 → o + n ≤ 0x180000 → Completes (.lds t w) s (fun s' => same s' ∧ (s'.tile t).sreg = q.sreg ∧
        (s'.tile t).vreg = q.vreg ∧ (s'.tile t).coreLds = q.coreLds ++ [⟨ref, q.bCyc, o, n, rd, some sz⟩] ∧
        (rd ≠ 0 → (s'.tile t).sready.read 0 rd = q.bCyc + lat) ∧
        (q.loadJoins q.bCyc (o / 32) = true → (s'.tile t).claims = q.claims ∧ (s'.tile t).loads = q.loads) ∧
        (q.loadJoins q.bCyc (o / 32) = false →
          (s'.tile t).claims = q.claims ++ [⟨at', (s.bankOf t (o / 32)).1, false⟩] ∧
          (s'.tile t).loads = q.loads ++ [⟨o / 32, q.bCyc⟩]) ∧ s' = { s with regs := s'.regs, tiles := s'.tiles })) ∧
      (o % n = 0 → 0x180000 < o + n → Completes (.lds t w) s (fun s' => same s' ∧ (s'.tile t).vreg = q.vreg ∧
        captures s' 6 (address o) ∧ ∀ r, (s'.tile t).s r = if r = rd then 0 else q.s r)) ∧
      (o % n ≠ 0 → Completes (.lds t w) s (fun s' => same s' ∧ captures s' 5 o ∧ (s'.tile t).vreg = q.vreg ∧
        (s'.tile t).sreg = q.sreg))) ∧
     (let o := (ra + 64 * (w.extractLsb' 32 16).signExtend 64).toNat
      w.extractLsb' 58 6 = 3 →
      (o % 64 = 0 → o + 64 ≤ 0x180000 → Completes (.ldv t w) s (fun s' => same s' ∧ (s'.tile t).sreg = q.sreg ∧
        (s'.tile t).vreg = q.vreg ∧ (s'.tile t).coreLds = q.coreLds ++ [⟨ref, q.bCyc, o, 64, rd, none⟩] ∧
        (s'.tile t).vready.read 0 rd = q.bCyc + lat ∧
        (s'.tile t).claims = q.claims ++
          [⟨at', (s.bankOf t (o / 32)).1, false⟩, ⟨at', (s.bankOf t (o / 32 + 1)).1, false⟩] ∧
        s' = { s with tiles := s'.tiles })) ∧
      (o % 64 = 0 → 0x180000 < o + 64 → Completes (.ldv t w) s (fun s' => same s' ∧ (s'.tile t).sreg = q.sreg ∧
        captures s' 6 (address o) ∧ ∀ r, (s'.tile t).v r = if r = rd then 0 else q.v r)) ∧
      (o % 64 ≠ 0 → Completes (.ldv t w) s (fun s' => same s' ∧ captures s' 5 o ∧ (s'.tile t).vreg = q.vreg ∧
        (s'.tile t).sreg = q.sreg)))) ∧
  (∀ (s : State) (t : Nat) (l : CoreLoad), 0 < l.n → l.off + l.n ≤ 0x180000 → s.BanksOn t →
     (∀ a, l.off ≤ a → a < l.off + l.n → (s.spAt t a).2 = false) →
     let q := s.tile t
     let v := ofBytes ((upFrom l.off l.n).map (fun a => (q.overlayByte l.cyc a).getD (s.spAt t a).1))
     let s' := s.loadAccess t l
     let due := l.cyc + latB l.ref.slot s.profile
     (∀ u, u ≠ t → s'.tile u = s.tile u) ∧ (s'.tile t).mem = q.mem ∧ s' = { s with tiles := s'.tiles } ∧
     (∀ z, l.sz = some z → z < 8 → l.n = 2 ^ (z % 4) → (s'.tile t).vreg = q.vreg ∧
       ∀ r, (s'.tile t).s r = if r = l.rd ∧ r ≠ 0 ∧ q.sready.read 0 r = due then
         (if z < 4 then BitVec.ofNat 64 v else (BitVec.ofNat (8 * l.n) v).signExtend 64) else q.s r) ∧
     (l.sz = none → (s'.tile t).sreg = q.sreg ∧
       ∀ r, (s'.tile t).v r = if r = l.rd ∧ q.vready.read 0 r = due then BitVec.ofNat 512 v else q.v r)) ∧
  (∀ (s : State) (t : Nat) (w : W64), s.SlotBNext t w →
     let q := s.tile t
     let rd := (w.extractLsb' 53 5).toNat
     let ra := q.sOld (w.extractLsb' 48 5).toNat
     let n := 2 ^ ((w.extractLsb' 45 3).toNat % 4)
     let ref : WordRef := ⟨q.bPc, s.cycleNow, (w.extractLsb' 32 32).toNat⟩
     let joins (g : StoreGroup) (o : Nat) : Prop := g.row = o / 32 ∧ q.bCyc ≤ g.opened + 3
     let same (s' : State) : Prop := (∀ u, u ≠ t → s'.tile u = s.tile u) ∧ (s'.tile t).mem = q.mem ∧
       (s'.tile t).sreg = q.sreg ∧ (s'.tile t).vreg = q.vreg ∧ (s'.tile t).bWord = none
     (let o := (ra + (w.extractLsb' 32 13).signExtend 64).toNat
      let item : StoreItem := ⟨ref, q.bCyc, o, toBytes (q.sOld rd).toNat n⟩
      w.extractLsb' 58 6 = 2 →
      (o % n = 0 → o + n ≤ 0x180000 → Completes (.sts t w) s (fun s' => same s' ∧
        (∀ g ∈ q.groups, joins g o → { g with items := g.items ++ [item] } ∈ (s'.tile t).groups) ∧
        (∀ g ∈ q.groups, ¬ joins g o → g ∈ (s'.tile t).groups) ∧
        ((∀ g ∈ q.groups, ¬ joins g o) → (s'.tile t).groups = q.groups ++ [⟨o / 32, q.bCyc, [item], false⟩] ∧
          (s'.tile t).claims = q.claims ++ [⟨q.bCyc + 4, (s.bankOf t (o / 32)).1, false⟩]) ∧
        ((∀ g ∈ q.groups, ∀ i ∈ g.items, i.off / 32 = g.row ∧ i.off % 32 + i.data.length ≤ 32) →
         ((∀ g ∈ q.groups, g.row = o / 32 → joins g o) ∨ (∀ g ∈ q.groups, ¬ joins g o)) →
         ∀ i y, i < n → q.bCyc < y → (s'.tile t).overlayByte y (o + i) = item.data[i]?) ∧
        s' = { s with regs := s'.regs, tiles := s'.tiles })) ∧
      (o % n ≠ 0 ∨ 0x180000 < o + n → Completes (.sts t w) s (fun s' => same s' ∧ (s'.tile t).groups = q.groups))) ∧
     (let o := (ra + 64 * (w.extractLsb' 32 16).signExtend 64).toNat
      w.extractLsb' 58 6 = 4 →
      (o % 64 = 0 → o + 64 ≤ 0x180000 → Completes (.stv t w) s (fun s' => same s' ∧ (s'.tile t).groups = q.groups ∧
        (s'.tile t).wides = q.wides ++ [⟨ref, q.bCyc, o, toBytes (q.v rd).toNat 64⟩] ∧
        (s'.tile t).claims = q.claims ++ [⟨q.bCyc + accessOff s.profile, (s.bankOf t (o / 32)).1, false⟩,
          ⟨q.bCyc + accessOff s.profile, (s.bankOf t (o / 32 + 1)).1, false⟩] ∧ s' = { s with tiles := s'.tiles })) ∧
      (o % 64 ≠ 0 ∨ 0x180000 < o + 64 → Completes (.stv t w) s (fun s' => same s' ∧ (s'.tile t).wides = q.wides)))) ∧
  (∀ (s : State) (t : Nat) (x : WideStore), x.off + x.data.length ≤ 0x180000 → 64 = x.data.length → s.BanksOn t → s.RowsApart t →
     SpWritten s (s.wideWrite t x) t x.off x.data ∧ ∀ u, u ≠ t → (s.wideWrite t x).tile u = s.tile u) ∧
  (∀ (s : State) (t row : Nat) (g : StoreGroup) (pre post : List StoreGroup), tileOk t = true → row < 49152 →
     s.esc.live = true →
     let s1 := s.exchangeFirst t
     (s.tile t).groups = pre ++ g :: post → (s1.tile t).groups = (s.tile t).groups → g.row = row → g.opened + 4 = s.esc.tc →
     g.done = false → (∀ h ∈ pre ++ post, ¬ (h.row = row ∧ h.opened + 4 = s.esc.tc ∧ h.done = false)) → s1.RowsApart t →
     Completes (.storeGroupWrite t row) s (fun s' =>
       (s'.tile t).groups = pre ++ { g with done := true } :: post ∧ (∀ u, u ≠ t → s'.tile u = s1.tile u) ∧
       (∀ y a, (s'.tile t).overlayByte y a = (s1.tile t).overlayByte y a) ∧
       (s1.rowOn t row = true → ∀ a, a < 0x180000 → s'.spByte t a =
         if a / 32 = row then ((g.items.filterMap (fun i => i.byte a)).getLast?).getD (s1.spByte t a) else s1.spByte t a) ∧
       (s1.rowOn t row = false → (s'.tile t).mem = (s1.tile t).mem)))

/-- FILL, COPY and ACCW enter the queue of memory operations in the tile's issue order, whatever their operands where their
length is 0, else where these are aligned and in range. MEMOP_COMPLETE, in a delivered cycle in which the head operation has
one row left and its banks unclaimed, writes that row and signals the operation's
counter when CSIG is set, which a FENCE.W issued before it holds back; an operation of length 0 moves nothing. FILL writes the pattern and COPY the source row; ACCW adds each element of the source row to
that of the destination row as it stands, INT32 modulo 2^32, FP32 and BF16 with one rounding to nearest even or, with FN[2] = 1, a
stochastic one from the tile's stream. BANK_OFF turns a bank off once its
mask bit is clear and nothing waits to be written into it; reads of it then give zero. BANK_WAKE_DONE makes a WAKING bank ON
after 1,100 tc. -/
def Obligations.MemoryOperationsAndBanks : Prop :=
  (∀ (s : State) (t : Nat) (w : W64), s.SlotBNext t w →
     let q := s.tile t
     let dst := (q.sOld (w.extractLsb' 53 5).toNat).toNat
     let a := (q.sOld (w.extractLsb' 48 5).toNat).toNat
     let b := q.sOld (w.extractLsb' 43 5).toNat
     let size := 2 ^ (w.extractLsb' 32 2).toNat
     let op (k : MemOpKind) (src len : Nat) (pat : W64) : MemOp :=
       { kind := k, dst := dst, src := src, len := len, pattern := pat, csig := w.getLsbD 42
         cidx := (w.extractLsb' 36 6).toNat, epoch := q.order.epoch, seq := q.order.seq, cyc := q.bCyc, row := 0, half := none }
     let queued (m : MemOp) (s' : State) : Prop :=
       s'.tile t = { q with memops := q.memops ++ [m], order := { q.order with seq := q.order.seq + 1 }, bWord := none } ∧
         (∀ u, u ≠ t → s'.tile u = s.tile u) ∧ s' = { s with tiles := s'.tiles }
     (a = 0 ∨ (dst % size = 0 ∧ a % size = 0 ∧ dst + a ≤ 0x180000) → w.extractLsb' 58 6 = 6 →
       Completes (.fill t w) s (queued (op (.fill size) 0 a b))) ∧
     (b = 0 ∨ (dst % 32 = 0 ∧ a % 32 = 0 ∧ b.toNat % 32 = 0 ∧ dst + b.toNat ≤ 0x180000 ∧ a + b.toNat ≤ 0x180000) →
       (w.extractLsb' 58 6 = 7 → Completes (.copy t w) s (queued (op .copy a b.toNat 0))) ∧
       (w.extractLsb' 58 6 = 8 → Completes (.accw t w) s
         (queued (op (.accw (w.extractLsb' 32 2).toNat (w.getLsbD 34)) a b.toNat 0))))) ∧
  (∀ (s : State) (t : Nat) (m : MemOp) (rest : List MemOp), tileOk t = true → s.esc.live = true →
     let s1 := s.exchangeFirst t
     let q := s1.tile t
     let c := tileCtr t m.cidx
     let signalled (s' : State) : Prop :=
       if m.csig = true ∧ m.epoch ≤ q.order.done then (s'.ctr c).s = (s1.ctr c).s + 1 ∧ (s'.tile t).order = q.order
       else (s'.ctr c).s = (s1.ctr c).s ∧ (s'.tile t).order = { q.order with
         held := q.order.held ++ (if m.csig then [⟨m.epoch, m.seq, false, BitVec.ofNat 32 (keyCref c), 1, s.self⟩] else []) }
     (s.tile t).memops = m :: rest → q.memops = m :: rest → 1 ∉ q.did →
     m.cyc + accessOff s1.profile ≤ s1.esc.tc → (s1.ctr c).s + 1 < 2 ^ 48 →
     (m.len = 0 → Completes (.memopComplete t) s (fun s' => (s'.tile t).memops = rest ∧ (s'.tile t).mem = q.mem ∧
       signalled s' ∧ ∀ u, u ≠ t → s'.tile u = s1.tile u)) ∧
     (∀ g, m.rows[m.row]? = some g → m.row + 1 = m.rows.length → g < 49152 → s1.BanksOn t → s1.RowsApart t →
       q.claimed s1.esc.tc (s1.bankOf t g).1 = false →
       (∀ n, m.kind = .fill n → 0 < n → m.dst + m.len ≤ 0x180000 → Completes (.memopComplete t) s (fun s' =>
         (s'.tile t).memops = rest ∧ signalled s' ∧ (∀ u, u ≠ t → s'.tile u = s1.tile u) ∧
         ∀ a, a < 0x180000 → s'.spByte t a =
           if a / 32 = g ∧ m.dst ≤ a ∧ a < m.dst + m.len then BitVec.ofNat 8 (m.pattern.toNat >>> (8 * ((a - m.dst) % n)))
           else s1.spByte t a)) ∧
       (m.kind = .copy → ∀ h d, h = m.src / 32 + (g - m.dst / 32) →
         (m.half = some d ∨ (m.half = none ∧ d = (upFrom (32 * h) 32).map (s1.spAt t) ∧ (s1.bankOf t h).1 ≠ (s1.bankOf t g).1 ∧
           q.claimed s1.esc.tc (s1.bankOf t h).1 = false)) → d.length = 32 → Completes (.memopComplete t) s (fun s' =>
         (s'.tile t).memops = rest ∧ signalled s' ∧ (∀ u, u ≠ t → s'.tile u = s1.tile u) ∧
         ∀ a, a < 0x180000 → s'.spByte t a = if a / 32 = g then ((d[a % 32]?).getD (0, false)).1 else s1.spByte t a)) ∧
       (∀ ty sr, m.kind = .accw ty sr → ty < 3 → ∀ h d, h = m.src / 32 + (g - m.dst / 32) →
         (m.half = some d ∨ (m.half = none ∧ d = (upFrom (32 * h) 32).map (s1.spAt t) ∧ (s1.bankOf t h).1 ≠ (s1.bankOf t g).1 ∧
           q.claimed s1.esc.tc (s1.bankOf t h).1 = false)) → d.length = 32 →
         let n := if ty = 1 then 2 else 4
         let elem (z : State) (j : Nat) : Nat := ofBytes ((upFrom (32 * g + n * j) n).map (z.spByte t))
         let add (j : Nat) : Nat := ofBytes (((d.map (·.1)).drop (n * j)).take n)
         let r (j : Nat) : Round := if sr then .stoch (srDraw q.matrix.key 2 (s1.fld F.MX_SR_DRAWS_DRAWN t 2 + j)) else .near
         Completes (.memopComplete t) s (fun s' =>
           (s'.tile t).memops = rest ∧ signalled s' ∧ (∀ u, u ≠ t → s'.tile u = s1.tile u) ∧
           (∀ j, n * (j + 1) ≤ 32 → elem s' j =
             (if ty = 2 then elem s1 j + add j else fadd (if ty = 0 then fp32 else bf16) (r j) (elem s1 j) (add j)) % 2 ^ (8 * n)) ∧
           ∀ a, a < 0x180000 → a / 32 ≠ g → s'.spByte t a = s1.spByte t a)))) ∧
  (∀ (s : State) (t b : Nat), tileOk t = true → b < 48 →
     let q := s.tile t
     let same (s' : State) : Prop := (∀ u, u ≠ t → s'.tile u = s.tile u) ∧ s' = { s with tiles := s'.tiles }
     ((s.fld F.SP_BANKMASK_MASK t 0).testBit b = false → q.banks.read .on b ≠ .off → s.bankIdle t b = true →
       Completes (.bankOff t b) s (fun s' => same s' ∧ (s'.tile t).banks.read .on b = .off ∧
         (∀ c, c ≠ b → (s'.tile t).banks.read .on c = q.banks.read .on c) ∧
         ∀ a, (s.bankOf t (a / 32)).1 = b → s'.spByte t a = 0)) ∧
     (∀ since, q.banks.read .on b = .waking since → since + 1100 ≤ s.esc.tc →
       Completes (.bankWakeDone t b) s (fun s' => same s' ∧ (s'.tile t).banks.read .on b = .on ∧
         (s'.tile t).mem = q.mem ∧ ∀ c, c ≠ b → (s'.tile t).banks.read .on c = q.banks.read .on c)))

/-- MLD, MMA and MDRAIN that pass the checks of R139, R140 and R155 issue and change no bank. MLD replaces the stationary
buffer, whose rows are read in the cycles that R151 assigns, none before issue + A and in the order of the list; a read adds
its row's bytes to the buffer, unless a later MLD of that buffer has issued. MMA fixes the accumulator's kind, its reads and the start of every K-group, each at least G
cycles after the one before; as a K-group takes effect it adds to each of the 2,048 elements, INT8 class with wrap in 32 bits
and an FP32 accumulator with one rounding. MDRAIN fixes its drain read and its writes and leaves the accumulators' elements; a
write of overwrite mode stores the 32 bytes of its quarter row. The filler queue: MFQ puts a descriptor that passes its checks
at the end; FILLER_PASS_BEGIN, in a window in which the head's next pass fits, begins that pass; FILLER_ENTRY_COMPLETE frees
an entry that has run all its passes, and signals its counter when it asks for that. -/
def Obligations.MatrixAndFiller : Prop :=
  (∀ (s : State) (t : Nat) (w : W64), s.SlotBNext t w →
     let q := s.tile t
     let x := (w.extractLsb' 32 32).toNat
     let base := (q.sOld (w.extractLsb' 53 5).toNat).toNat
     let pitch := (q.sOld (w.extractLsb' 48 5).toNat).toNat
     let init := (q.sOld (w.extractLsb' 43 5).toNat).toNat
     let same (s' : State) : Prop := (s'.tile t).mem = q.mem ∧ (s'.tile t).sreg = q.sreg ∧ (s'.tile t).vreg = q.vreg ∧
       (s'.tile t).bWord = none ∧ (∀ u, u ≠ t → s'.tile u = s.tile u) ∧ s' = { s with tiles := s'.tiles }
     matrixErr x q.sOld = [] → s.mxCheck t x q.sOld = [] →
     (let b := (w.extractLsb' 42 1).toNat
      let rows := mldRows x base pitch
      w.extractLsb' 58 6 = 0x30 → Completes (.mld t w) s (fun s' => same s' ∧ ∃ ys : List Nat,
       ys.length = rows.length ∧ (∀ y ∈ ys, q.bCyc + accessOff s.profile ≤ y) ∧ ys.Pairwise (· ≤ ·) ∧
       (s'.tile t).matrix.mlds =
         q.matrix.mlds.map (fun j => if j.buf = b then { j with live := false } else j) ++ [⟨b, ys.zip rows, false, true⟩] ∧
       ((s'.tile t).matrix.buf b).valid = true ∧ ((s'.tile t).matrix.buf b).mt = (w.extractLsb' 39 3).toNat ∧
       ((s'.tile t).matrix.buf b).ng = (w.extractLsb' 37 2).toNat + 1 ∧ ((s'.tile t).matrix.buf b).data = [] ∧
       (∀ a, (s'.tile t).matrix.acc a = q.matrix.acc a))) ∧
     (let acc := (w.extractLsb' 42 1).toNat
      let kind : AccKind := if (w.extractLsb' 38 3).toNat = 6 then .int32 else if w.getLsbD 37 then .bf16 else .fp32
      w.extractLsb' 58 6 = 0x31 → Completes (.mma t w) s (fun s' => same s' ∧ ∃ (reads : List (Nat × Nat)) (starts : List Nat),
       starts.length = (w.extractLsb' 32 2).toNat + 1 ∧ (∀ y ∈ starts, q.bCyc < y) ∧
       starts.Pairwise (fun a b => a + groupTc (mmaMt x) (mmaNarrow x) ≤ b) ∧
       (∀ y ∈ starts, ∀ l, q.matrix.lastMma = some l → l < y) ∧
       reads.map (·.2) = mmaHeadRows x base pitch init ++ (upFrom 0 (mmaNg x)).flatMap (mmaGroupRows x base pitch) ∧
       (s'.tile t).matrix.mmas = q.matrix.mmas ++ [⟨x, reads, [], starts, false⟩] ∧
       ((s'.tile t).matrix.acc acc).kind = kind ∧ ((s'.tile t).matrix.acc acc).elems = (q.matrix.acc acc).elems ∧
       (∀ b, (s'.tile t).matrix.buf b = q.matrix.buf b))) ∧
     (let acc := (w.extractLsb' 42 1).toNat
      let rd := q.bCyc + (if s.profile = 2 then 3 else 5)
      w.extractLsb' 58 6 = 0x32 → Completes (.mdrain t w) s (fun s' => same s' ∧
       (s'.tile t).matrix.drains = q.matrix.drains ++ [⟨x, base, pitch, rd, rd + 1, none, false, 0⟩] ∧
       ((s'.tile t).matrix.acc acc).lastDrain = some rd ∧
       (s'.tile t).matrix.drainEnd = some (rd + (if w.extractLsb' 40 2 = 0 then 8 else 4)) ∧
       (∀ a, ((s'.tile t).matrix.acc a).elems = (q.matrix.acc a).elems) ∧
       (∀ b, (s'.tile t).matrix.buf b = q.matrix.buf b)))) ∧
  (∀ (s : State) (t g : Nat) (j : MmaJob) (k : Nat) (row : Nat),
     let q := s.tile t
     let acc := mmaAcc j.word
     let A := loadA j.word j.data
     let buf := q.matrix.buf (mmaBuf j.word)
     let elem (s' : State) (e : Nat) : Nat := ((s'.tile t).matrix.acc acc).elems.read 0 e
     (mmaMt j.word = 6 → ∀ e, e < 2048 → elem (s.mmaGroup t g j) e =
       wrap 32 ((elem s e : Int) + intGroup A buf g (e / 32) (e % 32))) ∧
     (mmaKind j.word = .fp32 → ∀ e, e < 2048 → elem (s.mmaGroup t g j) e =
       fadd fp32 .near (elem s e) (groupValue fp32 (products (mmaMt j.word) buf.mt A buf g (e / 32) (e % 32)))) ∧
     ∀ live, let s' := s.mldCycle t ⟨k, [(s.esc.tc, row)], false, live⟩
      ((s'.tile t).matrix.buf k).data = (q.matrix.buf k).data ++ (if live then s.spAtBytes t (32 * row) 32 else []) ∧
        (s'.tile t).mem = q.mem) ∧
  (∀ (s : State) (t c i : Nat) (j : DrainJob) (kind : AccKind) (el : SMap Nat),
     let o := j.base + i * j.pitch + 32 * (c % 4)
     mdOut j.word = 0 → mdAccum j.word = false → kind ≠ .bf16 → o + 32 ≤ 0x180000 → s.BanksOn t → s.RowsApart t →
     SpWritten s (s.drainPart t j kind el c i) t o ((el.readList 0 (32 * i + 8 * (c % 4)) 8).flatMap (fun v => toBytes v 4))) ∧
  (∀ (s : State) (t : Nat) (w : W64),
     let q := s.tile t
     let off := (q.sOld (w.extractLsb' 53 5).toNat).toNat
     let desc : Filler := ⟨(chunks 8 8 (s.coreLoad t q.bCyc off 64).1).map (fun d => BitVec.ofNat 64 (ofBytes d)), 0⟩
     (s.SlotBNext t w → w.extractLsb' 58 6 = 0x33 → matrixErr (w.extractLsb' 32 32).toNat q.sOld = [] →
       (s.coreLoad t q.bCyc off 64).2.1 = [] → desc.coreFault = [] → s.fillerFault t desc = [] →
       Completes (.mfq t w) s (fun s' =>
         (s'.tile t).matrix = { q.matrix with filler := q.matrix.filler ++ [desc] } ∧ (s'.tile t).bWord = none ∧
         (s'.tile t).mem = q.mem ∧ (∀ u, u ≠ t → s'.tile u = s.tile u) ∧ s' = { s with tiles := s'.tiles })) ∧
     (∀ f rest b p, tileOk t = true → q.matrix.filler = f :: rest → s.boundary (q.sstep - 1) = some b →
       q.core = .boundWait → s.ticking = true → q.bCyc < s.esc.tc → q.matrix.passFrom ≤ s.esc.tc →
       q.matrix.idleAt s.esc.tc = true → f.done < f.repeats →
       s.planPass t s.esc.tc (s.slotsHeld t (s.esc.tc + (b - s.cycleNow))) f = some p →
       p.endsAt ≤ s.esc.tc + (b - s.cycleNow) → Completes (.fillerPassBegin t) s (fun s' =>
         (s'.tile t).matrix.filler = { f with done := f.done + 1 } :: rest ∧
         (s'.tile t).matrix.passEnd = some p.endsAt ∧ (s'.tile t).matrix.passFrom = p.endsAt + 1 ∧
         (s'.tile t).claims = q.claims ++ p.claims ∧ (s'.tile t).mem = q.mem ∧
         (s'.tile t).core = .boundWait ∧ (s'.tile t).sreg = q.sreg ∧ (∀ u, u ≠ t → s'.tile u = s.tile u))) ∧
     (∀ f rest, tileOk t = true → q.matrix.filler = f :: rest → s.fillerDone t = true →
       (s.ctr (tileCtr t f.cidx)).s + 1 < 2 ^ 48 → Completes (.fillerEntryComplete t) s (fun s' =>
         (s'.tile t).matrix.filler = rest ∧ (s'.tile t).matrix.passEnd = none ∧
         (s'.ctr (tileCtr t f.cidx)).s = (s.ctr (tileCtr t f.cidx)).s + (if f.csig then 1 else 0) ∧
         (∀ u, u ≠ t → s'.tile u = s.tile u))))

/-! ## Exchange and packets -/

/-- EXCHANGE_TRANSFER in the delivered tc of the entry's next transfer, where no transfer before it in port order has its bank:
a send drives the 32 bytes of its row, as it stood at the start of the cycle, into its lane slot at the tile's position; a
receive writes into its row what the lane carries there. After the last transfer the entry's signal is due one tc on, and is
then applied when SIGEN is set, by 1 or by the entry's bytes; an entry with COUNT 0 signals in the tc after its START. A transfer
that meets another of the tc in its bank is not performed: a send drives zero bytes, a receive writes nothing. SWITCH_TRANSFER
in its output fc g: the output track carries what entered the input track in fc g − 4, and a row port drives it outward on its
lane. -/
def Obligations.CompiledExchange : Prop :=
  (∀ (s : State) (t e i : Nat), tileOk t = true → e < 384 →
     let q := s.tile t
     let n := s.fld F.XC_XPE_COUNT t e
     let fc := s.fld F.XC_XPE_START t e + i * s.fld F.XC_XPE_PERIOD t e
     let g := ((s.fld F.XC_XPE_ROW t e : Int) + i * signed 16 (s.fld F.XC_XPE_ROWSTEP t e)).toNat
     let key := laneKey (tileDie t) (tileRow t) (s.fld F.XC_XPE_LDIR t e) (s.fld F.XC_XPE_TRACK t e) fc
     let pos := (s.physOf t).getD 0
     let sampled := s.sampleLane (tileDie t) (tileRow t) (s.fld F.XC_XPE_LDIR t e) (s.fld F.XC_XPE_TRACK t e) fc pos
     let moves (s' : State) : Prop := (s'.tile t).xDone.read 0 e = i + 1 ∧
       (s'.tile t).xSig = q.xSig ++ (if i + 1 = n then [(s.esc.tc + 1, e)] else []) ∧ s'.counters = s.counters ∧
       (∀ u, u ≠ t → s'.tile u = s.tile u)
     s.ticking = true → s.entryRuns t e = true → q.xDone.read 0 e = i → i < n → g < 49152 →
     (s.fld F.XC_XPE_DIR t e = 0 → s.cycleNow = fc / 2 - 2 → Completes (.exchangeTransfer t e i) s (fun s' =>
       s'.lanes.read [] key = s.lanes.read [] key ++
         [⟨pos, if s.xMeets t e i = true then zeros 32 else s.spAtBytes t (32 * g) 32⟩] ∧
       (s'.tile t).mem = q.mem ∧ moves s')) ∧
     (s.fld F.XC_XPE_DIR t e = 1 → s.cycleNow = fc / 2 + 1 → s.BanksOn t → s.RowsApart t → sampled.length = 32 →
       Completes (.exchangeTransfer t e i) s (fun s' =>
         SpWritten s s' t (32 * g) (if s.xMeets t e i = true then [] else sampled) ∧ s'.lanes = s.lanes ∧ moves s'))) ∧
  (∀ (s : State) (t e : Nat), tileOk t = true → e < 384 →
     let q := s.tile t
     let k := tileCtr t (s.fld F.XC_XPE_CIDX t e)
     let amount := if s.fld F.XC_XPE_SIGB t e = 1 then s.fld F.XC_XPE_COUNT t e * 32 else 1
     let signalled (s' : State) : Prop :=
       (s'.ctr k).s = (s.ctr k).s + (if s.fld F.XC_XPE_SIGEN t e = 1 then amount else 0)
     (s.ctr k).s + amount < 2 ^ 48 →
     (s.ticking = true → s.entryRuns t e = true → q.xDone.read 0 e = 0 → s.fld F.XC_XPE_COUNT t e = 0 →
       s.cycleNow = s.fld F.XC_XPE_START t e / 2 + 1 → Completes (.exchangeTransfer t e 0) s signalled) ∧
     (∀ c, q.xSig = [(c, e)] → c ≤ s.esc.tc → signalled (s.entrySignals t) ∧ ((s.entrySignals t).tile t).xSig = [])) ∧
  (∀ (s : State) (d e i : Nat), d < 4 → e < 61440 →
     let g := s.fld F.XC_XSE_START d e + i * s.fld F.XC_XSE_PERIOD d e
     let port := s.fld F.XC_XSE_OUT_PORT d e
     let track := s.fld F.XC_XSE_OUT_TRACK d e
     let data := s.inputTrack d (s.fld F.XC_XSE_IN_PORT d e) (s.fld F.XC_XSE_IN_TRACK d e) (g - 4)
     s.ticking = true → s.fld F.XC_XB_CFG_EN d 0 = 1 → e ≤ s.fld F.XC_XB_CFG_LAST d 0 →
     (s.fld F.XC_XSE_CLASSMASK d e).testBit s.esc.cls = true → i < s.fld F.XC_XSE_COUNT d e → s.cycleNow = g / 2 →
     Completes (.switchTransfer d e i) s (fun s' =>
       s'.xout.read (zeros 32) (outKey d port track g) = data ∧
       (port < 24 → s'.lanes.read [] (laneKey d port 1 track g) = s.lanes.read [] (laneKey d port 1 track g) ++ [⟨17, data⟩]) ∧
       (24 ≤ port → s'.lanes = s.lanes) ∧ s' = { s with xout := s'.xout, lanes := s'.lanes }))

/-- WRITE and READ_REQ on DRAM: a WRITE over good words puts its payload at its address, adds its bytes to its landing
counter when it names one, and is answered by an ACK with status 0; a READ_REQ is answered by a READ_RSP that carries
the bytes and changes no memory. One whose path or line is busy enters the request queue and changes no memory yet (log 117). The
destination and source of the answers are the model's choice (log 25). WRITE, WRITE_ACC and READ_REQ on a tile's scratchpad with
the exchange slots of their rows open, within the 64 bytes of a tile cycle, and nothing waiting before them: the bytes land, or are
added as 32-bit integers modulo 2^32; a read carries the bytes as they stood at the start of the cycle; each is answered. Of a longer
WRITE the first 64 bytes land, and the rest waits in the landing buffer, not acknowledged yet (R105, R109; log 121). -/
def Obligations.PacketsToMemory : Prop :=
  (∀ (s : State) (d port a : Nat) (p : Packet), s.place p.destAddr = .dram a → s.PathsSound →
     (∀ w ∈ wordsOf a p.len, s.dramCheck w = 0) →
     (∀ c, (c = Instr.writePacket d port p ∧ s.Decodes 1 d port p ∧ p.srcUnit / 4096 ≠ 9 ∨
         c = .readReqPacket d port p ∧ s.Decodes 3 d port p) →
       s.lineHeld a p.len = true → Completes c s (fun s' =>
         (s'.root (s.stackOf a)).reqs = (s.root (s.stackOf a)).reqs ++ [⟨a, p.len, .packet p⟩] ∧ s'.net = (s.take p).net ∧
         SameDram s s' ∧ SameTiles s s' ∧ s'.counters = s.counters ∧ s'.errs = s.errs)) ∧
     (s.lineHeld a p.len = false → s.Decodes 1 d port p → p.srcUnit / 4096 ≠ 9 →
       (∀ k, bit p.n 0 = true → crefKey none p.cref = some k → (s.ctr k).s + p.len < 2 ^ 48) →
       Completes (.writePacket d port p) s (fun s' => DramWritten s s' a p.payload ∧
         Answered s s' p (5, s.stackOf a) (ackOf p s.self 0) ∧
         (∀ k, (s'.ctr k).s = (s.ctr k).s + (if bit p.n 0 = true ∧ crefKey none p.cref = some k then p.len else 0)) ∧
         SameTiles s s' ∧ s'.errs = s.errs)) ∧
     (s.lineHeld a p.len = false → s.Decodes 3 d port p → Completes (.readReqPacket d port p) s (fun s' =>
       Answered s s' p (5, s.stackOf a) (rspOf p s.self 0 (s.dramBytes a p.len)) ∧ SameDram s s' ∧ SameTiles s s' ∧
       s'.counters = s.counters ∧ s'.errs = s.errs))) ∧
  (∀ (s : State) (d port t o : Nat) (p : Packet), s.place p.destAddr = .tile t o → s.BanksOn t → s.RowsApart t →
     (s.tile t).landing = [] → p.mc = false → bit p.n 0 = false →
     (s.Decodes 1 d port p → p.stype = 0 → p.dtype = 0 → s.slotsOpen t o p.len true = true →
       Completes (.writePacket d port p) s (fun s' =>
         SpWritten s s' t o p.payload ∧ Answered s s' p (2, t) (ackOf p s.self 0) ∧ (∀ u, u ≠ t → s'.tile u = s.tile u) ∧
         SameDram s s' ∧ s'.counters = s.counters)) ∧
     (s.Decodes 1 d port p → p.stype = 0 → p.dtype = 0 → o % 32 = 0 → 64 < p.len → s.slotsOpen t o 64 true = true →
       Completes (.writePacket d port p) s (fun s' =>
         SpWritten s s' t o (p.payload.take 64) ∧ s'.net = (s.take p).net ∧
         (s'.tile t).landing.map (fun l => (l.off, l.data)) = [(o + 64, p.payload.drop 64)] ∧
         (∀ u, u ≠ t → s'.tile u = s.tile u) ∧ SameDram s s' ∧ s'.counters = s.counters)) ∧
     (s.Decodes 2 d port p → p.stype = 0 → p.dtype = 7 → (∀ b, o ≤ b → b < o + p.len → s.spBad t b = false) →
       s.slotsOpen t o p.len true = true →
       Completes (.writeAccPacket d port p) s (fun s' =>
         (∀ i, 4 * i + 4 ≤ p.len → ofBytes (s'.spBytes t (o + 4 * i) 4) =
           (ofBytes (s.spBytes t (o + 4 * i) 4) + ofBytes ((p.payload.drop (4 * i)).take 4)) % 2 ^ 32) ∧
         (∀ b, b < 0x180000 → (b < o ∨ o + p.len ≤ b) → s'.spByte t b = s.spByte t b) ∧
         Answered s s' p (2, t) (ackOf p s.self 0) ∧ (∀ u, u ≠ t → s'.tile u = s.tile u) ∧ SameDram s s')) ∧
     (s.Decodes 3 d port p → s.slotsOpen t o p.len false = true → Completes (.readReqPacket d port p) s (fun s' =>
         Answered s s' p (2, t) (rspOf p s.self 0 (s.spAtBytes t o p.len)) ∧ (s'.tile t).mem = (s.tile t).mem ∧
         (∀ u, u ≠ t → s'.tile u = s.tile u) ∧ SameDram s s' ∧ s'.counters = s.counters)))

/-- SIGNAL and ACCUM: a SIGNAL raises its counter by N and names its sender as the last signaller, unless one that R69 puts
after it in the same cycle already stands there; an ACCUM of zero length, to the accumulation store or to DRAM, is acknowledged, and
restarts the quiet time of the open region that its DEST lies in, if there is one; one of WIDE
form with a single element into an open region at the region's window exponent is acknowledged, and adds its element count to the
region's counter. READ_RSP and ACK at the fetch engine that waits for them, RESERVE at a tile whose landing buffer
has room, and GRANT of a multicast round that has targets left: the read's bytes land at their place in the own scratchpad and the
request leaves the engine's list; the acknowledged write leaves it; the rows are granted and a GRANT sent; the next RESERVE is
sent. The destinations and units of ACK and GRANT, the row port that GRANT leaves by and the rows in N of RESERVE are the model's
choice (log 25). -/
def Obligations.PacketsThatCountOrAnswer : Prop :=
  (∀ (s : State) (d port : Nat) (p : Packet),
     (∀ k, s.Decodes 5 d port p → crefKey none p.cref = some k → 0 < p.n → (s.ctr k).s + p.n < 2 ^ 48 →
       Completes (.signalPacket d port p) s (fun s' =>
         s'.ctr k = (if s.sigBefore (s.ctr k) p.srcUnit p.srcDev = true then { s.ctr k with s := (s.ctr k).s + p.n }
           else { s.ctr k with s := (s.ctr k).s + p.n, valid := true, dev := p.srcDev, unit := p.srcUnit
                               beat := s.beat, cycle := s.sigCycle, edge := s.edge + 1 }) ∧
         (∀ j, j ≠ k → s'.ctr j = s.ctr j) ∧ s'.net = (s.take p).net ∧ SameTiles s s' ∧ SameDram s s' ∧
         s'.regs = s.regs)) ∧
     (∀ r o, s.Decodes 6 d port p → (s.place p.destAddr = .store r o ∨ s.place p.destAddr = .dram o ∧ r = s.stackOf o) →
       accumBad p = false → p.len = 0 → Completes (.accumPacket d port p) s (fun s' =>
         Answered s s' p (5, r) (ackOf p s.self 0) ∧ s'.counters = s.counters ∧ (∀ u, u ≠ r → s'.root u = s.root u) ∧
         (s.openRegionAt r p = none → s'.root r = s.root r) ∧
         (∀ i, s.openRegionAt r p = some i → (∀ j, (s'.root r).quiet.read 0 j = if j = i then s.rc else (s.root r).quiet.read 0 j) ∧
           s'.root r = { s.root r with quiet := (s'.root r).quiet }))) ∧
     (∀ r o i, s.Decodes 6 d port p → s.place p.destAddr = .store r o → accumBad p = false → p.len = 16 → p.n % 4 = 2 →
       (upFrom 0 128).filter (fun j => s.rgHolds r j (o / 16)) = [i] → s.rgState r i = 1 →
       signed 10 (bits p.n 11 2) = s.rgW r i → s.recCheck r (o / 16) 0 = 0 → s.recCheck r (o / 16) 1 = 0 →
       (s.ctr (rgnCtr r i)).s + 1 < 2 ^ 48 → Completes (.accumPacket d port p) s (fun s' =>
         Answered s s' p (5, r) (ackOf p s.self 0) ∧ (s'.ctr (rgnCtr r i)).s = (s.ctr (rgnCtr r i)).s + 1 ∧
         (∀ e, (formElems 2 (s.rgW r i) p.payload)[0]? = some e →
           s'.record r (o / 16) = mkRecord (recValue (s.record r (o / 16)) + e.1)
             (recFlags (s.record r (o / 16)) ||| (e.2 % 16)))))) ∧
  (∀ (s : State) (d port t : Nat) (p : Packet), p.srcUnit / 4096 = 1 → p.srcUnit % 4096 = t →
     (∀ r f pc o, s.Decodes 4 d port p → (s.tile t).fetch.reads = [r] → r.tag = p.tag → r.len = p.len → p.status = 0 →
       (s.tile t).fetch.flight r.seq = some f → f.desc.mode = 0 → f.desc.stype = 0 → f.desc.dtype = 0 → f.desc.lsig = 0 →
       f.desc.pieces[r.piece]? = some pc → (ownOff s.self t f.desc.dst).isSome = true →
       ownOff s.self t (((f.desc.dst : Int) + pc.line * f.desc.dstride).toNat + pc.off) = some o → s.BanksOn t →
       s.RowsApart t → o + p.len ≤ 0x180000 → (s.tile t).landing = [] → s.slotsOpen t o p.len true = true →
       Completes (.readRspPacket d port p) s (fun s' => SpWritten s s' t o p.payload ∧ (s'.tile t).fetch.reads = [] ∧
         (s'.tile t).fetch.flight r.seq = some { f with landed := f.landed + 1 } ∧ (s'.tile t).landing = [] ∧
         s'.net = (s.take p).net ∧ (∀ u, u ≠ t → s'.tile u = s.tile u) ∧ SameDram s s')) ∧
     (∀ w, s.Decodes 7 d port p → (s.tile t).fetch.writes = [w] → w.tag = p.tag → p.status = 0 →
       Completes (.ackPacket d port p) s (fun s' => s'.net = (s.take p).net ∧ s'.errs = s.errs ∧
         (s'.tile t).fetch.writes = (if w.left ≤ 1 then [] else [{ w with left := w.left - 1 }]) ∧
         (∀ u, u ≠ t → s'.tile u = s.tile u) ∧ SameDram s s')) ∧
     (∀ v o, s.Decodes 8 d port p → s.place p.destAddr = .tile v o → (s.tile v).reserves = [] →
       (s.take p).landUsed v + p.n ≤ 16 → Completes (.reservePacket d port p) s (fun s' =>
         (s'.tile v).granted = (s.tile v).granted + p.n ∧ (s'.tile v).reserves = [] ∧
         Answered s s' p (14, v)
           (mkPacket { dest := p.srcDev * 2 ^ 48, unit := p.srcUnit, dev := s.self, kind := 9, vc := 1, tag := p.tag }))) ∧
     (∀ m, s.Decodes 9 d port p → (s.tile t).fetch.mc = some m → m.tag = p.tag → m.granted + 1 < m.targets.length →
       Completes (.grantPacket d port p) s (fun s' =>
         (∃ m', (s'.tile t).fetch.mc = some m' ∧ m'.granted = m.granted + 1 ∧ m'.targets = m.targets) ∧
         ∃ q, Answered s s' p (0, t) q ∧ q.kind = 8)))

/-- A WRITE that is malformed is discarded, recorded and answered by an ACK with status FAULT, and is recorded once more if
it fails CHECK; a packet of a reserved KIND is discarded and recorded, whichever packet command brings it. Neither writes a
memory. CREDIT_RETURN moves a flit out of the buffer, whose credit is free again: into the destination, or into the next buffer
of its way, whose credit it takes; a buffer gives no credits to other requests that it keeps for the rounds of R180 (log 43). On a
buffer with no flit that can leave it does nothing, nor on a landing buffer, whose flits leave it when their packet is decoded (log
43). The destination and source of the answers are the model's choice (log 25). -/
def Obligations.MalformedPacketsAndCredits : Prop :=
  (∀ (s : State) (d port : Nat) (p : Packet), d ≤ 4 → port < 29 → p.destDev = s.self →
     s.seqr.held.contains (s.domainOf p) = false → s.coming p = false → s.mustWait p = false →
     let discarded (s' : State) : Prop := SameDram s s' ∧ SameTiles s s' ∧ s'.counters = s.counters ∧
       s'.errs.length = s.errs.length + (if p.checkOk = true then 1 else 2)
     (p.kind = 1 → pktMalformed p = true → Completes (.writePacket d port p) s (fun s' =>
       Answered s s' p (s.answerAt p) (ackOf p s.self 1) ∧ discarded s')) ∧
     (kindReserved p.kind = true → ∀ c ∈ [Instr.writePacket d port p, .writeAccPacket d port p, .readReqPacket d port p,
         .readRspPacket d port p, .signalPacket d port p, .accumPacket d port p, .ackPacket d port p,
         .reservePacket d port p, .grantPacket d port p],
       Completes c s (fun s' => s'.net = (s.take p).net ∧ discarded s' ∧
         (d < 4 → p.checkOk = true → s.fld F.XC_XB_ERR_VALID d 0 = 0 → s'.fld F.XC_XB_ERR_CODE d 0 = 3 ∧
           s'.fld F.XC_XB_ERR_VALID d 0 = 1)))) ∧
  (∀ (s : State) (buf inst : Nat) (vc : Bool), (buf = 1 ∨ 0 < bufferFlits buf (b2n vc)) → inst < 8192 →
     let k := creditKey buf inst (b2n vc)
     let h : Spot := ⟨buf, inst⟩
     (s.flitAt h (b2n vc) = none ∨ buf = 1 → Completes (.creditReturn buf inst vc) s (fun s' => s' = s)) ∧
     (∀ y n, buf ≠ 1 → s.net = [y] → y.way = [(h, n + 1)] → y.pkt.vc = b2n vc → y.copies = [] →
       (s.leaveSlots y.pkt (s.target y.pkt) h (n + 1 == y.pkt.flits)).isSome = true → 0 < s.credits.read 0 k →
       (y.after (s.target y.pkt) 0 = none → Completes (.creditReturn buf inst vc) s (fun s' =>
         s'.net = [{ y with way := [(h, n)], got := y.got + 1 }] ∧ s'.credits.read 0 k = s.credits.read 0 k - 1 ∧
         SameTiles s s' ∧ SameDram s s')) ∧
       (∀ g, y.after (s.target y.pkt) 0 = some g → creditKey g.buf g.inst (b2n vc) ≠ k → 0 < bufferFlits g.buf (b2n vc) →
         (if g.buf = 1 then s.landUsed g.inst else s.credits.read 0 (creditKey g.buf g.inst (b2n vc))) <
           bufferFlits g.buf (b2n vc) - (if ofRound y.pkt then 0 else roundFlits g.buf (b2n vc)) →
         Completes (.creditReturn buf inst vc) s (fun s' => s'.net = [{ y with way := [(h, n), (g, 1)] }] ∧
           s'.credits.read 0 k = s.credits.read 0 k - 1 ∧
           s'.credits.read 0 (creditKey g.buf g.inst (b2n vc)) = s.credits.read 0 (creditKey g.buf g.inst (b2n vc)) + 1 ∧
           SameTiles s s' ∧ SameDram s s'))))

/-- In a delivered cycle FETCH_DESCRIPTOR_START takes the head of the queue when no earlier descriptor issues packets and no
FENCE.W holds it, and FETCH_READ_ISSUE sends the next READ_REQ of a descriptor with fewer than 64 outstanding and room for its
answer; FETCH_DESCRIPTOR_COMPLETE frees a complete descriptor and signals its counter when CSIG is set. READ_TIMEOUT of a read
outstanding for TIMEOUT rc, in a delivered cycle, records TIMEOUT and drops the read, and zeros land in its place; LANDING_BUFFER_WRITE
writes the oldest access that waits when its exchange slots are free, and acknowledges it. Of data read from elsewhere TRANSPOSE
lands every element at its own destination line and ACCUM adds the bytes, both in the own scratchpad, where they wait for open
slots in order of arrival (log 30); MCAST asks its first target for room by a RESERVE, whose DEST and row count in N are the model's
choice (log 25). A source in the own scratchpad is read line by line in exchange slots (log 127); a
line read goes out as a WRITE or, in TRANSPOSE, as one WRITE for each element, in REDUCE as an ACCUM packet, in MCAST after a
RESERVE; to the own scratchpad it lands there. -/
def Obligations.FetchEngineEvents : Prop :=
  (∀ (s : State) (t : Nat), tileOk t = true →
     let q := s.tile t
     (∀ d rest, s.esc.live = true → q.fetch.queue = d :: rest → (∀ x ∈ q.fetch.flights, x.sentAll = true) →
       d.epoch ≤ q.order.done → ownOff s.self t d.src = none → d.empty = false → Completes (.fetchDescriptorStart t) s (fun s' =>
         (s'.tile t).fetch = { q.fetch with queue := rest, flights := q.fetch.flights ++ [⟨d, 0, [], 0, 0, false⟩] } ∧
         (∀ u, u ≠ t → s'.tile u = s.tile u) ∧ s' = { s with tiles := s'.tiles })) ∧
     (∀ f pc, s.esc.live = true → q.fetch.flights = [f] → f.sentAll = false → ownOff s.self t f.desc.src = none →
       f.desc.pieces[f.issued]? = some pc → q.fetch.reads.length < 64 → q.rspRows s.self t + (pc.len + 31) / 32 ≤ 512 →
       Completes (.fetchReadIssue t) s (fun s' =>
         (s'.tile t).fetch.reads = q.fetch.reads ++ [⟨q.fetch.nextTag, f.desc.seq, f.issued, pc.addr, pc.len, s.rc⟩] ∧
         s'.net = s.net ++ [atSource (0, t) (mkPacket { dest := pc.addr, unit := 4096 + t, dev := s.self, kind := 3
                                                        len := pc.len, tag := q.fetch.nextTag })] ∧
         (∀ u, u ≠ t → s'.tile u = s.tile u) ∧ s'.counters = s.counters)) ∧
     (∀ f, s.esc.live = true → q.fetch.flights = [f] → q.fetch.complete f = true →
       (s.ctr (tileCtr t f.desc.cidx)).s + 1 < 2 ^ 48 → Completes (.fetchDescriptorComplete t) s (fun s' =>
         (s'.tile t).fetch = { q.fetch with flights := [] } ∧
         (s'.ctr (tileCtr t f.desc.cidx)).s = (s.ctr (tileCtr t f.desc.cidx)).s + (if f.desc.csig then 1 else 0) ∧
         (∀ u, u ≠ t → s'.tile u = s.tile u) ∧ s'.net = s.net))) ∧
  (∀ (s : State) (t : Nat), tileOk t = true →
     let q := s.tile t
     (∀ r, s.esc.live = true → q.fetch.reads = [r] → r.sent + s.fld F.XC_FE_CFG_TIMEOUT t 0 ≤ s.rc →
       s.fld F.XC_FE_ERR_VALID t 0 = 0 →
       let recorded (s' : State) : Prop := (s'.tile t).fetch.reads = [] ∧ s'.fld F.XC_FE_ERR_CODE t 0 = 8 ∧
         s'.fld F.XC_FE_ERR_VALID t 0 = 1 ∧ SameDram s s'
       (q.fetch.flight r.seq = none → Completes (.readTimeout t r.tag) s (fun s' => recorded s' ∧
         s'.errs.length = s.errs.length + 1)) ∧
       (∀ f pc o, q.fetch.flight r.seq = some f → f.desc.mode = 0 → f.desc.stype = 0 → f.desc.dtype = 0 → f.desc.lsig = 0 →
         f.desc.pieces[r.piece]? = some pc → (ownOff s.self t f.desc.dst).isSome = true →
         ownOff s.self t (((f.desc.dst : Int) + pc.line * f.desc.dstride).toNat + pc.off) = some o → s.BanksOn t →
         s.RowsApart t → o + r.len ≤ 0x180000 → q.landing = [] → s.slotsOpen t o r.len true = true →
         Completes (.readTimeout t r.tag) s (fun s' => recorded s' ∧ SpWritten s s' t o (zeros r.len) ∧
           (s'.tile t).fetch.flight r.seq = some { f with landed := f.landed + 1 } ∧ s'.net = s.net ∧
           ∀ u, u ≠ t → s'.tile u = s.tile u))) ∧
     (∀ l p, q.landing = [l] → l.read = none → l.acc = none → l.sig = none → l.ack = some p → l.seq = none → l.piece = none →
       s.ownReady t = none → s.slotsOpen t l.off l.data.length true = true → l.off + l.data.length ≤ 0x180000 → s.BanksOn t → s.RowsApart t →
       q.reserves = [] → Completes (.landingBufferWrite t) s (fun s' =>
         SpWritten s s' t l.off l.data ∧ (s'.tile t).landing = [] ∧ s'.net = s.net ++ [atSource (2, t) p] ∧
         (∀ u, u ≠ t → s'.tile u = s.tile u) ∧ SameDram s s'))) ∧
  (∀ (s : State) (d port t : Nat) (p : Packet) (r : ReadOut) (f : Flight) (pc : Piece),
     p.srcUnit / 4096 = 1 → p.srcUnit % 4096 = t → s.Decodes 4 d port p → (s.tile t).fetch.reads = [r] → r.tag = p.tag →
     r.len = p.len → p.status = 0 → (s.tile t).fetch.flights = [f] → f.desc.seq = r.seq → f.desc.pieces[r.piece]? = some pc →
     f.desc.stype ≠ 8 → p.payload ≠ [] →
     let c := f.desc
     let n := deSize c.dtype
     let e := pc.off / deSize c.stype
     let bytes := convertBytes c.stype c.dtype p.payload
     let line (k : Nat) : Nat := ((c.dst : Int) + k * c.dstride).toNat
     let lands (s' : State) (l : List (Nat × List Byte × Option Nat)) : Prop :=
       (s'.tile t).landing.map (fun x => (x.off, x.data, x.acc)) = l ∧ (s'.tile t).fetch.reads = [] ∧
         (s'.tile t).mem = (s.tile t).mem ∧ s'.net = (s.take p).net ∧ (∀ u, u ≠ t → s'.tile u = s.tile u) ∧ SameDram s s'
     ((s.tile t).landing = [] → (∀ g wr, s.slotOpen t g wr = false) →
       (∀ o : Nat → Nat, c.mode = 1 → bytes.length % n = 0 →
         (∀ k, k < bytes.length / n → ownOff s.self t (line (e + k) + pc.line * n) = some (o k)) →
         Completes (.readRspPacket d port p) s (fun s' => lands s'
           ((upFrom 0 (bytes.length / n)).map (fun k => (o k, (bytes.drop (k * n)).take n, none))))) ∧
       (∀ o, c.mode = 2 → f.landed = r.piece → f.parked = [] → bytes ≠ [] → (ownOff s.self t c.dst).isSome = true →
         ownOff s.self t (line pc.line + e * n) = some o →
         Completes (.readRspPacket d port p) s (fun s' => lands s' [(o, bytes, some (deAcc c.dtype))]))) ∧
     (c.mode = 3 → c.stype = 0 → c.dtype = 0 → (s.tile t).fetch.mc = none → (s.tile t).fetch.mcTodo = [] →
       (line pc.line + pc.off) % 256 + p.payload.length ≤ 256 → Completes (.readRspPacket d port p) s (fun s' =>
         s'.net = (s.take p).net ++ [atSource (0, t) (mkPacket
           { dest := sysAddr s.self (spBase + c.targets.headD 0 * 0x200000 + (line pc.line + pc.off) % 0x200000)
             unit := 4096 + t, dev := s.self, kind := 8, n := (p.payload.length + 31) / 32
             tag := (s.tile t).fetch.nextTag })] ∧
         (∃ m, (s'.tile t).fetch.mc = some m ∧ m.targets = c.targets ∧ m.data = p.payload ∧ m.granted = 0) ∧
         (s'.tile t).mem = (s.tile t).mem ∧ (∀ u, u ≠ t → s'.tile u = s.tile u) ∧ SameDram s s'))) ∧
  (∀ (s : State) (t : Nat), tileOk t = true →
     let q := s.tile t
     (∀ d o, s.esc.live = true → q.fetch.queue = [d] → q.fetch.flights = [] → d.epoch ≤ q.order.done →
       ownOff s.self t d.src = some o → d.empty = false → s.ownReadOk t d = true → q.landing = [] →
       (∀ g wr, s.slotOpen t g wr = false) → Completes (.fetchDescriptorStart t) s (fun s' =>
         (s'.tile t).fetch = { q.fetch with queue := [], flights := [⟨d, 1, [], 0, 0, false⟩] } ∧
         (s'.tile t).landing.map (fun l => (l.off, l.want, l.piece)) = [(o, d.slen, some 0)] ∧ s'.net = s.net ∧
         (s'.tile t).mem = q.mem ∧ (∀ u, u ≠ t → s'.tile u = s.tile u))) ∧
     (∀ l f, q.landing = [l] → l.piece = some 0 → l.seq = some f.desc.seq → l.got = [] → l.sig = none → l.ack = none →
       l.read = none → 0 < l.want → l.off % 32 + l.want ≤ 32 → l.off + l.want ≤ 0x180000 → q.fetch.flights = [f] →
       f.issued = 1 → f.landed = 0 → f.parked = [] → f.desc.nlines = 1 → f.desc.stype ≠ 8 → f.desc.slen = l.want →
       (ownOff s.self t f.desc.src).isSome = true → s.slotOpen t (l.off / 32) false = true → s.portRoom t l.want false = true → q.reserves = [] →
       s.BanksOn t → s.RowsApart t → (∀ a, l.off / 32 * 32 ≤ a → a < l.off / 32 * 32 + 32 → (s.spAt t a).2 = false) →
       f.desc.lsig = 0 →
       let c := f.desc
       let n := deSize c.dtype
       let raw := s.spAtBytes t l.off l.want
       let bytes := convertBytes c.stype c.dtype raw
       let write (a tag : Nat) (b : List Byte) : Packet := mkPacket
         { dest := a, unit := 4096 + t, dev := s.self, kind := 1, len := b.length, tag := tag, payload := b }
       let goes (s' : State) (ps : List Packet) (sent : Bool) : Prop := s'.net = s.net ++ ps.map (atSource (0, t)) ∧
         (s'.tile t).fetch.flights = [{ f with landed := 1, sentAll := sent }] ∧ (s'.tile t).mem = q.mem ∧
         (s'.tile t).landing = [] ∧ (∀ u, u ≠ t → s'.tile u = s.tile u) ∧ SameDram s s' ∧ s'.counters = s.counters
       (c.mode = 0 → c.stype = 0 → c.dtype = 0 → ownOff s.self t c.dst = none → c.dst % 256 + l.want ≤ 256 →
         Completes (.landingBufferWrite t) s (fun s' => goes s' [write c.dst q.fetch.nextTag raw] true)) ∧
       (c.mode = 1 → ownOff s.self t c.dst = none → c.dst % n = 0 → c.dstride % (n : Int) = 0 →
         (∀ k, k < c.line / deSize c.stype → 0 ≤ (c.dst : Int) + k * c.dstride) → bytes.length = c.line / deSize c.stype * n →
         Completes (.landingBufferWrite t) s (fun s' => ∃ ps, goes s' ps true ∧ ps.length = c.line / deSize c.stype ∧
           ∀ (k : Nat) p, ps[k]? = some p → ∃ tag,
             p = write ((c.dst : Int) + k * c.dstride).toNat tag ((bytes.drop (k * n)).take n))) ∧
       (c.mode = 3 → c.stype = 0 → c.dtype = 0 → q.fetch.mc = none → q.fetch.mcTodo = [] → c.dst % 256 + l.want ≤ 256 →
         Completes (.landingBufferWrite t) s (fun s' => goes s' [mkPacket
           { dest := sysAddr s.self (spBase + c.targets.headD 0 * 0x200000 + c.dst % 0x200000), unit := 4096 + t
             dev := s.self, kind := 8, n := 1, tag := q.fetch.nextTag }] f.sentAll)) ∧
       (c.mode = 4 → c.stype = 2 → Completes (.landingBufferWrite t) s (fun s' =>
         goes s' [accumPkt c.dst (4096 + t) s.self 0 (c.redw + s.raise) q.fetch.nextTag raw] true)) ∧
       (∀ o, c.mode = 0 → ownOff s.self t c.dst = some o → o % 32 + bytes.length ≤ 32 → bytes ≠ [] →
         o + bytes.length ≤ 0x180000 → s.slotOpen t (o / 32) true = true → s.portRoom t bytes.length true = true →
         (s.bankOf t (o / 32)).1 ≠ (s.bankOf t (l.off / 32)).1 →
         Completes (.landingBufferWrite t) s (fun s' => SpWritten s s' t o bytes ∧ s'.net = s.net ∧
           (s'.tile t).fetch.flights = [{ f with landed := 1, sentAll := true }] ∧ (s'.tile t).landing = [] ∧
           ∀ u, u ≠ t → s'.tile u = s.tile u))))

/-! ## Root dies -/

/-- REFRESH_TICK at a 390th rc edge after the reset of the root dies raises the debt of every path below 8 by 1. Where it is 8 the
debt stays and a forced refresh, counted, begins at once, or after the access in progress on the path (R209). REFRESH of a
path in an opportunity, with debt above −4 and no refresh or access in progress, lowers it by 1, counts an issued refresh and occupies
the path for 35 rc. The scrub that follows a refresh corrects every correctable word of the next line of the path's segment, counts
each, records an uncorrectable one as SCRUB_UE without marking the step unclean, and goes on to the next line (R207).
PERIODIC_INTERFACE_TRAINING: a path that fails it is marked failed and recorded; the memory is as before. One
that passes changes nothing. A transfer that fails its CRC up to four times in succession passes after as many retries, each of
them logged, and each keeps the path for 40 root core cycles (20 tile-clock edges, log 135); one that fails five times does not, and
is recorded as an uncorrectable error. -/
def Obligations.RootMemoryUpkeep : Prop :=
  (∀ (s : State) (r path : Nat), r < 8 → path < 34 →
     (s.atRc = true → s.refFrom < s.rc → (s.rc - s.refFrom) % 390 = 0 → s.refTick ≠ s.rc + 1 → (∀ q p, s.debt q p < 8) →
       Completes .refreshTick s (fun s' => (∀ q p, q < 8 → p < 34 → s'.debt q p = s.debt q p + 1) ∧ SameDram s s' ∧
         s'.regs = s.regs ∧ SameTiles s s' ∧ s'.errs = s.errs)) ∧
     (s.refreshOk r = true → -4 < s.debt r path → s.refEnd r path ≤ s.rc → s.accessing r path = false →
       (∀ a, s.dramCheck a = 0) → s.PathsSound →
       (∀ seg, (s.root r).scrub.read 0 seg < 2 ^ 22) → Completes (.refresh r path) s (fun s' =>
       s'.debt r path = s.debt r path - 1 ∧ (∀ p, p ≠ path → s'.debt r p = s.debt r p) ∧ s'.refEnd r path = s.rc + 35 ∧
       s'.fld F.RT_REF_STATUS_ISSUED r 0 = (s.fld F.RT_REF_STATUS_ISSUED r 0 + 1) % 2 ^ F.RT_REF_STATUS_ISSUED.width ∧
       (∀ u, u ≠ r → s'.root u = s.root u) ∧ SameDram s s' ∧ s'.errs = s.errs)) ∧
     (s.refreshOk r = true → s.accessing r path = true → Completes (.refresh r path) s (fun s' => s' = s))) ∧
  (∀ (s : State), s.PathsSound → (∀ q seg, (s.root q).scrub.read 0 seg < 2 ^ 22) →
     let due (q : Nat) : List Nat := (upFrom 0 34).filter (fun p => s.debt q p == 8)
     (s.atRc = true → s.refFrom < s.rc → (s.rc - s.refFrom) % 390 = 0 → s.refTick ≠ s.rc + 1 → (∀ q p, s.debt q p ≤ 8) →
       (∀ q, s.fld F.RT_REF_STATUS_FORCED q 0 < 2 ^ F.RT_REF_STATUS_FORCED.width) →
       Completes .refreshTick s (fun s' => SameDram s s' ∧ SameTiles s s' ∧ ∀ q, q < 8 →
         s'.fld F.RT_REF_STATUS_FORCED q 0 =
           (s.fld F.RT_REF_STATUS_FORCED q 0 + (due q).length) % 2 ^ F.RT_REF_STATUS_FORCED.width ∧
         (s'.root q).forced = (s.root q).forced ++ (due q).filter (s.accessing q) ∧
         ∀ p, p < 34 → s'.debt q p = (if s.debt q p = 8 then 8 else s.debt q p + 1) ∧
           s'.refEnd q p = (if s.debt q p = 8 ∧ s.accessing q p = false then max s.rc (s.refEnd q p) + 35 else s.refEnd q p))) ∧
     (∀ q p, (s.root q).forced = [p] → s.accessing q p = false →
       ((s.forcedRefresh q).root q).forced = [] ∧ (s.forcedRefresh q).refEnd q p = max s.rc (s.refEnd q p) + 35 ∧
       (∀ u, (s.forcedRefresh q).debt q u = s.debt q u) ∧ SameDram s (s.forcedRefresh q))) ∧
  (∀ (s : State) (r path seg : Nat), r < 8 → path < 34 → s.segOf r path = some seg → (s.root r).scrub.read 0 seg < 2 ^ 22 →
     s.PathsSound → s.refreshOk r = true → -4 < s.debt r path → s.refEnd r path ≤ s.rc → s.accessing r path = false →
     s.fld F.RT_DRAM_CE_COUNT_COUNT r 0 < 2 ^ F.RT_DRAM_CE_COUNT_COUNT.width →
     let w (i : Nat) : Nat := dramAddr s.dramMode r seg ((s.root r).scrub.read 0 seg) (8 * i)
     Completes (.refresh r path) s (fun s' =>
       (∀ i, i < 32 → s'.dramCheck (w i) = if s.dramCheck (w i) = 1 then 0 else s.dramCheck (w i)) ∧
       (∀ a, (∀ i, i < 32 → dramKey s.dramMode a / 8 ≠ dramKey s.dramMode (w i) / 8) → s'.dramCheck a = s.dramCheck a) ∧
       (s'.root r).scrub.read 0 seg = ((s.root r).scrub.read 0 seg + 1) % 2 ^ 22 ∧
       s'.fld F.RT_DRAM_CE_COUNT_COUNT r 0 = satAdd F.RT_DRAM_CE_COUNT_COUNT.width (s.fld F.RT_DRAM_CE_COUNT_COUNT r 0)
         ((upFrom 0 32).filter (fun i => s.dramCheck (w i) == 1)).length ∧
       ((∃ i, i < 32 ∧ 2 ≤ s.dramCheck (w i)) → s.fld F.RT_DRAM_ERR_VALID r 0 = 0 →
         s'.fld F.RT_DRAM_ERR_VALID r 0 = 1 ∧ s'.fld F.RT_DRAM_ERR_CODE r 0 = 2) ∧
       s'.unclean = s.unclean ∧ s'.uncleanNext = s.uncleanNext ∧ SameDram s s')) ∧
  (∀ (s : State) (r path : Nat), r < 8 → path < 34 →
     Completes (.periodicInterfaceTraining r path true) s (fun s' => s' = s) ∧
     (bit (s.fld F.RT_PC_HEALTH_FAILED r 0) path = false → Completes (.periodicInterfaceTraining r path false) s (fun s' =>
       bit (s'.fld F.RT_PC_HEALTH_FAILED r 0) path = true ∧
       (∀ p, p ≠ path → p < 34 → bit (s'.fld F.RT_PC_HEALTH_FAILED r 0) p = bit (s.fld F.RT_PC_HEALTH_FAILED r 0) p) ∧
       (s.fld F.RT_DRAM_ERR_VALID r 0 = 0 → s'.fld F.RT_DRAM_ERR_CODE r 0 = 3 ∧ s'.fld F.RT_DRAM_ERR_VALID r 0 = 1) ∧
       SameDram s s' ∧ s'.roots = s.roots ∧ SameTiles s s'))) ∧
  (∀ (s : State) (a : Nat),
     let r := (dramLoc s.dramMode a).1
     let path := s.pathOf r (dramLoc s.dramMode a).2.1
     let k := (s.root r).crcBad.read 0 path
     (s.root r).crcRun.read 0 path < 7 →
     (s.transfer 1 a).1 = decide (k < 5) ∧
     (s.transfer 1 a).2.errs.length = s.errs.length + min k 4 + (if k < 5 then 0 else 1) ∧
     SameDram s (s.transfer 1 a).2 ∧ ((s.transfer 1 a).2.root r).crcBad.read 0 path = k - 5 ∧
     (k ≠ 0 → (s.root r).retry.read 0 path = 0 → s.refEnd r path ≤ s.rc → (s.root r).forced.contains path = false →
       ((s.startRetry a).root r).retry.read 0 path = s.edge + 20 * min k 4 ∧ (s.startRetry a).dram = s.dram))

/-- REGION_CHECK_ENTRY: an OPEN region whose counter's S − C has reached EXPECT enters CHECK; with a record flagged
PINF, NINF or NAN its NF is set, and with one flagged OVF its OVF (log 35); correctable words of its records are corrected.
REGION_RELEASE_COMPLETE: a region in RELEASE with no write outstanding closes, and sends DONE when it is enabled. REGION_CLOSE of a
region in CHECK, and REGION_FORCE_CLOSE of one that is OPEN past its due beat with nothing for it on the way (log 39): a CONS of the whole
value of its counter takes its place among those of the cycle, the region enters RELEASE, a record outside the 72-bit range carries
OVF, and the forced close sets INCOMPLETE. FR is the sum of the residues of the records, each rotated by its place, slice by slice;
where it is not RR, or a slice's sum is not that of its pipeline, the region's and the step's RESIDUE are set and the pipelines of
such slices are counted. The release of OUTFMT WIDE writes nothing; FP32 and BF16 write the rounded elements at OUTADDR, in the own
stack at once where its paths are free, and within one block of another stack as one WRITE of unit kind 4 (log 36); FORWARD sends the records in WIDE ACCUM
packets of 16. No other region and no tile changes. -/
def Obligations.RegionLife : Prop :=
  (∀ (s : State) (r i : Nat), r < 8 → i < 128 →
     let base := s.rgBase r i
     let n := s.rgCount r i
     let flagged := (upFrom base n).any (fun x => recFlags (s.record r x) % 8 != 0)
     let ovf := (upFrom base n).any (fun x => recFlags (s.record r x) / 8 % 2 == 1)
     (s.rgState r i = 1 → s.fld F.RT_RGN_EXPECT_EXPECT r i ≤ s.value (rgnCtr r i) →
       Completes (.regionCheckEntry r i) s (fun s' => s'.rgState r i = 2 ∧
         (∀ j, j < 128 → j ≠ i → s'.rgState r j = s.rgState r j) ∧
         s'.fld F.RT_RGN_STAT_NF r i = (if flagged then 1 else s.fld F.RT_RGN_STAT_NF r i) ∧
         s'.fld F.RT_RGN_STAT_OVF r i = (if ovf then 1 else s.fld F.RT_RGN_STAT_OVF r i) ∧
         ((∀ x h, s.recCheck r x h ≠ 1) → s'.roots = s.roots) ∧
         (∀ x h, base ≤ x → x < base + n → base + n ≤ storeRecords → h < 2 → s.recCheck r x h = 1 → s'.recCheck r x h = 0) ∧
         (∀ x, s'.record r x = s.record r x) ∧ s'.counters = s.counters ∧ SameDram s s' ∧ SameTiles s s')) ∧
     (s.rgState r i = 3 → (∀ o ∈ (s.root r).outs, o.op ≠ .release i) → (∀ q ∈ (s.root r).reqs, q.releases i = false) →
       Completes (.regionReleaseComplete r i) s (fun s' => s'.rgState r i = 4 ∧
         (∀ j, j < 128 → j ≠ i → s'.rgState r j = s.rgState r j) ∧
         s'.net = s.net ++ (if s.fld F.RT_RGN_DONE_DONE_EN r i = 1 then
           [atSource (5, r) (mkPacket
             { dest := sysAddr s.self 0, unit := unitId 4 (r * 64 + 63), dev := s.self, kind := 5, n := 1
               cref := match crefKey none (s.fld F.RT_RGN_DONE_DONE_CREF r i) with
                 | some k => keyCref k
                 | none => s.fld F.RT_RGN_DONE_DONE_CREF r i })] else []) ∧
         s'.roots = s.roots ∧ s'.counters = s.counters ∧ SameDram s s' ∧ SameTiles s s'))) ∧
  (∀ (s : State) (r i : Nat) (c : Instr), r < 8 → i < 128 → s.rgBase r i + s.rgCount r i ≤ storeRecords →
     (c = .regionClose r i ∧ s.rgState r i = 2 ∨ c = .regionForceClose r i ∧ s.rgState r i = 1 ∧ s.forceDue r i = true) →
     let k := rgnCtr r i
     let base := s.rgBase r i
     let n := s.rgCount r i
     let unit := unitId 4 (r * 64 + 63)
     let part (p e : Nat) : Nat :=
       if sliceOf (base + e) = p then rot (res (recValue (s.record r (base + e)))) (e % 31) else 0
     let fr (p : Nat) : Nat := (upFrom 0 n).foldl (fun a e => (a + part p e) % resMod) 0
     let tot : Nat := (upFrom 0 32).foldl (fun a p => (a + fr p) % resMod) 0
     let off (p : Nat) : Bool := fr p != (s.root r).rr.read 0 (i * 32 + p)
     let sound : Prop := tot = s.fld F.RT_RGN_RES_RR r i ∧ ∀ p, p < 32 → off p = false
     let closed (s' : State) : Prop := s'.rgState r i = 3 ∧ (∀ j, j < 128 → j ≠ i → s'.rgState r j = s.rgState r j) ∧
       s'.consOps = insertCons ⟨k, s.value k, unit, s.self⟩ s.consOps ∧ s'.counters = s.counters ∧
       s'.fld F.RT_RGN_STAT_OVERCOUNT r i = (if s.fld F.RT_RGN_EXPECT_EXPECT r i < s.value k then 1
         else s.fld F.RT_RGN_STAT_OVERCOUNT r i) ∧
       (∀ x, base ≤ x → x < base + n → recValue (s'.record r x) = recValue (s.record r x) ∧
         recFlags (s'.record r x) = recFlags (s.record r x) |||
           (if (recValue (s.record r x)).natAbs > 2 ^ 71 - 1 then 8 else 0)) ∧
       (∀ x, x < storeRecords → (x < base ∨ base + n ≤ x) → s'.record r x = s.record r x) ∧
       s'.fld F.RT_RGN_RES_FR r i = tot ∧
       (sound → s'.fld F.RT_RGN_STAT_RESIDUE r i = s.fld F.RT_RGN_STAT_RESIDUE r i) ∧
       (¬ sound → s'.fld F.RT_RGN_STAT_RESIDUE r i = 1 ∧ s'.fld F.RT_STEP_STATUS_RESIDUE r 0 = 1) ∧
       (∀ g, g < 34 → (∀ p, p < 32 → off p = true → s.pipeOf r p ≠ g) →
         s'.fld F.RT_PIPE_MISMATCH_COUNT r g = s.fld F.RT_PIPE_MISMATCH_COUNT r g) ∧
       (∀ p, p < 32 → off p = true → (∀ g, g < 32 → g ≠ p → s.pipeOf r g ≠ s.pipeOf r p) →
         s'.fld F.RT_PIPE_MISMATCH_COUNT r (s.pipeOf r p) =
           satAdd F.RT_PIPE_MISMATCH_COUNT.width (s.fld F.RT_PIPE_MISMATCH_COUNT r (s.pipeOf r p)) 1) ∧
       (c = .regionForceClose r i → s'.fld F.RT_RGN_STAT_INCOMPLETE r i = 1) ∧ SameTiles s s'
     let out := s.fld F.RT_RGN_OUT_OUTADDR r i
     let bytes (s' : State) (f : Fmt) (b : Nat) : List Byte := (upFrom base n).flatMap (fun x =>
       toBytes (releaseCode f (recValue (s'.record r x)) (recFlags (s'.record r x)) (s.rgW r i)) b)
     (s.fld F.RT_RGN_STAT_OUTFMT r i = 0 → Completes c s (fun s' => closed s' ∧ SameDram s s' ∧ s'.net = s.net)) ∧
     (∀ f b, (s.fld F.RT_RGN_STAT_OUTFMT r i = 1 ∧ f = fp32 ∧ b = 4 ∨ s.fld F.RT_RGN_STAT_OUTFMT r i = 2 ∧ f = bf16 ∧ b = 2) →
       out + b * n ≤ 2 ^ 38 →
       ((∀ a, out ≤ a → a < out + b * n → s.stackOf a = r) → s.PathsSound → (∀ a, s.dramCheck a = 0) →
         (∀ a m, s.lineHeld a m = false) →
         Completes c s (fun s' => closed s' ∧ DramWritten s s' out (bytes s' f b) ∧ s'.net = s.net)) ∧
       (s.stackOf out ≠ r → 0 < n → out % 256 + b * n ≤ 256 → Completes c s (fun s' => closed s' ∧ SameDram s s' ∧
         s'.net = s.net ++ [atSource (5, r) (mkPacket
           { dest := sysAddr s.self out, unit := unit, dev := s.self, kind := 1, len := b * n
             tag := (s.root r).nextTag, payload := bytes s' f b })]))) ∧
     (s.fld F.RT_RGN_STAT_OUTFMT r i = 3 → Completes c s (fun s' => closed s' ∧ SameDram s s' ∧
       ∃ ps : List Packet, s'.net = s.net ++ ps.map (atSource (5, r)) ∧ ps.length = (n + 15) / 16 ∧
         ∀ (j : Nat) p, ps[j]? = some p → ∃ tag, p = accumPkt (out + 256 * j) unit s.self 2 (s.rgW r i) tag
           ((upFrom (base + 16 * j) (min 16 (n - 16 * j))).flatMap (s'.recBytes r)))))

/-- NOP, XADDI, XSETI, XSETH and XOP: the scalar register takes xA plus IMM, IMM, IMM above its own low half, or the
function of xA and xB that T names. A word with an opcode that Table 8.3 does not list, which comes with RVE_NOP
(log 122), records ILLEGAL with its address and changes no register. -/
def Obligations.RveScalar : Prop :=
  ∀ (s : State) (r : Nat) (w : W64),
    let d := (w.extractLsb' 51 5).toNat
    let na := (w.extractLsb' 46 5).toNat
    let nb := (w.extractLsb' 41 5).toNat
    let imm := w.extractLsb' 0 32
    let a := (s.rve r).xr na
    let b := (s.rve r).xr nb
    let fn := w.extractLsb' 32 4
    let sh := b.toNat % 64
    (rveListed w = false → s.RveRuns r [] → ((s.rve r).err = 0 ∨ s.ctl r 1 = 0) → Completes (.rveNop r w) s (fun s' =>
      RveFalls s s' r ∧ s'.ctl r 1 = 2 ^ 63 + 2 ^ 48 + (s.rve r).pc)) ∧
    (rveListed w = true →
    (s.RveRuns r [] → RveUse.reserved {} w = false → Completes (.rveNop r w) s (fun s' =>
      RveBecomes s s' r { s.rve r with pc := (s.rve r).pc + 1, cyc := s.rveNext r [] w })) ∧
    (s.RveRuns r [d, na] → RveUse.reserved { d := true, a := true, i := true } w = false →
      Completes (.xaddi r w) s (fun s' => RveSetsX s s' r d (s.rveNext r [d, na] w) (a + imm.signExtend 64))) ∧
    (s.RveRuns r [d] → RveUse.reserved { d := true, i := true } w = false →
      Completes (.xseti r w) s (fun s' => RveSetsX s s' r d (s.rveNext r [d] w) (imm.signExtend 64)) ∧
      Completes (.xseth r w) s (fun s' => RveSetsX s s' r d (s.rveNext r [d] w) (imm ++ ((s.rve r).xr d).extractLsb' 0 32))) ∧
    (s.RveRuns r [d, na, nb] → RveUse.reserved { d := true, a := true, b := true, t := true } w = false → fn.toNat ≤ 10 →
      Completes (.xop r w) s (fun s' => ∃ v, RveSetsX s s' r d (s.rveNext r [d, na, nb] w) v ∧
        (fn = 0 → v = a + b) ∧ (fn = 1 → v = a - b) ∧ (fn = 2 → v = a &&& b) ∧ (fn = 3 → v = a ||| b) ∧
        (fn = 4 → v = a ^^^ b) ∧ (fn = 5 → v = a <<< sh) ∧ (fn = 6 → v = a >>> sh) ∧ (fn = 7 → v = a.sshiftRight sh) ∧
        (fn = 8 → v = a * b) ∧ (fn = 9 → v.toNat = min a.toNat b.toNat) ∧ (fn = 10 → v.toNat = max a.toNat b.toNat))))

/-- BR, BCC, SKIP, END and END_WAIT_ENTRY: the next word or the target; SKIP sets the skip flag; END waits for the
RVE's earlier writes, and END_WAIT_ENTRY enters END_WAIT once none is outstanding. -/
def Obligations.RveControl : Prop :=
  ∀ (s : State) (r : Nat) (w : W64),
    let na := (w.extractLsb' 46 5).toNat
    let nb := (w.extractLsb' 41 5).toNat
    let a := (s.rve r).xr na
    let b := (s.rve r).xr nb
    let cond := w.extractLsb' 32 4
    let v := s.rve r
    let target : Int := v.pc + (w.extractLsb' 0 32).toInt
    let holds : Prop := (cond = 0 ∧ a = b) ∨ (cond = 1 ∧ a ≠ b) ∨ (cond = 2 ∧ a.toInt < b.toInt) ∨
      (cond = 3 ∧ b.toInt ≤ a.toInt) ∨ (cond = 4 ∧ a.toNat < b.toNat) ∨ (cond = 5 ∧ b.toNat ≤ a.toNat)
    (rveListed w = true →
    (s.RveRuns r [] → RveUse.reserved { i := true } w = false → 0 ≤ target → target < 32768 →
      Completes (.rveBr r w) s (fun s' => RveBecomes s s' r { v with pc := target.toNat, cyc := s.rveNext r [] w })) ∧
    (s.RveRuns r [na, nb] → RveUse.reserved { a := true, b := true, t := true, i := true } w = false → cond.toNat ≤ 5 →
      (holds → 0 ≤ target → target < 32768 →
        Completes (.rveBcc r w) s (fun s' => RveBecomes s s' r { v with pc := target.toNat, cyc := s.rveNext r [na, nb] w })) ∧
      (¬ holds → Completes (.rveBcc r w) s (fun s' => RveBecomes s s' r { v with pc := v.pc + 1, cyc := s.rveNext r [na, nb] w }))) ∧
    (s.RveRuns r [] → RveUse.reserved {} w = false →
      Completes (.skip r w) s (fun s' => RveBecomes s s' r { v with pc := v.pc + 1, cyc := s.rveNext r [] w, skip := true }) ∧
      Completes (.rveEnd r w) s (fun s' => RveBecomes s s' r { v with pc := v.pc + 1, cyc := s.rveNext r [] w, ending := true }))) ∧
    (rootOk r = true → v.st = .run → v.ending = true → s.pendWrites (.rve r) = [] →
      Completes (.endWaitEntry r) s (fun s' => RveBecomes s s' r { v with st := .endWait, ending := false }))

/-- The vector instructions of the RVE, lane by lane on 256 lanes: ZOP, ZFMA and ZUN round the exact FP32 result once;
ZBC broadcasts xA[31:0]; ZCMP gives all ones or zero; ZSEL takes zA's lane where zC's is not zero, else zB's; ZRED CNT
counts the lanes that are not zero, by their bits, −0 among them, as ZSEL does (log 34); XFOP is the scalar form. No lane group computes wrongly there; where the one that serves
the group of the beat does, and group 33 repeats that group soundly, ZBC sets the group's bit of MISMATCH. -/
def Obligations.RveVector : Prop :=
  ∀ (s : State) (r : Nat) (w : W64),
    let d := (w.extractLsb' 51 5).toNat
    let na := (w.extractLsb' 46 5).toNat
    let nb := (w.extractLsb' 41 5).toNat
    let v := s.rve r
    let a (i : Nat) := v.lane na i
    let b (i : Nat) := v.lane nb i
    let c (i : Nat) := v.lane (w.extractLsb' 36 5).toNat i
    let fn := (w.extractLsb' 32 4).toNat
    let num := fp32.decode
    let rnd := fp32.encode .near false
    let zop (t x y : Nat) : Nat := rnd (match t with
      | 0 => (num x).add (num y) | 1 => (num x).add (num y).neg | 2 => (num x).mul (num y) | 3 => (num x).div (num y)
      | 4 => (num x).max (num y) | _ => (num x).min (num y))
    let xa := (v.xr na).toNat % 2 ^ 32
    let xb := (v.xr nb).toNat % 2 ^ 32
    let g := s.beat % 32
    (rveListed w = true → s.RveRuns r [na] → RveUse.reserved { d := true, a := true } w = false → v.spare1 = 0x3F →
      bit v.laneFailed 33 = false → v.laneBad.read 0 33 = 0 → v.laneBad.read 0 (v.physGroup g) ≠ 0 →
      Completes (.zbc r w) s (fun s' => bit (s'.ctl r 5) g = true ∧ (s'.rve r).pc = v.pc + 1)) ∧
    (rveListed w = true → v.laneBad = [] →
    (s.RveRuns r [] → RveUse.reserved { d := true, a := true, b := true, t := true } w = false → fn ≤ 5 →
      Completes (.zop r w) s (fun s' => RveSetsZ s s' r d (s.rveNext r [] w) (fun i => zop fn (a i) (b i)))) ∧
    (s.RveRuns r [] → RveUse.reserved { d := true, a := true, b := true, c := true } w = false →
      Completes (.zfma r w) s (fun s' => RveSetsZ s s' r d (s.rveNext r [] w) (fun i =>
        rnd (((num (a i)).mul (num (b i))).add (num (c i))))) ∧
      Completes (.zsel r w) s (fun s' => RveSetsZ s s' r d (s.rveNext r [] w) (fun i => if c i ≠ 0 then a i else b i))) ∧
    (s.RveRuns r [] → RveUse.reserved { d := true, a := true, t := true } w = false → fn ≤ 3 →
      Completes (.zun r w) s (fun s' => RveSetsZ s s' r d (s.rveNext r [] w) (fun i => rnd (match fn with
        | 0 => (num (a i)).sqrt | 1 => (Num.fin false 1 0).div (num (a i)) | 2 => (num (a i)).abs | _ => (num (a i)).neg)))) ∧
    (s.RveRuns r [na] → RveUse.reserved { d := true, a := true } w = false →
      Completes (.zbc r w) s (fun s' => RveSetsZ s s' r d (s.rveNext r [na] w) (fun _ => xa))) ∧
    (s.RveRuns r [] → RveUse.reserved { d := true, a := true, b := fn != 4, t := true } w = false → fn ≤ 4 →
      Completes (.zcmp r w) s (fun s' => RveSetsZ s s' r d (s.rveNext r [] w) (fun i => if (match fn with
        | 0 => (num (a i)).eq (num (b i)) | 1 => (num (a i)).lt (num (b i))
        | 2 => (num (a i)).lt (num (b i)) || (num (a i)).eq (num (b i))
        | 3 => !(num (a i)).eq (num (b i)) | _ => (num (a i)).nonfinite) then 2 ^ 32 - 1 else 0))) ∧
    (s.RveRuns r [d] → RveUse.reserved { d := true, a := true, t := true } w = false → fn ≤ 2 →
      Completes (.zred r w) s (fun s' => ∃ y, RveSetsX s s' r d (s.rveNext r [d] w) y ∧
        (fn = 2 → y.toNat = ((upFrom 0 256).filter (fun i => a i != 0)).length) ∧
        (fn = 0 → y.toNat = (treeReduce (zop 0) 8 ((upFrom 0 256).map a)).headD 0) ∧
        (fn = 1 → y.toNat = (treeReduce (zop 4) 8 ((upFrom 0 256).map a)).headD 0))) ∧
    (s.RveRuns r [d, na, nb] → RveUse.reserved { d := true, a := true, b := !(fn == 4 || fn == 7 || fn == 8), t := true } w = false →
      fn ≤ 8 → Completes (.xfop r w) s (fun s' => ∃ y, RveSetsX s s' r d (s.rveNext r [d, na, nb] w) y ∧ (fn ≤ 3 → y.toNat = zop fn xa xb) ∧
        (fn = 4 → y.toNat = rnd (num xa).sqrt) ∧ (fn = 5 → y.toNat = zop 5 xa xb) ∧ (fn = 6 → y.toNat = zop 4 xa xb) ∧
        (fn = 7 → y.toNat = rnd (Num.ofInt (v.xr na).toInt)) ∧
        (fn = 8 → y.toNat = floatToInt 64 .zero true (num xa)))))

/-- XLD and XST on the own stack and store, and elsewhere (DRAM of the other stacks, the other stores, scratchpads and configuration
registers) as one READ_REQ or WRITE packet for each part that lies in one 256-byte block (log 122); ZLD and ZST on the own stack with
the conversion of their type; ZLDR of 256 records of the own store. Every word read is good and every path sound, and no access to a
path waits; while a path of the own stack that it needs is busy, or an earlier access to its line waits, XLD waits (log 122). -/
def Obligations.RveMemory : Prop :=
  ∀ (s : State) (r o : Nat) (w : W64),
    let d := (w.extractLsb' 51 5).toNat
    let na := (w.extractLsb' 46 5).toNat
    let nb := (w.extractLsb' 41 5).toNat
    let ty := (w.extractLsb' 36 5).toNat
    let t := (w.extractLsb' 32 4).toNat
    let v := s.rve r
    let x := wrap 64 ((v.xr na).toNat + (w.extractLsb' 0 32).toInt)
    let z := wrap 64 ((s.zBase r (t % 8) : Int) + (v.xr na).toNat + (w.extractLsb' 0 32).toInt)
    let n := (v.xr nb).toNat
    let d8 := toBytes (v.xr nb).toNat 8
    let tag := (s.root r).nextTag
    let tags := [tag, (tag + 1) % 65536]
    let rd (y : (Nat × Nat × Nat) × Nat) : Packet :=
      mkPacket { dest := sysAddr s.self y.1.1, unit := unitId 3 r, dev := s.self, kind := 3, len := y.1.2.2, tag := y.2 }
    let wr (y : (Nat × Nat × Nat) × Nat) : Packet :=
      mkPacket { dest := sysAddr s.self y.1.1, unit := unitId 3 r, dev := s.self, kind := 1, len := y.1.2.2, tag := y.2
                 payload := (d8.drop y.1.2.1).take y.1.2.2 }
    let own (p : Nat × Nat × Nat) : Prop := p.1 < dramEnd ∧ s.stackOf p.1 = r
    let away (p : Nat × Nat × Nat) : Prop := (∃ b, s.place p.1 = .dram b ∧ s.stackOf b ≠ r) ∨
      (∃ q c, s.place p.1 = .store q c ∧ q ≠ r) ∨ (∃ u c, s.place p.1 = .tile u c) ∨
      (∃ c, s.place p.1 = .live c ∧ s.liveRangeOk p.1 p.2.2 = true)
    rveListed w = true → (∀ b, s.dramCheck b = 0) → (∀ y h, s.recCheck r y h = 0) → s.PathsSound →
    (rootOk r = true → s.rveHeld r x 8 = true → Completes (.xld r w) s (fun s' => s' = s)) ∧
    ((∀ b m, s.lineHeld b m = false) →
      (s.RveRuns r [d, na] → RveUse.reserved { d := true, a := true, i := true } w = false →
        ((∀ p ∈ wordPieces x, own p) →
          Completes (.xld r w) s (fun s' =>
            RveSetsX (s.counted s') s' r d (s.rveNext r [d, na] w) (BitVec.ofNat 64 (ofBytes (s.dramBytes x 8))))) ∧
        (s.place x = .store r o → o + 8 ≤ 0x4000000 →
          Completes (.xld r w) s (fun s' =>
            RveSetsX s s' r d (s.rveNext r [d, na] w) (BitVec.ofNat 64 (ofBytes (s'.storeBytes r o 8))))) ∧
        ((∀ p ∈ wordPieces x, away p) → Completes (.xld r w) s (fun s' => RveFalls s s' r ∧
          s'.net = s.net ++ ((wordPieces x).zip tags).map (fun y => atSource (5, r) (rd y)) ∧
          (s'.root r).outs = (s.root r).outs ++
            ((wordPieces x).zip tags).map (fun y => ⟨y.2, .load d y.1.2.1 v.pc, (rd y).dest, (rd y).len⟩) ∧
          s'.dram = s.dram))) ∧
      (s.RveRuns r [na, nb] → RveUse.reserved { a := true, b := true, i := true } w = false → s.rveFenced r = false →
        bit x 63 = false → bits x 62 48 = s.self →
        ((∀ p ∈ wordPieces (x % 2 ^ 48), own p) →
          Completes (.xst r w) s (fun s' => DramWritten s s' (x % 2 ^ 48) d8 ∧ RveFalls s s' r ∧ s'.net = s.net)) ∧
        (s.place (x % 2 ^ 48) = .store r o → o + 8 ≤ 0x4000000 → s.storeActive r o 8 = none →
          Completes (.xst r w) s (fun s' => s'.storeBytes r o 8 = d8 ∧ RveFalls s s' r ∧ s'.net = s.net ∧
            s'.dram = s.dram)) ∧
        ((∀ p ∈ wordPieces (x % 2 ^ 48), away p) → Completes (.xst r w) s (fun s' =>
          s'.net = s.net ++ ((wordPieces (x % 2 ^ 48)).zip tags).map (fun y => atSource (5, r) (wr y)) ∧ RveFalls s s' r ∧
          s'.dram = s.dram))) ∧
      (s.RveRuns r [na] → RveUse.reserved { d := true, a := true, c := true, t := true, i := true } w = false → t ≤ 4 →
        zTypeOk ty = true → s.zFault r ty z (zldBytes ty) = [] → Completes (.zld r w) s (fun s' =>
          RveSetsZ (s.counted s') s' r d (s.rveNext r [na] w) (fun i => ((zldLanes ty (s.dramBytes z (zldBytes ty)))[i]?).getD 0 % 2 ^ 32))) ∧
      (s.RveRuns r [na, nb] → s.rveFenced r = false → t % 8 ≤ 4 → zTypeOk ty = true → 0 < n → n ≤ 256 →
        (ty = 8 → n % 32 = 0) →
        let bytes := zstBytes ty (8 ≤ t) ((upFrom 0 n).map (v.lane d))
        s.zFault r ty z bytes.length = [] → Completes (.zst r w) s (fun s' => DramWritten s s' z bytes ∧ RveFalls s s' r ∧
          s'.net = s.net)) ∧
      (s.RveRuns r [na, nb] → RveUse.reserved { d := true, a := true, b := true, i := true } w = false → x % 16 = 0 →
        x + 256 ≤ storeRecords → Completes (.zldr r w) s (fun s' => RveSetsZ s s' r d (s.rveNext r [na, nb] w) (fun i =>
          releaseCode fp32 (recValue (s'.record r (x + i))) (recFlags (s'.record r (x + i))) (v.xr nb).toInt))))

/-- SIG, WAIT, WAITC, CONS, READC and FENCE of the RVE: a signal leaves as one SIGNAL packet; a WAIT whose counter has
reached its amount, and a WAITC of 0, completes, and otherwise the RVE waits among the counter's waiters, a WAITC until its turn
at the end of a cycle; CONS takes its place among the CONS operations of the cycle (log 115); READC gives S and C, of a region counter the root die's own
(log 32); a WAIT on a region counter of the own root die, and what READC brings of it, take 4 root core cycles (Table 2.8); a FENCE with no write outstanding is released at once. OPEN and RSEND: an open record that
passes its seven checks opens its region at its exponent plus the device's window raise, with every record of the
region's lines reading 0 and its flags clear; RSEND sends its lanes as WIDE records, one ACCUM packet to a 256-byte
block. -/
def Obligations.RveCountersAndRegions : Prop :=
  (∀ (s : State) (r k : Nat) (w : W64),
     let d := (w.extractLsb' 51 5).toNat
     let na := (w.extractLsb' 46 5).toNat
     let nb := (w.extractLsb' 41 5).toNat
     let nc := (w.extractLsb' 36 5).toNat
     let t := (w.extractLsb' 32 4).toNat
     let v := s.rve r
     let n := (v.xr nb).toNat % 2 ^ 32
     let m := (v.xr nb).toNat % 2 ^ 48
     let dev := if bit t 1 then (v.xr nc).toNat % 2 ^ 15 else s.self
     let onward (xs : List Nat) (lat : Nat) : Rve := { v with pc := v.pc + 1, cyc := s.rveNext r xs w + lat }
     let lat := if 0x30000 ≤ k ∧ (k - 0x30000) / 128 = r then 3 else 0
     rveListed w = true → crefKey none ((v.xr na).toNat % 2 ^ 32) = some k →
     (s.RveRuns r [na, nb, nc] → RveUse.reserved { a := true, b := true, c := bit t 1, t := true } w = false → t ≤ 3 →
       v.order.epoch ≤ v.order.done →
       (bit t 0 = true → ∀ p ∈ s.pendWrites (.rve r), ∀ a ∈ p.addrs, s.inScope k dev a = false) →
       Completes (.rveSig r w) s (fun s' => RveFalls s s' r ∧ s'.counters = s.counters ∧
         s'.net = s.net ++ [atSource (5, r) (mkPacket
           { dest := sysAddr dev 0, unit := unitId 3 r, dev := s.self, kind := 5, rel := bit t 0, cref := keyCref k
             n := n })])) ∧
     (s.RveRuns r [na, nb] → RveUse.reserved { a := true, b := true } w = false →
       (m ≤ (s.ctr k).s → Completes (.rveWait r w) s (fun s' => RveBecomes s s' r (onward [na, nb] lat))) ∧
       ((s.ctr k).s < m → Completes (.rveWait r w) s (fun s' => (s'.rve r).wait = some (k, false, m) ∧ RveFalls s s' r ∧
         s' = { s with roots := s'.roots, waiters := insertWaiter ⟨unitId 3 r, k, false, m⟩ s.waiters })) ∧
       (n = 0 → Completes (.rveWaitc r w) s (fun s' => RveBecomes s s' r (onward [na, nb] 0))) ∧
       (0 < n → Completes (.rveWaitc r w) s (fun s' => (s'.rve r).wait = some (k, true, n) ∧ RveFalls s s' r ∧
         s' = { s with roots := s'.roots, waiters := insertWaiter ⟨unitId 3 r, k, true, n⟩ s.waiters } ∧
         (s.waiters = [] → s.consOps = [] → s.sigOps = [] → (s.ctr k).c + n ≤ (s.ctr k).s →
           s'.settleCounters.ctr k = { s.ctr k with c := (s.ctr k).c + n } ∧ (s'.settleCounters.rve r).wait = none))) ∧
       Completes (.rveCons r w) s (fun s' => RveFalls s s' r ∧
         s' = { s with roots := s'.roots, consOps := insertCons ⟨k, n, unitId 3 r, s.self⟩ s.consOps })) ∧
     (s.RveRuns r [d, d + 1, na] → RveUse.reserved { d := true, a := true } w = false → d % 2 = 0 → 2 ≤ d →
       Completes (.readc r w) s (fun s' => RveBecomes s s' r { onward [d, d + 1, na] 0 with
           x := (s'.rve r).x
           late := if lat = 0 then v.late else v.late.filter (fun e => e.1 != d && e.1 != d + 1) ++
             [(d, s.rveNext r [d, d + 1, na] w + 3), (d + 1, s.rveNext r [d, d + 1, na] w + 3)] } ∧
         ∀ i, (s'.rve r).xr i = if i = d then BitVec.ofNat 64 (s.ctr k).s
           else if i = d + 1 then BitVec.ofNat 64 (s.ctr k).c else v.xr i)) ∧
     (s.RveRuns r [] → RveUse.reserved {} w = false → v.order.done = v.order.epoch → v.order.held = [] →
       s.pendWrites (.rve r) = [] → Completes (.rveFence r w) s (fun s' => RveBecomes s s' r
         { onward [] 0 with order := ⟨v.order.epoch + 1, v.order.epoch + 1, v.order.seq + 1, []⟩ }))) ∧
  (∀ (s : State) (r o : Nat) (w : W64),
     let na := (w.extractLsb' 46 5).toNat
     let nb := (w.extractLsb' 41 5).toNat
     let nc := (w.extractLsb' 36 5).toNat
     let v := s.rve r
     let x := wrap 64 ((v.xr na).toNat + (w.extractLsb' 0 32).toInt)
     let n := (v.xr nb).toNat
     let e := (v.xr nc).toInt
     let q (j : Nat) : Nat := ofBytes (s.storeBytes r (o + 8 * j) 8)
     let i := q 0 % 128
     let base := s.fld F.RT_RGN_CFG_BASE r i
     let count := s.fld F.RT_RGN_CFG_COUNT r i
     rveListed w = true →
     (s.RveRuns r [na] → RveUse.reserved { a := true, i := true } w = false → s.place x = .store r o → o % 16 = 0 →
       o + 32 ≤ 16 * ctlRecord → (∀ y h, s.recCheck r y h = 0) → s.openFault r (q 0) (q 1) (q 2) (q 3) = none →
       bits (q 1) 47 0 ≠ 0 → count ≠ 0 → Completes (.openRegion r w) s (fun s' =>
         s'.rgState r i = 1 ∧ (∀ j, j < 128 → j ≠ i → s'.rgState r j = s.rgState r j) ∧
         s'.rgW r i = signed 10 (bits (q 0) 17 8) + s.raise ∧ s'.fld F.RT_RGN_EXPECT_EXPECT r i = bits (q 1) 47 0 ∧
         s'.fld F.RT_RGN_STAT_OUTFMT r i = bits (q 0) 19 18 ∧ s'.fld F.RT_RGN_OUT_OUTADDR r i = bits (q 2) 62 0 ∧
         s'.fld F.RT_RGN_STAT_NF r i = 0 ∧ s'.fld F.RT_RGN_STAT_OVF r i = 0 ∧ s'.fld F.RT_RGN_RES_RR r i = 0 ∧
         (∀ y, base / 16 ≤ y / 16 → y / 16 ≤ (base + count - 1) / 16 → y < storeRecords → s'.record r y = 0) ∧
         (∀ y, y < storeRecords → (y / 16 < base / 16 ∨ (base + count - 1) / 16 < y / 16) → y ≠ ctlRecord →
           s'.record r y = s.record r y) ∧
         RveFalls s s' r ∧ s'.counters = s.counters ∧ SameDram s s')) ∧
     (s.RveRuns r [na, nb, nc] → RveUse.reserved { d := true, a := true, b := true, c := true, i := true } w = false →
       s.rveFenced r = false → 0 < n → x % 16 = 0 → x % 256 + 16 * n ≤ 256 → bit x 63 = false → inStore x = true →
       Completes (.rsend r w) s (fun s' => RveFalls s s' r ∧ SameDram s s' ∧ s'.counters = s.counters ∧
         s'.net = s.net ++ [atSource (5, r) (accumPkt x (unitId 3 r) s.self 2 e (s.root r).nextTag
           ((upFrom 0 n).flatMap (fun j =>
             let z := alignNum (fp32.decode (v.lane (w.extractLsb' 51 5).toNat j)) e
             toBytes (mkRecord z.1 z.2).toNat 16)))])))

/-! ## Links, configuration and time -/

/-- LINK_FLIT_SEND of a running link: a REPLAY_REQ goes first (log entry 106), then a flit held for replay, then new data of the
stream that is next, else IDLE; every flit carries the ACK of the last SEQ accepted, and a CRC that holds, and joins the bits
that codewords are cut from; 5,140 of them make a codeword, whose symbols go on the lanes (log entry 139). A good flit
on a running link of a device outside the beat tree. IDLE, and a flit of the reserved TYPE (log entry 123), frees the flits its ACK covers; DATA with the expected SEQ
delivers its packet and is counted; with a later SEQ it is discarded and a replay asked for; REPLAY_REQ queues every
flit held for replay. -/
def Obligations.LinkFlits : Prop :=
  (∀ (s : State) (n : Nat), n < 24 → s.linkRuns n = true →
     let x := s.link n
     let sent (s' : State) (ty seq : Nat) : Prop := (∀ u, u ≠ n → s'.link u = s.link u) ∧ s'.net = s.net ∧
       ∃ f, (s'.link n).wire = some f ∧ f.type = ty ∧ flitCtrl f 11 0 = seq % 4096 ∧
         flitCtrl f 23 12 = (x.rxExp + 4095) % 4096 ∧ f.beat = s.beatWord n ∧
         (f.payload.length = 240 → flitGood f = true) ∧
         (let v := x.encBits + ofBytes (wireBytes f) * 2 ^ x.encLen
          (x.encLen + 2048 < 5140 → (s'.link n).encLen = x.encLen + 2048 ∧ (s'.link n).encBits = v ∧
            (s'.link n).lanes = x.lanes) ∧
          (5140 ≤ x.encLen + 2048 → (s'.link n).encLen = x.encLen + 2048 - 5140 ∧ (s'.link n).encBits = v / 2 ^ 5140 ∧
            (s'.link n).lanes = laneSymbols x.txMap (rsCodeword (v % 2 ^ 5140))))
     (x.sendReq = true → Completes (.linkFlitSend n) s (fun s' => sent s' 2 x.txSeq ∧ (s'.link n).sendReq = false ∧
       (s'.link n).reqAge = 0 ∧ (s'.link n).replay = x.replay ∧ (s'.link n).txSeq = x.txSeq)) ∧
     (∀ h rest, x.sendReq = false → x.resend = h :: rest → Completes (.linkFlitSend n) s (fun s' => sent s' 0 h.seq ∧
       (s'.link n).resend = rest ∧ (s'.link n).replay = x.replay ∧ (s'.link n).txSeq = x.txSeq ∧
       ∃ f, (s'.link n).wire = some f ∧ f.payload.take h.payload.length = h.payload ∧
         flitCtrl f 35 28 = h.payload.length % 256)) ∧
     (∀ st q, x.sendReq = false → x.resend = [] → x.replay.length < 512 → x.pick = some st → x.txq.read [] st = [q] →
       q.src = none → q.left.length ≤ x.nextFill st → Completes (.linkFlitSend n) s (fun s' => sent s' 0 x.txSeq ∧
         (s'.link n).txq.read [] st = [] ∧ (s'.link n).txSeq = (x.txSeq + 1) % 4096 ∧
         (s'.link n).replay = x.replay ++ [⟨x.txSeq, st, q.left, [(q.pkt, none)], !q.whole⟩])) ∧
     (x.sendReq = false → x.resend = [] → (512 ≤ x.replay.length ∨ x.pick = none) →
       Completes (.linkFlitSend n) s (fun s' => sent s' 1 x.txSeq ∧ (s'.link n).replay = x.replay ∧
         (s'.link n).txq = x.txq ∧ (s'.link n).txSeq = x.txSeq))) ∧
  (∀ (s : State) (n : Nat) (f : LinkFlit), n < 24 → s.linkRuns n = true → s.role = 0 → flitGood f = true →
     let x := s.link n
     let left := x.replay.filter (fun h => !covers (flitCtrl f 23 12) h.seq)
     let seq := flitCtrl f 11 0
     let st := flitCtrl f 27 26
     let same (s' : State) : Prop := (s'.link n).replay = left ∧ (∀ u, u ≠ n → s'.link u = s.link u) ∧
       s'.linkState n = s.linkState n ∧ SameTiles s s' ∧ s'.dram = s.dram ∧ s'.errs = s.errs
     ((f.type = 1 ∨ f.type = 3) →
       Completes (.linkIdleFlit n f) s (fun s' => same s' ∧ (s'.link n).rxExp = x.rxExp ∧ s'.net = s.net)) ∧
     (∀ p, f.type = 0 → seq = x.rxExp → x.rxBytes.read [] st = [] →
       f.payload.take (flitCtrl f 35 28) = packetBytes p → announced p = p.payload.length → p.checkOk = true →
       p.destDev = s.self → Completes (.linkDataFlit n f) s (fun s' => same s' ∧
         (s'.link n).rxExp = (x.rxExp + 1) % 4096 ∧ s'.net = s.net ++ [atSource (6, n / 6) p] ∧
         s'.fld F.LK_CNT_RXDATA_COUNT n 0 = (s.fld F.LK_CNT_RXDATA_COUNT n 0 + 1) % 2 ^ F.LK_CNT_RXDATA_COUNT.width)) ∧
     (f.type = 0 → seq ≠ x.rxExp → (seq + 4096 - x.rxExp) % 4096 < 2048 → x.asking = false →
       Completes (.linkDataFlit n f) s (fun s' => same s' ∧ (s'.link n).rxExp = x.rxExp ∧ s'.net = s.net ∧
         (s'.link n).asking = true ∧ (s'.link n).sendReq = true)) ∧
     (f.type = 2 → x.reqs < 7 → Completes (.replayReq n f) s (fun s' => same s' ∧ (s'.link n).rxExp = x.rxExp ∧
       s'.net = s.net ∧ (s'.link n).resend = left ∧
       s'.fld F.LK_CNT_REPLAY_COUNT n 0 = (s.fld F.LK_CNT_REPLAY_COUNT n 0 + 1) % 2 ^ F.LK_CNT_REPLAY_COUNT.width)))

/-- A flit that fails its CRC is discarded and counted, and a replay is asked for; REPLAY_REQ_RESEND asks again after
64 flit times; loss of lock and a far end that retrains take the link to RETRAIN with its session kept; a symbol-error
window leaves its counts, with the symbols of the codewords that its flits brought (log 123), and marks each lane above the limit; it
takes the link DOWN with cause 2 at its end where a position is marked failed while the spare is in use, or two fail in one window (log
123); so does a training whose spare is in use with a position marked failed. TRAINING_COMPLETE and RETRAIN_COMPLETE mark every lane
that failed the training, whether it succeeds or not; two failed positions take the link DOWN with cause 2, and one is served by lane 8
where that is free and sound (R285, R286). A training that finds every lane and the neighbour wired to the opposite group brings the link UP with a new session and its queue
kept, and one that finds another end takes it DOWN with cause 3; a retraining that succeeds sends every held flit
again, and the third failure in succession takes it DOWN with cause 1. -/
def Obligations.LinkTroubleAndTraining : Prop :=
  (∀ (s : State) (n : Nat), n < 24 → s.linkRuns n = true →
     let x := s.link n
     let retrains (s' : State) : Prop := s'.linkState n = 3 ∧ (s'.link n).replay = x.replay ∧ (s'.link n).txq = x.txq ∧
       (s'.link n).rxExp = x.rxExp ∧ (∀ u, u ≠ n → s'.link u = s.link u ∧ s'.linkState u = s.linkState u) ∧
       s'.errs.length = s.errs.length + 1 ∧
       s'.fld F.LK_STATUS_RETRAINS n 0 = (s.fld F.LK_STATUS_RETRAINS n 0 + 1) % 2 ^ F.LK_STATUS_RETRAINS.width
     (∀ f, flitGood f = false → x.asking = false →
       let bad (s' : State) : Prop := (s'.link n).rxExp = x.rxExp ∧ (s'.link n).sendReq = true ∧ (s'.link n).replay = x.replay ∧
         s'.net = s.net ∧ s'.fld F.LK_CNT_CRC_COUNT n 0 = (s.fld F.LK_CNT_CRC_COUNT n 0 + 1) % 2 ^ F.LK_CNT_CRC_COUNT.width ∧
         (∀ u, u ≠ n → s'.link u = s.link u) ∧
         (∀ c, f.fec = [c] → c.last = true → codewordOk c = false →
           s'.fld F.LK_CNT_UNCORR_COUNT n 0 = (s.fld F.LK_CNT_UNCORR_COUNT n 0 + 1) % 2 ^ F.LK_CNT_UNCORR_COUNT.width)
       Completes (.linkDataFlit n f) s bad ∧ Completes (.linkIdleFlit n f) s bad ∧ Completes (.replayReq n f) s bad) ∧
     (x.asking = true → x.reqAge = 64 → Completes (.replayReqResend n) s (fun s' =>
       s'.link n = { x with sendReq := true } ∧ (∀ u, u ≠ n → s'.link u = s.link u) ∧ s' = { s with links := s'.links })) ∧
     (∀ pos, pos < 8 → Completes (.laneLossOfLock n pos) s retrains) ∧
     Completes (.farEndRetrain n) s retrains ∧
     (∀ counts : List Nat, counts.length = 9 →
       let total (l : Nat) : Nat := satAdd 32 (s.fld F.LK_LANE_SER_CURRENT n l) (counts.getD l 0)
       let above (l : Nat) : Bool := decide (s.fld F.LK_LANE_CFG_SER_LIMIT n 0 < total l)
       let spare := s.fld F.LK_STATUS_SPARE_IN_USE n 0
       let fresh := (upFrom 0 8).filter (fun p =>
         above (laneOf spare p) && !bit (s.fld F.LK_LANE_HEALTH_FAILED n 0) (laneOf spare p))
       Completes (.laneSerWindow n counts) s (fun s' =>
         (∀ l, l < 9 → s'.fld F.LK_LANE_SER_LAST n l = total l ∧ s'.fld F.LK_LANE_SER_CURRENT n l = 0 ∧
           bit (s'.fld F.LK_LANE_HEALTH_FAILED n 0) l = (bit (s.fld F.LK_LANE_HEALTH_FAILED n 0) l || above l)) ∧
         (((spare < 8 ∧ ∃ p, p < 8 ∧ (above (laneOf spare p) = true ∨
               bit (s.fld F.LK_LANE_HEALTH_FAILED n 0) (laneOf spare p) = true)) ∨ 2 ≤ fresh.length) →
           s'.linkState n = 4 ∧ s'.fld F.LK_STATUS_DOWN_CAUSE n 0 = 2) ∧
         ((8 ≤ spare ∨ ∀ p, p < 8 → above (laneOf spare p) = false ∧
             bit (s.fld F.LK_LANE_HEALTH_FAILED n 0) (laneOf spare p) = false) → fresh.length < 2 →
           s'.links = s.links ∧ s'.net = s.net ∧ s'.linkState n = s.linkState n)))) ∧
  (∀ (s : State) (n : Nat) (x : TrainResult), n < 24 → s.seqr.held.contains 2 = false → x.failed = 0 →
     let y := s.link n
     let usable (spare : Nat) : Prop :=
       spare < 8 → ∀ p, p < 8 → bit (s.fld F.LK_LANE_HEALTH_FAILED n 0) (laneOf spare p) = false
     let next := s.fld F.LK_LANEMAP_SPARE_FOR n 0
     let spare := if y.mapNew = true then next else s.fld F.LK_STATUS_SPARE_IN_USE n 0
     let fails (c : Nat) (s' : State) : Prop := s'.linkState n = 4 ∧ s'.fld F.LK_STATUS_DOWN_CAUSE n 0 = c
     (s.linkState n = 1 → ¬ usable next → Completes (.trainingComplete n x) s (fails 2)) ∧
     (s.linkState n = 3 → ¬ usable spare → Completes (.retrainComplete n x) s (fails 2)) ∧
     (s.linkState n = 1 → x.ok = true → usable next → s.wiredOk n x = true → Completes (.trainingComplete n x) s (fun s' =>
       s'.linkState n = 2 ∧ s'.fld F.LK_FAR_PHYS n 0 = x.farPhys.toNat ∧ s'.fld F.LK_FAR_VALID n 0 = 1 ∧
       s'.fld F.LK_HOPLAT_HOP_PS n 0 = x.hopPs.toNat ∧ (s'.link n).txq = y.txq ∧ (s'.link n).txSeq = 0 ∧
       (s'.link n).rxExp = 0 ∧ (s'.link n).replay = [] ∧ (s'.link n).txMap = x.farMap.toNat ∧
       (∀ u, u ≠ n → s'.link u = s.link u ∧ s'.linkState u = s.linkState u) ∧ s'.net = s.net)) ∧
     (s.linkState n = 1 → x.ok = true → usable next → s.wiredOk n x = false →
       Completes (.trainingComplete n x) s (fails 3)) ∧
     (s.linkState n = 3 → x.ok = true → usable spare → Completes (.retrainComplete n x) s (fun s' => s'.linkState n = 2 ∧
       (s'.link n).resend = y.replay ∧ (s'.link n).replay = y.replay ∧ (s'.link n).txSeq = y.txSeq ∧
       (s'.link n).rxExp = y.rxExp ∧ (s'.link n).txMap = x.farMap.toNat ∧
       (∀ u, u ≠ n → s'.link u = s.link u ∧ s'.linkState u = s.linkState u) ∧ s'.net = s.net)) ∧
     (s.linkState n = 3 → x.ok = false → usable spare → 2 ≤ y.attempts → Completes (.retrainComplete n x) s (fails 1))) ∧
  (∀ (s : State) (n : Nat) (x : TrainResult) (c : Instr) (spare : Nat), n < 24 → s.seqr.held.contains 2 = false →
     (c = .trainingComplete n x ∧ s.linkState n = 1 ∧ spare = s.fld F.LK_LANEMAP_SPARE_FOR n 0 ∨
       c = .retrainComplete n x ∧ s.linkState n = 3 ∧ spare = (if (s.link n).mapNew = true then s.fld F.LK_LANEMAP_SPARE_FOR n 0
         else s.fld F.LK_STATUS_SPARE_IN_USE n 0)) →
     let marked (l : Nat) : Bool := bit (s.fld F.LK_LANE_HEALTH_FAILED n 0) l || bit x.failed.toNat l
     let fails := (upFrom 0 8).filter (fun p => bit x.failed.toNat (laneOf spare p))
     Completes c s (fun s' => (∀ l, l < 9 → bit (s'.fld F.LK_LANE_HEALTH_FAILED n 0) l = marked l) ∧
       (2 ≤ fails.length → s'.linkState n = 4 ∧ s'.fld F.LK_STATUS_DOWN_CAUSE n 0 = 2) ∧
       (∀ p, fails = [p] → 8 ≤ spare → marked 8 = false → (∀ j, j < 8 → j ≠ p → marked j = false) →
         s'.fld F.LK_STATUS_SPARE_IN_USE n 0 = p ∧ s'.fld F.LK_STATUS_AUTO_SPARED n 0 = 1)))

/-- STAGING_WRITE and REGISTER_WRITE. At a register word that the live view defines, RWS fields are staged and become
dirty, or for a run-locked register in a run stay as they are with LOCKED_WRITE set; RW fields take their value at
once; a W1C field written 1 is 0, unless the hardware has set it in the same cycle. A write of RS_RTC waits for the next crystal
edge. A write of MARK_UNCLEAN marks a step, one of
ENTER begins standby or is refused; one of REQ is COMMIT_REQ, one of ABORT is COMMIT_ABORT, and one of both is refused. At a
reserved hole the write is discarded: nothing changes but an error record, with the address as its INFO (log entry 126), and an
unclean mark. -/
def Obligations.RegisterWrites : Prop :=
  ∀ (s : State) (a : Nat) (v : W64),
    let low (f : RegField) : Nat := v.toNat / 2 ^ f.lo % 2 ^ f.width
    let dropped (s' : State) : Prop := (∃ e, s'.errs = s.errs ++ [e] ∧ e.info = a) ∧
      (s'.unclean = true ∨ s'.uncleanNext = true) ∧
      s' = { s with errs := s'.errs, freeCtr := s'.freeCtr, unclean := s'.unclean, uncleanNext := s'.uncleanNext }
    let stages (x : RegAt) (s' : State) : Prop :=
      ((x.info.locked && s.inRun) = false →
        ∀ f ∈ x.fields, f.acc = .rws → s'.stagedFld f (s.fieldInst f x.inst) x.idx = low f) ∧
      ((x.info.locked && s.inRun) = true → s'.staged = s.staged ∧
        ((∃ f ∈ x.fields, f.acc = .rws) → s'.fld F.ES_CFG_STATUS_LOCKED_WRITE 0 0 = 1))
    (∀ x, s.regAt (liveAddr a) = some x → Completes (.stagingWrite a v) s (fun s' => stages x s' ∧
      ((x.info.locked && s.inRun) = false → s' = { s with staged := s'.staged }))) ∧
    (∀ x, s.regAt a = some x → x.info.name = .RS_RTC → Completes (.registerWrite a v) s (fun s' =>
      s' = { s with seqr := { s.seqr with rtc := some v.toNat } })) ∧
    (∀ x, s.regAt a = some x → x.info.name ≠ .ES_COMMIT_CTRL → x.info.name ≠ .RS_STANDBY → x.info.name ≠ .ES_STEP_CTRL →
      x.info.name ≠ .RS_RTC → Completes (.registerWrite a v) s (fun s' => stages x s' ∧
        (∀ f ∈ x.fields, f.acc = .rw → s'.fld f x.inst x.idx = low f) ∧
        (∀ f ∈ x.fields, f.acc = .w1c → bit (low f) 0 = true → s.w1cSets.contains (f.key x.inst x.idx) = false →
          s'.fld f x.inst x.idx = 0) ∧
        (∀ f ∈ x.fields, f.acc = .w1c → s.w1cSets.contains (f.key x.inst x.idx) = true →
          x.info.name ≠ .ES_CFG_STATUS →
          s'.fld f x.inst x.idx = s.fld f x.inst x.idx) ∧
        (∀ f ∈ x.fields, f.acc = .ro → (∀ g ∈ partnerOf x.info.name, g ≠ f) →
          x.info.name ≠ .ES_CFG_STATUS → s'.fld f x.inst x.idx = s.fld f x.inst x.idx) ∧
        SameTiles s s' ∧ s'.counters = s.counters ∧ s'.dram = s.dram ∧ s'.commit = s.commit)) ∧
    (∀ x, s.regAt a = some x → x.info.name = .ES_STEP_CTRL → bit v.toNat 0 = true →
      Completes (.registerWrite a v) s (fun s' => (s'.unclean = true ∨ s'.uncleanNext = true) ∧ s'.errs = s.errs)) ∧
    (∀ x, s.regAt a = some x → x.info.name = .RS_STANDBY → bit v.toNat 0 = true →
      Completes (.registerWrite a v) s (fun s' =>
        ((s.run = .idle ∨ s.run = .loaded ∨ s.run = .stopped ∨ s.run = .faulted) →
          s'.seqr.standby = some (s.rc + 1000000)) ∧
        ((s.run = .armed ∨ s.run = .running ∨ s.run = .held ∨ s.run = .draining) →
          s'.fld F.RS_US_STATUS_STBY_REFUSED 0 0 = 1 ∧ s'.seqr = s.seqr))) ∧
    (∀ x, s.regAt a = some x → x.info.name = .ES_COMMIT_CTRL → bit v.toNat 0 = true → bit v.toNat 1 = true →
      Completes (.registerWrite a v) s (fun s' => s'.fld F.ES_CFG_STATUS_CODE 0 0 = 4 ∧ s'.commit = s.commit ∧
        s'.staged = s.staged)) ∧
    (∀ x, s.regAt a = some x → x.info.name = .ES_COMMIT_CTRL →
      (bit v.toNat 0 = true → bit v.toNat 1 = false → exec (.registerWrite a v) s = exec (.commitReq v) s) ∧
      (bit v.toNat 0 = false → bit v.toNat 1 = true → exec (.registerWrite a v) s = exec (.commitAbort v) s) ∧
      (bit v.toNat 0 = false → bit v.toNat 1 = false → Completes (.registerWrite a v) s (fun s' =>
        s'.fld F.ES_COMMIT_CTRL_TAG 0 0 = (v.extractLsb' 8 16).toNat ∧
        s'.fld F.ES_COMMIT_CTRL_TARGET 0 0 = (v.extractLsb' 2 2).toNat ∧ s' = { s with regs := s'.regs }))) ∧
    (s.regAt a = none → Completes (.registerWrite a v) s dropped) ∧
    (s.regAt (liveAddr a) = none → Completes (.stagingWrite a v) s dropped)

/-- COMMIT_REQ whose dirty fields pass every check leaves a WAITING commit that holds what is staged, with CODE 2;
with a commit already WAITING it is refused with CODE 6 and LAST_TAG its tag; in FAULTED, CODE 7; a target-1 request
of a device with no role, CODE 8; a reserved TARGET, CODE 4; of several of these causes the first in the order of log entry 116. A dirty
field with a reserved encoding refuses it with CODE 4, else one of zero size with CODE 3, else one whose consistency rule fails with
CODE 5, and ES_CFG_FAULTADDR names the lowest register of those that fail so (R34); every staged value stays.
COMMIT_ABORT withdraws the commit and every staged value, with CODE 9. COMMIT_APPLY
of a target-0 commit outside a run, and of one of target 1 whose beat has passed: every field of the commit set takes its value at once,
CODE becomes 1, LAST_TAG its tag, COUNT rises by 1, and what the set holds is no longer dirty; where the set holds no register that acts
on a unit, tiles, links, counters and DRAM are as before. In a run a commit applies at the clearing of the segment end, one of target 1
at a system clearing alone, or at a clearing point inside the segment, and holds the tiles from that rc edge (R35); one of target 1
outside a run applies at the adoption of its beat. What the registers that act do: TL_ENTRY starts a core in RESET or PARKED_ERR at
ENTRY, SP_BANKMASK wakes banks that are OFF, XC_ROWMAP starts a tile that moves from reset, a row or line that goes to a spare keeps
its bytes, ES_BEAT_CFG and ES_BEAT_INIT set the beat number and ES_STEP_BASE the step number, LK_CFG.EN trains a link or takes it off,
and a new lane map of a link that is UP retrains it. -/
def Obligations.Commits : Prop :=
  (∀ (s : State) (v : W64), v.getLsbD 0 = true → v.getLsbD 1 = false →
     let tag := (v.extractLsb' 8 16).toNat
     let target := (v.extractLsb' 2 2).toNat
     let code (s' : State) := s'.fld F.ES_CFG_STATUS_CODE 0 0
     let refused (c : Nat) (s' : State) : Prop := code s' = c ∧ s'.fld F.ES_CFG_STATUS_LAST_TAG 0 0 = tag ∧
       s' = { s with regs := s'.regs }
     let q := s.commitFields v
     let at' (bad : FieldAt → Bool) (addr : FieldAt → Nat) (a : Nat) : Prop :=
       (∃ x ∈ q.dirtyFields, bad x = true ∧ addr x = a) ∧ ∀ x ∈ q.dirtyFields, bad x = true → a ≤ addr x
     let fault (c : Nat) (bad : FieldAt → Bool) (addr : FieldAt → Nat) : Prop := Completes (.commitReq v) s (fun s' =>
       refused c s' ∧ ∃ a, at' bad addr a ∧ s'.fld F.ES_CFG_FAULTADDR_ADDR 0 0 = a % 2 ^ F.ES_CFG_FAULTADDR_ADDR.width)
     let none' (bad : FieldAt → Bool) : Prop := ∀ x ∈ q.dirtyFields, bad x = false
     (s.run ≠ .faulted → target < 2 → s.commit = none → (target = 1 → s.fld F.ES_BEAT_CFG_ROLE 0 0 ≠ 0) →
       (q.checkDirty target = none → Completes (.commitReq v) s (fun s' => code s' = 2 ∧
         (∃ c, s'.commit = some c ∧ c.target = target ∧ c.tag = tag ∧ c.set = s.staged ∧
           (c.reached = true ↔ target = 1 ∧ s.idleRun = true ∧ s.fld F.ES_COMMIT_BEAT_BEAT 0 0 ≤ s.beat)) ∧
         s' = { s with regs := s'.regs, commit := s'.commit })) ∧
       (q.checkDirty target = none ↔ none' q.reservedBad ∧ none' q.zeroBad ∧ none' (q.ruleBad target)) ∧
       (¬ none' q.reservedBad → fault 4 q.reservedBad q.fieldAddr) ∧
       (none' q.reservedBad → ¬ none' q.zeroBad → fault 3 q.zeroBad q.zeroAddr) ∧
       (none' q.reservedBad → none' q.zeroBad → ¬ none' (q.ruleBad target) → fault 5 (q.ruleBad target) q.fieldAddr)) ∧
     (s.run ≠ .faulted → target < 2 → s.commit.isSome = true → Completes (.commitReq v) s (refused 6)) ∧
     (s.run = .faulted → Completes (.commitReq v) s (refused 7)) ∧
     (s.run ≠ .faulted → 2 ≤ target → Completes (.commitReq v) s (refused 4)) ∧
     (s.run ≠ .faulted → target = 1 → s.commit = none → s.fld F.ES_BEAT_CFG_ROLE 0 0 = 0 →
       Completes (.commitReq v) s (refused 8)) ∧
     (∀ u : W64, u.getLsbD 1 = true → u.getLsbD 0 = false → Completes (.commitAbort u) s (fun s' => code s' = 9 ∧
       s'.staged = [] ∧ s'.commit = none ∧ s' = { s with regs := s'.regs, staged := s'.staged, commit := s'.commit }))) ∧
  (∀ (s : State) (c : Commit), s.commit = some c → (∀ e ∈ c.set, ∀ f, keyField e.1 = some f → f.fld.acc = .rws) →
     let applied (s' : State) : Prop := s'.commit = none ∧ s'.staged = s.staged.filter (fun e => !c.set.contains e) ∧
       (∀ e ∈ c.set, ∀ f, keyField e.1 = some f → (∀ g ∈ c.set, keyField g.1 = some f → g = e) →
         s'.fld f.fld f.inst f.idx = e.2 % 2 ^ f.fld.width) ∧
       s'.fld F.ES_CFG_STATUS_CODE 0 0 = 1 ∧ s'.fld F.ES_CFG_STATUS_LAST_TAG 0 0 = c.tag % 2 ^ 16 ∧
       s'.fld F.ES_COMMIT_COUNT_COUNT 0 0 = (s.fld F.ES_COMMIT_COUNT_COUNT 0 0 + 1) % 2 ^ F.ES_COMMIT_COUNT_COUNT.width ∧
       ((∀ n ∈ actingRegs, c.touches n = false) → s'.links = s.links ∧ s'.dram = s.dram ∧ s'.net = s.net)
     (s.idleRun = true → (c.target = 0 ∨ c.reached = true) → Completes .commitApply s (fun s' => applied s' ∧
       ((∀ n ∈ actingRegs, c.touches n = false) → SameTiles s s' ∧ s'.counters = s.counters))) ∧
     (s.idleRun = true → c.target ≠ 0 → c.reached = false → Completes .commitApply s (fun s' => s' = s)) ∧
     ((s.run = .running ∨ s.run = .held) → s.esc.frozen = none → s.esc.ended = true → s.esc.cleared = false → s.atRc = true →
       s.quiescent = true →
       ((c.target = 0 ∨ s.sysClearing (s.beat + 1) = true ∧ s.fld F.ES_COMMIT_BEAT_BEAT 0 0 ≤ s.beat + 1) →
         Completes .commitApply s (fun s' => applied s' ∧ s'.esc.hold = some s.rc ∧ s'.esc.cleared = true)) ∧
       (c.target ≠ 0 → s.sysClearing (s.beat + 1) = false → Completes .commitApply s (fun s' =>
         s'.commit = some c ∧ s'.staged = s.staged ∧ s'.esc.cleared = true))) ∧
     (∀ x b, (s.run = .running ∨ s.run = .held) → c.target = 0 → s.esc.frozen = some x → x ≤ s.rc → s.atRc = true →
       s.esc.resume = none → s.heads = [⟨b, .clearing, 5⟩] → s.esc.tilesOk = true → s.quiescent = true →
       Completes .commitApply s (fun s' => applied s' ∧ s'.esc.hold = some s.rc ∧ s'.esc.resume = some (6 * (s.rc + 4)) ∧
         s'.clearingOpen = false)) ∧
     (∀ clean, (s.run = .idle ∨ s.run = .loaded ∨ s.run = .stopped) → c.target = 1 →
       s.fld F.ES_COMMIT_BEAT_BEAT 0 0 ≤ s.beat + 1 → s.beat + 1 < 2 ^ 48 → applied (s.adopt clean))) ∧
  (∀ (s : State) (c : Commit), s.commit = some c → c.target = 0 → s.idleRun = true →
     (∀ e ∈ c.set, ∀ f, keyField e.1 = some f → f.fld.acc = .rws) → Completes .commitApply s (fun s' =>
       (∀ t, t < 1536 → (s'.physOf t).isSome = true →
         ((t, 0) ∈ c.at .TL_ENTRY → s'.physOf t = s.physOf t → ((s.tile t).core = .reset ∨ (s.tile t).core = .parkedErr) →
           (s'.tile t).core = .waiting ∧ (s'.tile t).pc = s'.fld F.TL_ENTRY_ENTRY t 0) ∧
         (c.touches .XC_ROWMAP = true → s'.physOf t ≠ s.physOf t → (s'.tile t).mem = [] ∧ (s'.tile t).sreg = [] ∧
           (s'.tile t).core = .waiting ∧ (s'.tile t).pc = s'.fld F.TL_ENTRY_ENTRY t 0 ∧
           ∀ i, i < 64 → s'.ctr (t * 64 + i) = Counter.fresh)) ∧
       (∀ t b, t < 1536 → b < 48 → (t, 0) ∈ c.at .SP_BANKMASK → s'.physOf t = s.physOf t → (s.tile t).banks.read .on b = .off →
         (s'.tile t).banks.read .on b = if bit (s'.fld F.SP_BANKMASK_MASK t 0) b = true then .waking s.esc.tc else .off) ∧
       ((c.touches .ES_BEAT_CFG = true ∨ c.touches .ES_BEAT_INIT = true) →
         s'.beat = s'.fld F.ES_BEAT_INIT_INIT 0 0 % 2 ^ F.ES_BEAT_NUM_BEAT.width) ∧
       (c.touches .ES_STEP_BASE = true →
         s'.fld F.ES_STEP_NUM_STEP 0 0 = s'.fld F.ES_STEP_BASE_BASE 0 0 % 2 ^ F.ES_STEP_NUM_STEP.width) ∧
       (∀ n, n < 24 →
         (s.fld F.LK_CFG_EN n 0 = 0 → s'.fld F.LK_CFG_EN n 0 = 1 → s'.linkState n = 1) ∧
         (s.fld F.LK_CFG_EN n 0 = 1 → s'.fld F.LK_CFG_EN n 0 = 0 → s'.linkState n = 0) ∧
         (s.fld F.LK_CFG_EN n 0 = 1 → s'.fld F.LK_CFG_EN n 0 = 1 → s.linkState n = 2 →
           s'.fld F.LK_LANEMAP_SPARE_FOR n 0 ≠ s.fld F.LK_LANEMAP_SPARE_FOR n 0 →
           s'.fld F.LK_LANEMAP_SPARE_FOR n 0 ≠ s.fld F.LK_STATUS_SPARE_IN_USE n 0 → s'.linkState n = 3)))) ∧
  (∀ (s : State) (c : Commit), s.commit = some c → c.target = 0 → s.idleRun = true →
     (∀ t b v f, t < 1536 → (s.physOf t).isSome = true → b < 48 → f ∈ rowmapFields → bit v 15 = true →
       c.set = [(f.key (s.physTile t) b, v)] → bit (s.fld f (s.physTile t) b) 15 = false → v < 2 ^ 16 →
       Completes .commitApply s (fun s' => (∀ o, o < 0x180000 → s'.spByte t o = s.spByte t o) ∧
         s'.rowmap (s.physTile t) b = (s.rowmap (s.physTile t) b).set (rowmapFields.idxOf f) v)) ∧
     (∀ r j l, r < 8 → j < 512 → l < 8192 → s.fld F.RT_STOREMAP_VALID r j = 0 →
       (∀ e, e ∈ c.set ↔ e = (F.RT_STOREMAP_VALID.key r j, 1) ∨ e = (F.RT_STOREMAP_LINE.key r j, l)) →
       Completes .commitApply s (fun s' => ∀ x, x < ctlRecord → s'.record r x = s.record r x)))

/-- REF_EDGE at the beat root, of an edge of BEAT_IN and of a beat word on REF_LINK that toggles. It is registered at the first rc edge
that follows it, one that comes with an rc edge at that one (log entry 130); the first word on REF_LINK, and one that does not toggle, is
no edge. An edge that follows the last by less than REF_MIN_GAP is a glitch; one at which domain ready was registered an rc edge before
is adopted as the next beat; any other is missed, one with domain ready registered at the same rc edge too. REF_TIMEOUT after
REF_TIMEOUT rc without an edge sets REF_LOST. A device that is not the root ignores both. A member adopts the beat that a good flit on
its parent link announces and sends it on to every child; it ignores its own beat, and any other value is a beat sequence error, which
takes it to FAULTED (R45). An adopted beat is unclean from its start where a mark waits for it or an RVE is PARKED. In a run DN_CLEAN
goes into ACC_CLEAN at every adoption (R295); at the first beat of an attempt ACC_CLEAN is the verdict: 1 commits the step, 0 replays it,
or stops the run where ATTEMPT has reached REPLAY_LIMIT (R296 to R298). The first beat of an armed run begins its first attempt. -/
def Obligations.ReferenceEdges : Prop :=
  ∀ (s : State), s.beat + 1 < 2 ^ 48 → s.tiles.canon Tile.fresh = true → s.counters.canon Counter.fresh = true →
    let gap := s.fld F.ES_REF_CFG_REF_MIN_GAP 0 0
    let step := s.fld F.ES_STEP_NUM_STEP 0 0
    let attempt := s.fld F.ES_STEP_STATUS_ATTEMPT 0 0
    let entered (t : State) (r : Nat) : Prop := (t.rve r).st = .run ∧ (t.rve r).pc = t.ctl r 7 % 32768
    let begun (t : State) : Prop := t.fld F.ES_STEP_STATUS_ACC_CLEAN 0 0 = 1 ∧ t.fld F.ES_STEP_STATUS_POS 0 0 = 0 ∧
      t.fld F.ES_STEP_NEXT_BEAT 0 0 = (s.beat + 1 + s.fld F.ES_STEP_CFG_BEATS 0 0) % 2 ^ 64 ∧
      (s.job.isSome = true → t.esc.due0 = true)
    let levelled (t : State) : Prop := ∀ k, k < 0x20000 → (t.ctr k).s = (s.ctr k).s ∧ (t.ctr k).c = (s.ctr k).s
    let adopts (clean : Bool) (t : State) : Prop :=
      let good := clean && s.fld F.ES_STEP_STATUS_ACC_CLEAN 0 0 % 2 == 1
      t.beat = s.beat + 1 ∧ t.fld F.ES_BEAT_STATUS_LAST_CLEAN 0 0 = b2n clean ∧ t.bt.domReady = none ∧
      (∀ i, i < 1536 → (t.tile i).mem = (s.tile i).mem) ∧
      ((s.run = .idle ∨ s.run = .loaded ∨ s.run = .stopped) → s.commit = none → t.run = s.run ∧
        (t.unclean = true ↔ s.uncleanNext = true ∨
          ∃ r, r < 8 ∧ ((s.rve r).st = .parked ∨ ((s.rve r).st = .permute ∧ (s.rve r).back = .parked))) ∧
        (s.permute = none → t.fld F.ES_STEP_STATUS_ACC_CLEAN 0 0 = b2n good) ∧
        t.counters = s.counters ∧ t.dram = s.dram) ∧
      (s.run = .armed → s.armBeat ≤ s.beat + 1 → s.commit = none → s.permute = none → s.stopBeat = none → t.run = .running ∧
        t.fld F.ES_STEP_STATUS_ATTEMPT 0 0 = 1 ∧ begun t ∧
        ∀ j, s.job = some j → ∀ x ∈ j.rootSecs, entered t x.root) ∧
      ((s.run = .running ∨ s.run = .held) → s.permute = none → s.stopBeat = none →
        (s.beat + 1 < s.fld F.ES_STEP_NEXT_BEAT 0 0 → t.run = s.run ∧ t.fld F.ES_STEP_STATUS_ACC_CLEAN 0 0 = b2n good ∧
          t.fld F.ES_STEP_STATUS_POS 0 0 = (s.fld F.ES_STEP_STATUS_POS 0 0 + 1) % 2 ^ F.ES_STEP_STATUS_POS.width ∧
          t.fld F.ES_STEP_STATUS_ATTEMPT 0 0 = attempt ∧ t.fld F.ES_STEP_NUM_STEP 0 0 = step ∧
          (s.job.isSome = true → t.esc.due0 = true) ∧
          ∀ r, r < 8 → (t.rve r).cur = (s.rve r).cur ∧
            ((s.rve r).st = .endWait → (t.rve r).st = .run ∧ (t.rve r).pc = (s.rve r).pc)) ∧
        (s.fld F.ES_STEP_NEXT_BEAT 0 0 ≤ s.beat + 1 →
          (good = true → t.run = s.run ∧ begun t ∧ levelled t ∧ t.fld F.ES_STEP_STATUS_LAST_VERDICT 0 0 = 1 ∧
            t.fld F.ES_STEP_NUM_STEP 0 0 = (step + 1) % 2 ^ F.ES_STEP_NUM_STEP.width ∧
            t.fld F.ES_STEP_STATUS_ATTEMPT 0 0 = 1 ∧
            ∀ r, r < 8 → (t.rve r).cur = (if (s.rve r).skip = true then (s.rve r).cur else 1 - (s.rve r).cur) ∧
              (t.rve r).skip = false ∧ ((s.rve r).st = .endWait → (t.rve r).st = .run ∧ (t.rve r).pc = (s.rve r).pc)) ∧
          (good = false → attempt < s.fld F.ES_STEP_CFG_REPLAY_LIMIT 0 0 → t.run = s.run ∧ begun t ∧ levelled t ∧
            t.fld F.ES_STEP_STATUS_LAST_VERDICT 0 0 = 0 ∧ t.fld F.ES_STEP_NUM_STEP 0 0 = step ∧
            t.fld F.ES_STEP_STATUS_ATTEMPT 0 0 = satAdd F.ES_STEP_STATUS_ATTEMPT.width attempt 1 ∧
            (∀ i, i < 1536 → (s.physOf i).isSome = true → (t.tile i).core = .waiting ∧ (t.tile i).sreg = [] ∧
              (t.tile i).pc = s.fld F.TL_ENTRY_ENTRY i 0) ∧
            ∀ r, r < 8 → (t.rve r).cur = (s.rve r).cur ∧ (t.rve r).skip = false ∧
              ((s.rve r).st = .endWait → entered t r ∧ (t.rve r).x = [] ∧ (t.rve r).z = [])) ∧
          (good = false → s.fld F.ES_STEP_CFG_REPLAY_LIMIT 0 0 ≤ attempt → t.run = .stopped ∧
            t.fld F.ES_STEP_STATUS_LIMIT 0 0 = 1 ∧ t.fld F.ES_STEP_NUM_STEP 0 0 = step ∧
            t.fld F.ES_STEP_STATUS_ATTEMPT 0 0 = 0 ∧ ∀ r, r < 8 → (t.rve r).cur = (s.rve r).cur)))
    let pin : Prop := s.role = 2 ∧ s.fld F.ES_BEAT_CFG_REF_SRC 0 0 = 0
    let word : Prop := s.role = 2 ∧ s.fld F.ES_BEAT_CFG_REF_SRC 0 0 = 1
    (pin → s.atRc = false → Completes (.refEdge .beatIn) s (fun s' => s' = { s with bt := { s.bt with pinEdge := true } })) ∧
    (pin → s.atRc = true → s.bt.pinEdge = true →
      exec (.refEdge .beatIn) { s with bt := { s.bt with pinEdge := false, linkEdges := 0 } } = .next s.pinRegister) ∧
    (∀ g, word →
      ((s.bt.held = none ∨ s.bt.held = some g) → Completes (.refEdge (.refWord g)) s (fun s' =>
        s' = { s with bt := { s.bt with held := some g } })) ∧
      (s.bt.held = some (!g) → s.atRc = false → Completes (.refEdge (.refWord g)) s (fun s' =>
        s' = { s with bt := { s.bt with held := some g, linkEdges := s.bt.linkEdges + 1 } })) ∧
      (s.bt.held = some g → s.atRc = true → s.bt.linkEdges = 1 →
        exec (.refEdge (.refWord g)) { s with bt := { s.bt with pinEdge := false, linkEdges := 0, held := some (!g) } } =
          .next s.pinRegister) ∧
      (∀ n f, n < 24 → s.linkRuns n = true → flitGood f = true → f.type = 1 → s.seqr.held.contains 9 = false →
        s.fld F.ES_BEAT_CFG_REF_LINK 0 0 = n → f.beat.getLsbD 2 = g → (s.bt.held = some (!g) → s.atRc = false) →
        Completes (.linkIdleFlit n f) s (fun s' => s'.beat = s.beat ∧ s'.bt.held = some g ∧
          s'.bt.linkEdges = s.bt.linkEdges + (if s.bt.held = some (!g) then 1 else 0)))) ∧
    (∀ c, (pin ∧ c = Instr.refEdge .beatIn ∨ word ∧ ∃ g, c = Instr.refEdge (.refWord g) ∧ s.bt.held = some (!g)) →
      s.atRc = true →
      (∀ l, s.bt.lastEdge = some l → s.rc - l < gap → Completes c s (fun s' => s'.beat = s.beat ∧
        s'.fld F.ES_BEAT_STATUS_GLITCHES 0 0 = (s.fld F.ES_BEAT_STATUS_GLITCHES 0 0 + 1) % 2 ^ F.ES_BEAT_STATUS_GLITCHES.width ∧
        s' = { s with regs := s'.regs, bt := { s.bt with held := s'.bt.held } })) ∧
      ((∀ l, s.bt.lastEdge = some l → gap ≤ s.rc - l) →
        (∀ d, s.bt.domReady = some d → d + 1 ≤ s.rc → Completes c s (fun s' => adopts s.subtreeClean s' ∧
          s'.bt.lastEdge = some s.rc ∧ s'.bt.tgl = !s.bt.tgl)) ∧
        ((∀ d, s.bt.domReady = some d → s.rc ≤ d) → Completes c s (fun s' => s'.beat = s.beat ∧ s'.bt.lastEdge = some s.rc ∧
          s'.bt.tgl = (!s.bt.tgl) ∧
          (let f := if (s.bt.noHoldLow || !s.subtreeNohold) = true then F.ES_MISSED_EDGES_HELD else F.ES_MISSED_EDGES_UNHELD
           s'.fld f 0 0 = (s.fld f 0 0 + 1) % 2 ^ f.width) ∧
          s' = { s with regs := s'.regs, bt := s'.bt })))) ∧
    (∀ n f, n < 24 → s.linkRuns n = true → flitGood f = true → f.type = 1 → s.seqr.held.contains 9 = false →
      s.isParent n = true → f.beat.getLsbD 23 = true →
      let dn := (f.beat.extractLsb' 24 8).toNat
      (dn = (s.beat + 1) % 256 → Completes (.linkIdleFlit n f) s (fun s' => adopts (f.beat.getLsbD 22) s' ∧
        ∀ m, s'.isChild m = true → s'.bt.mute = false → ((s'.beatWord m).extractLsb' 24 8).toNat = dn ∧
          (s'.beatWord m).getLsbD 23 = true ∧ (s'.beatWord m).getLsbD 22 = f.beat.getLsbD 22)) ∧
      (dn = s.beat % 256 → Completes (.linkIdleFlit n f) s (fun s' => s'.beat = s.beat ∧ s'.run = s.run ∧ s'.errs = s.errs)) ∧
      (dn ≠ (s.beat + 1) % 256 → dn ≠ s.beat % 256 → Completes (.linkIdleFlit n f) s (fun s' => s'.beat = s.beat ∧
        s'.fld F.ES_BEAT_STATUS_SEQ_ERR 0 0 = 1 ∧ s'.run = .faulted ∧ s'.esc.segOn = false ∧
        ∃ e, s'.errs = s.errs ++ [e] ∧ e.cls = 3))) ∧
    (s.role ≠ 2 → ∀ x, Completes (.refEdge x) s (fun s' => s' = s) ∧ Completes .refTimeout s (fun s' => s' = s)) ∧
    (s.role = 2 → 0 < s.fld F.ES_REF_CFG_REF_TIMEOUT 0 0 → s.bt.refFrom + s.fld F.ES_REF_CFG_REF_TIMEOUT 0 0 ≤ s.rc →
      Completes .refTimeout s (fun s' => s'.fld F.ES_BEAT_STATUS_REF_LOST 0 0 = 1 ∧ s' = { s with regs := s'.regs }))

/-- MARK_UNCLEAN marks the current beat up to the edge at which it is locally ready, and after that the next; RUN_STOPPED takes a DRAINING device
that is quiescent, with no checkpoint in progress and no commit pending, to STOPPED at an rc edge. Outside a run a mark is
of the next beat (log entry 57). LOCAL_READY of a
run outside a PERMUTE: with the segment ended, its clearing done, no commit holding, every root program done, no image
left to copy and no checkpoint that the step boundary waits for, the device becomes locally ready, at a step boundary with its parity
windows fresh for the next checkpoint (log entry 137); where a checkpoint
is in progress at a step boundary its LATE is set. HOLD_ACCOUNTING charges the rc edge to the cause that holds the
tiles, once, and none in the last four rc of a forced release of a freeze for a due point, nor before the freeze's first rc
edge. -/
def Obligations.BeatMarksAndHolds : Prop :=
  (∀ (s : State),
     ((s.esc.ready = false ∨ s.esc.readyAt = s.edge) → s.idleRun = false →
       Completes .markUnclean s (fun s' => s' = { s with unclean := true })) ∧
     (((s.esc.ready = true ∧ s.esc.readyAt ≠ s.edge) ∨ s.idleRun = true) →
       Completes .markUnclean s (fun s' => s' = { s with uncleanNext := true })) ∧
     (s.run = .draining → s.atRc = true → s.quiescent = true → s.anyCkpt = false → s.commit = none →
       Completes .runStopped s (fun s' => s'.run = .stopped ∧ s'.esc = { s.esc with ready := true, readyAt := s.edge } ∧ s'.stopBeat = none ∧
         s'.permute = none ∧ s'.fld F.ES_STEP_STATUS_POS 0 0 = 0 ∧ s'.fld F.ES_STEP_STATUS_ATTEMPT 0 0 = 0 ∧
         s'.tiles = s.tiles ∧ s'.roots = s.roots ∧ s'.counters = s.counters ∧ s'.dram = s.dram))) ∧
  (∀ (s : State), s.atRc = true →
     ((s.run = .running ∨ s.run = .held) → s.esc.ready = false → s.permute = none → s.esc.ended = true →
       s.esc.cleared = true → s.esc.hold = none → s.rvesDone = true →
       (s.esc.moved = [] → (s.atStepBoundary = false ∨ s.anyCkpt = false) →
         Completes .localReady s (fun s' => s' = { s with esc := { s.esc with ready := true, readyAt := s.edge }, roots := s'.roots } ∧
           (s.atStepBoundary = false → s'.roots = s.roots) ∧
           ∀ r, s'.root r = { s.root r with ckpt := { (s.root r).ckpt with
               xored := (s'.root r).ckpt.xored, xbad := (s'.root r).ckpt.xbad } } ∧
             (s.atStepBoundary = true → r < 8 → (s'.root r).ckpt.xored = 0 ∧ (s'.root r).ckpt.xbad = false))) ∧
       (∀ r, r < 8 → s.atStepBoundary = true → s.ckptBusy r = true → Completes .localReady s (fun s' =>
         s'.esc.ready = false ∧ s'.fld F.RT_CKPT_STATUS_LATE r 0 = 1 ∧
         s' = { s with regs := s'.regs, w1cSets := s'.w1cSets }))) ∧
     ((s.run = .running ∨ s.run = .held) → s.esc.charged ≠ s.rc + 1 →
       (s.esc.frozen = none → s.esc.hold = none → s.boundaryWait = true → Completes .holdAccounting s (fun s' =>
         s'.fld F.ES_HOLD_CNT_COUNT 0 7 = (s.fld F.ES_HOLD_CNT_COUNT 0 7 + 1) % 2 ^ F.ES_HOLD_CNT_COUNT.width ∧
         s'.esc = { s.esc with charged := s.rc + 1 } ∧ s' = { s with esc := s'.esc, regs := s'.regs })) ∧
       (∀ x, s.esc.frozen = some x → s.rc < x → s.esc.hold = none → s.boundaryWait = false →
         Completes .holdAccounting s (fun s' => s' = { s with esc := { s.esc with charged := s.rc + 1 } })) ∧
       (∀ x y f, s.esc.frozen = some x → x ≤ s.rc → s.esc.resume = some y → s.esc.forced = true → f ∈ s.heads → f.kind = .due →
         y < 6 * (s.rc + 4) → Completes .holdAccounting s (fun s' => s' = { s with esc := { s.esc with charged := s.rc + 1 } })) ∧
       (∀ x y, s.esc.frozen = some x → x ≤ s.rc → s.esc.resume = some y → s.esc.forced = false → s.esc.hold = none →
         s.clearingOpen = false → s.esc.cause < 7 → Completes .holdAccounting s (fun s' =>
           s'.fld F.ES_HOLD_CNT_COUNT 0 s.esc.cause =
             (s.fld F.ES_HOLD_CNT_COUNT 0 s.esc.cause + 1) % 2 ^ F.ES_HOLD_CNT_COUNT.width ∧
           s'.fld F.ES_HOLD_BEAT_CURRENT 0 0 = satAdd F.ES_HOLD_BEAT_CURRENT.width (s.fld F.ES_HOLD_BEAT_CURRENT 0 0) 1 ∧
           s'.esc = { s.esc with charged := s.rc + 1 } ∧ s' = { s with esc := s'.esc, regs := s'.regs }))))

/-- SEGMENT_START at the first rc edge 8 rc after the adoption starts every waiting core at superstep 0, to issue in cycle 0,
which the edge delivers unless it is held back or swallowed, or a freeze for cycle 0 begins with it; with an edge that is swallowed
none begins (R394). SEGMENT_END after cycle L
ends the segment: cores that run or wait at a boundary are at its end, and what the tiles have claimed stands.
BOUNDARY_CHECK in a boundary's cycle lets a core that waits for it run on in the next cycle. -/
def Obligations.Segments : Prop :=
  ∀ (s : State), s.tiles.canon Tile.fresh = true →
    let started (c : Nat) (s' : State) : Prop := s'.esc.segOn = true ∧ s'.esc.due0 = false ∧ s'.esc.tc = s.esc.tc ∧
      (∀ t, t < 1536 → (s.physOf t).isSome = true → (s'.tile t).sstep = 0 ∧ (s'.tile t).cyc = c ∧
        (s'.tile t).pc = (s.tile t).pc ∧ (s'.tile t).sreg = (s.tile t).sreg ∧ (s'.tile t).mem = (s.tile t).mem ∧
        ((s'.tile t).core = .run ↔ ((s.tile t).core = .waiting ∨ (s.tile t).core = .segmentEnd ∨
          (s.tile t).core = .boundWait ∨ (s.tile t).core = .run))) ∧
      s'.counters = s.counters ∧ s'.dram = s.dram ∧ s'.roots = s.roots
    (s.esc.due0 = true → s.atRc = true → s.esc.adopted + 48 ≤ s.edge →
      (s.esc.freezes = [] → s.esc.live = true → Completes .segmentStart s (fun s' => started s.esc.tc s' ∧ s'.esc.next = 1 ∧
        s'.esc.live = true)) ∧
      (s.esc.freezes = [] → s.esc.live = false → Completes .segmentStart s (fun s' => started (s.esc.tc + 1) s' ∧
        s'.esc.next = 0 ∧ s'.esc.frozen = s.esc.frozen)) ∧
      (∀ f, s.esc.freezes = [f] → f.cycle = 0 → s.esc.frozen = none → s.esc.hold = none → s.run = .running →
        Completes .segmentStart s (fun s' => started (s.esc.tc + 1) s' ∧ s'.esc.next = 0 ∧ s'.esc.live = false ∧
          (s.swallowedAt s.edge = false → s'.esc.frozen = some s.rc ∧ s'.run = .held) ∧
          (s.swallowedAt s.edge = true → s'.esc.frozen = none ∧ s'.run = .running)))) ∧
    (s.ticking = true → s.esc.next = s.esc.len + 1 → (∀ t, (s.tile t).matrix.filler = []) →
      Completes .segmentEnd s (fun s' => s'.esc.segOn = false ∧ s'.esc.ended = true ∧ s'.esc.freezes = [] ∧
        s'.esc.lastEnd = some s.beat ∧
        (∀ t, (s'.tile t).core = (if (s.tile t).core = .run ∨ (s.tile t).core = .boundWait then .segmentEnd else (s.tile t).core) ∧
          (s'.tile t).sreg = (s.tile t).sreg ∧ (s'.tile t).vreg = (s.tile t).vreg ∧ (s'.tile t).mem = (s.tile t).mem ∧
          (s'.tile t).claims = (s.tile t).claims ∧ (s'.tile t).groups = (s.tile t).groups ∧ (s'.tile t).wait = none) ∧
        (∀ v ∈ s'.waiters, 4096 ≤ v.unit) ∧ s'.counters = s.counters ∧ s'.dram = s.dram ∧ s'.roots = s.roots)) ∧
    (∀ j b, s.boundary j = some b → s.ticking = true → s.esc.next = b + 1 → s.esc.bndDone.contains j = false →
      (s.boundary (j + 1)).isSome = true →
      (∀ t, (s.tile t).core = .boundWait → (s.tile t).sstep = j + 1) →
      (∀ t, (s.tile t).core ≠ .run ∧ (s.tile t).core ≠ .parkedErr ∧ (s.tile t).startAt = none) →
      Completes (.boundaryCheck j) s (fun s' => s'.esc = { s.esc with bndDone := s.esc.bndDone ++ [j] } ∧
        (∀ t, s'.tile t = if (s.tile t).core = .boundWait then
          { s.tile t with core := .run, cyc := s.esc.tc + 1, fetchAt := s.esc.tc + 1 } else s.tile t) ∧
        s' = { s with esc := s'.esc, tiles := s'.tiles }))

/-- DUE_CHECK, FREEZE, RELEASE and FORCED_RELEASE: in cycle d − 20 the entries due in cycle d are checked once, and an
unmet one issues a freeze; FREEZE at its cycle stops delivery from the next rc edge and holds the run, but at an
edge after which the next would be swallowed it does not begin; RELEASE at the
first rc edge at which every entry is met resumes four rc later; after LIMIT rc of the hold (log entry 56) the release is forced and the beat
unclean. -/
def Obligations.FreezesAndReleases : Prop :=
  ∀ (s : State),
    (∀ d e k, s.ticking = true → 20 ≤ d → s.esc.next = d - 19 → s.dues d = [e] → s.esc.dueDone.contains d = false →
      crefKey none e.cref = some k → k < 0x30000 → Completes (.dueCheck d) s (fun s' =>
        s'.esc = { s.esc with dueDone := s.esc.dueDone ++ [d]
                              freezes := s.esc.freezes ++ (if e.value ≤ s.value k then [] else [⟨d, .due, e.cause⟩]) } ∧
        s' = { s with esc := s'.esc })) ∧
    (s.swallowedAt (s.edge + 1) = true → Completes .freeze s (fun s' => s' = s)) ∧
    (∀ f, s.flowing = true → s.swallowedAt (s.edge + 1) = false → s.heads = [f] → s.run = .running → Completes .freeze s (fun s' =>
      s'.esc.frozen = some (s.edge / 6 + 1) ∧ s'.esc.resume = none ∧ s'.esc.cause = f.cause ∧ s'.run = .held ∧
      s'.esc.next = s.esc.next ∧ s' = { s with esc := s'.esc, run := s'.run })) ∧
    (∀ x f e k, s.esc.frozen = some x → s.esc.resume = none → s.atRc = true → x ≤ s.rc → s.heads = [f] → f.kind = .due →
      s.dues f.cycle = [e] → crefKey none e.cref = some k → k < 0x30000 → e.value ≤ s.value k →
      Completes .release s (fun s' => s' = { s with esc := { s.esc with resume := some (6 * (s.rc + 4)) } })) ∧
    (∀ x, s.esc.frozen = some x → s.esc.resume = none → s.atRc = true → x ≤ s.rc →
      s.fld F.ES_HOLD_CFG_LIMIT 0 0 ≤ s.rc - x + 1 → s.clearingOpen = false → Completes .forcedRelease s (fun s' =>
        s'.esc = { s.esc with resume := some (6 * (s.rc + 4)), forced := true } ∧
        s'.fld F.ES_HOLD_STATUS_FORCED 0 0 = 1 ∧ (s'.unclean = true ∨ s'.uncleanNext = true) ∧
        s' = { s with
          esc := s'.esc, regs := s'.regs, w1cSets := s'.w1cSets, unclean := s'.unclean, uncleanNext := s'.uncleanNext }))

/-- The events of a clearing point. The decision is made once, and freezes the tiles where an action is pending; at
the freeze's first rc edge the Tiles group is checked, and a miss is counted where it is not quiet; the clearing takes
place when the device is quiescent and is recorded; after WAIT_LIMIT rc of the freeze (log entry 56) the point is a
miss. -/
def Obligations.ClearingPoints : Prop :=
  ∀ (s : State),
    let missed (s' : State) : Prop :=
      s'.fld F.ES_CLEAR_MISS_COUNT 0 0 = (s.fld F.ES_CLEAR_MISS_COUNT 0 0 + 1) % 2 ^ F.ES_CLEAR_MISS_COUNT.width ∧
      s'.clearingOpen = false ∧ s'.esc.resume = some (6 * (s.rc + 4)) ∧ s'.tiles = s.tiles ∧ s'.roots = s.roots ∧
      s'.counters = s.counters
    (∀ b, s.clearPoint b = true → s.esc.decided.contains b = false → s.ticking = true → 20 ≤ b → s.esc.next = b - 19 →
      Completes (.clearingPointDecision b) s (fun s' =>
        s'.esc = { s.esc with decided := s.esc.decided ++ [b]
                              freezes := s.esc.freezes ++ (if s.actionPending then [⟨b, .clearing, 5⟩] else []) } ∧
        s' = { s with esc := s'.esc })) ∧
    (s.frozenFor = some 1 → s.clearingOpen = true → s.esc.tilesOk = false →
      (s.quietTiles = true → Completes .clearingTilesCheck s (fun s' => s' = { s with esc := { s.esc with tilesOk := true } })) ∧
      (s.quietTiles = false → (∀ f ∈ s.esc.freezes, f.kind = .clearing) → Completes .clearingTilesCheck s missed)) ∧
    (s.frozenFor.isSome = true → s.clearingOpen = true → s.esc.tilesOk = true → s.quiescent = true →
      s.commit = none → s.sparesPending = false → (∀ f ∈ s.esc.freezes, f.kind = .clearing) →
      Completes .clearing s (fun s' => s'.fld F.ES_CLEAR_LAST_BEAT 0 0 = s.beat % 2 ^ F.ES_CLEAR_LAST_BEAT.width ∧
        s'.fld F.ES_CLEAR_INFO_CYCLE 0 0 = s.esc.next % 2 ^ F.ES_CLEAR_INFO_CYCLE.width ∧
        s'.fld F.ES_CLEAR_INFO_COUNT 0 0 = (s.fld F.ES_CLEAR_INFO_COUNT 0 0 + 1) % 2 ^ F.ES_CLEAR_INFO_COUNT.width ∧
        s'.clearingOpen = false ∧ s'.esc.resume = some (6 * (s.rc + 4)) ∧ s'.tiles = s.tiles ∧ s'.counters = s.counters)) ∧
    (∀ n, s.frozenFor = some n → s.clearingOpen = true → s.esc.tilesOk = true → s.quiescent = false →
      s.fld F.ES_CLEAR_CFG_WAIT_LIMIT 0 0 ≤ n → (∀ f ∈ s.esc.freezes, f.kind = .clearing) →
      Completes .clearingWaitLimit s missed)

/-- CHECKPOINT_COMPLETE of a checkpoint whose copies are all written: the header for the buddy goes out at the rate
that RATE sets (log entries 51 and 137), and with it acknowledged, or with no other place to write one, the own header is written, BUSY clears, LAST_DONE
is its step and NEXT_SLOT inverts; it waits while the header's path is occupied (log entry 117). PERMUTE_ROUND_DONE of a root die with no packet of the round outstanding or waiting is noted once, with the round in its
control line. TILE_IMAGE_COPY_DONE at the step boundary puts the persistent image of a moved tile into its scratchpad, once
the paths that hold it are free (log entry 117). -/
def Obligations.LongRunEvents : Prop :=
  ∀ (s : State) (r : Nat), r < 8 → s.PathsSound → (∀ b, s.dramCheck b = 0) →
    let c := (s.root r).ckpt
    let data := s.dramBytes (s.partAddr r c.slot 0 + partData) (s.ckptLen r)
    (s.ckptDone r = true → s.ckptMode ≠ 2 → (s.ckptMode = 1 ∨ s.ckptHost = true → c.hdrs = true) →
      s.partAddr r c.slot 0 + 256 ≤ dramEnd → s.rangesHeld [(s.partAddr r c.slot 0, 256)] = true →
      Completes (.checkpointComplete r) s (fun s' => s' = s)) ∧
    (s.ckptDone r = true → s.ckptMode ≠ 2 → (s.ckptMode = 1 ∨ s.ckptHost = true → c.hdrs = true) →
      s.partAddr r c.slot 0 + 256 ≤ dramEnd → s.rangesHeld [(s.partAddr r c.slot 0, 256)] = false →
      Completes (.checkpointComplete r) s (fun s' => s'.fld F.RT_CKPT_STATUS_BUSY r 0 = 0 ∧
        s'.fld F.RT_CKPT_STATUS_LAST_DONE r 0 = c.step % 2 ^ F.RT_CKPT_STATUS_LAST_DONE.width ∧
        s'.fld F.RT_CKPT_STATUS_NEXT_SLOT r 0 = (1 - c.slot) % 2 ∧
        DramWritten s s' (s.partAddr r c.slot 0) (s.ckptHdr r 0 data).bytes ∧
        SameTiles s s' ∧ s'.counters = s.counters ∧ s'.net = s.net)) ∧
    (s.ckptDone r = true → s.ckptMode = 1 → s.ckptHost = false → c.hdrs = false → s.partAddr r c.slot 1 % 256 = 0 →
      (s.ckptHdr r 1 data).bytes.length = 256 →
      Completes (.checkpointComplete r) s (fun s' => (s'.root r).ckpt = { c with
          hdrs := true
          next := s.rc + (256 + s.fld F.RT_CKPT_CFG_RATE 0 0 - 1) / s.fld F.RT_CKPT_CFG_RATE 0 0 } ∧
        s'.net = s.net ++ [atSource (5, r) (mkPacket
          { dest := sysAddr (s.fld F.RT_CKPT_PEER_BUDDY 0 0) (s.partAddr r c.slot 1), unit := unitId 9 r, dev := s.self
            kind := 1, len := 256, tag := (s.root r).nextTag, payload := (s.ckptHdr r 1 data).bytes })] ∧
        s'.regs = s.regs ∧ s'.dram = s.dram ∧ SameTiles s s' ∧ s'.counters = s.counters)) ∧
    (∀ p, s.permute = some p → p.b0 ≤ s.beat → s.beat < p.b0 + p.rounds → p.finished.contains r = false →
      (∀ o ∈ (s.root r).outs, o.op ≠ .permute) → (s.root r).reqs.any DramReq.permutes = false →
      Completes (.permuteRoundDone r) s (fun s' =>
        s'.permute = some { p with finished := p.finished ++ [r] } ∧
        s'.ctl r 12 % 2 ^ 16 = (s.beat - p.b0) % 2 ^ 16 ∧ (∀ u, u ≠ r → s'.root u = s.root u) ∧
        s'.rve r = { s.rve r with perm := (s'.rve r).perm } ∧ s'.net = s.net ∧ SameTiles s s')) ∧
    (∀ t j x, s.esc.segOn = false → s.esc.cleared = true → s.esc.moved = [t] → s.job = some j →
      j.tiles.find? (fun y => y.tile == t) = some x → (s.physOf t).isSome = true →
      s.BanksOn t → s.RowsApart t → x.plen ≤ 0x180000 →
      (s.rangesHeld [(x.img, x.plen)] = true → Completes .tileImageCopyDone s (fun s' => s' = s)) ∧
      (s.rangesHeld [(x.img, x.plen)] = false → Completes .tileImageCopyDone s (fun s' =>
        s'.esc.moved = [] ∧ SpWritten s s' t 0 (s.dramBytes x.img x.plen) ∧ (∀ u, u ≠ t → s'.tile u = s.tile u) ∧
        SameDram s s' ∧ s'.net = s.net)))

/-! ## Reset, boot and power -/

/-- POWER_ON_RESET, RESET_PIN, CRITICAL_STATE_RESET, COMMAND_RESET and WATCHDOG_RESET. Each latches its cause. In native
mode the first two reach every domain, the next two all but the link layer, a first or second watchdog expiry the Crown
alone, which leaves the run as it is, and the third within 10 s all but the link layer; one that keeps the link layer keeps the
packets in the ring segments (log entry 145). A power-on with RESET_N low waits for its release; its T0 lies 33 crystal cycles on
(log entry 63). In compatibility mode each but the
power-on waits two rc from its start and then reaches every domain, with RESET_N driven low for 1,000,000 rc from the start or the
end of its source, whichever is later, and a second source before that moves the end alone (log entry 124). RESET_PIN counts the low rc
edges up to the present one, and a later report of the same pulse moves its end and is no source of its own (log entry 94). A power-on
loses DRAM; no other loses it. None changes the flash. DOMAIN_RELEASE of a row whose time has come releases its domains, in compatibility
mode every held one with one command (log entry 94), where its PLL has locked, and waits for it where it has not; PLL_LOCK_TIMEOUT then
ends the boot in FAILED; RESET_N_RELEASE sets T0 at the sixteenth rc edge with RESET_N high after it read low last, in compatibility mode
one later; RESET_STRETCH_END ends the device's own drive of RESET_N. -/
def Obligations.ResetSourcesAndReleases : Prop :=
  (∀ (s : State) (x : PowerUp), s.railsOn = true → Completes (.powerOnReset x) s (fun s' =>
     s'.fld F.RS_CAUSE_CAUSE 0 0 = s.powerCause ∧ s'.flash = s.flash ∧
     (∀ d ∈ [1, 2, 3, 4, 5, 6, 7, 8, 9], s'.seqr.held.contains d = true) ∧ s'.Cleared ∧ s'.links = [] ∧ s'.net = [] ∧
     s'.dram = [] ∧ s'.fld F.RS_STRAPS_SMB_ADDR 0 0 = x.straps.toNat / 2 ∧ s'.fld F.RS_STRAPS_RST_MODE 0 0 = x.straps.toNat % 2 ∧
     s'.seqr.main = true ∧ s'.seqr.drive = (if x.straps.getLsbD 0 then some (s.rc + 1000000) else none) ∧
     s'.seqr.pinLow = (if x.resetLow = true ∧ x.straps.getLsbD 0 = false then some (s.rc + crystal 33) else none) ∧
     s'.seqr.t0 = (if x.resetLow || x.straps.getLsbD 0 then none else some (s.rc + crystal 33)))) ∧
  (∀ (s : State), s.fld F.RS_STRAPS_RST_MODE 0 0 = 0 →
     let latched (c : Nat) (s' : State) : Prop := s'.fld F.RS_CAUSE_CAUSE 0 0 = c ∧ s'.flash = s.flash
     let holds (l : List Nat) (s' : State) : Prop := ∀ d ∈ l, s'.seqr.held.contains d = true
     let keeps (s' : State) : Prop := holds [1, 3, 4, 5, 6, 7, 8, 9] s' ∧ s'.Cleared ∧ s'.links = s.links ∧
       s'.net = s.ringKept ∧ s'.dram = s.dram
     (∀ n, n < 8 → Completes (.resetPin n) s (fun s' => s' = s)) ∧
     (∀ n, 8 ≤ n → s.seqr.main = true →
       ((∀ x, s.seqr.pinFrom = some x → x < s.rc + 8 - n) → Completes (.resetPin n) s (fun s' => latched 4 s' ∧
         holds [1, 2, 3, 4, 5, 6, 7, 8, 9] s' ∧ s'.Cleared ∧ s'.links = [] ∧ s'.net = [] ∧ s'.dram = s.dram ∧
         s'.seqr.t0 = none ∧ s'.seqr.pinLow = some s.rc ∧ s'.seqr.pinFrom = some (s.rc + 8 - n))) ∧
       (∀ x, s.seqr.pinFrom = some x → s.rc + 8 - n ≤ x → s.seqr.arm = none → Completes (.resetPin n) s (fun s' =>
         s' = { s with seqr := { s.seqr with pinLow := some s.rc } }))) ∧
     (∀ block inst, s.seqr.main = true → block < 16 → inst < 4096 → Completes (.criticalStateReset block inst) s (fun s' =>
       latched 5 s' ∧ s'.fld F.RS_CAUSE_DETAIL 0 0 = block * 4096 + inst ∧ keeps s' ∧ s'.seqr.t0 = some (s.rc + 256))) ∧
     (∀ x, s.crown.resetAt = some x → x ≤ s.rc → Completes .commandReset s (fun s' => latched 8 s' ∧ keeps s')) ∧
     (s.seqr.held.contains 1 = false → s.seqr.arm = none → s.crown.wdFrom + s.crown.settings.watchdog ≤ s.rc →
       let recent := s.crown.wdExp.filter (fun x => decide (s.rc < x + 1000000000))
       (recent.length < 2 → Completes .watchdogReset s (fun s' => latched 6 s' ∧ holds [1] s' ∧ s'.run = s.run ∧
         s'.tiles = s.tiles ∧ s'.counters = s.counters ∧ s'.dram = s.dram ∧ s'.crown.queue = s.crown.queue ∧
         s'.fld F.RS_WDOG_COUNT 0 0 = (s.fld F.RS_WDOG_COUNT 0 0 + 1) % 2 ^ F.RS_WDOG_COUNT.width)) ∧
       (2 ≤ recent.length → Completes .watchdogReset s (fun s' => latched 7 s' ∧ keeps s')))) ∧
  (∀ (s : State), s.fld F.RS_STRAPS_RST_MODE 0 0 = 1 →
     let waits (a : Armed) (s' : State) : Prop :=
       s' = { s with seqr := { s.seqr with arm := some a, pinLow := s'.seqr.pinLow, pinFrom := s'.seqr.pinFrom } }
     let fresh (n : Nat) : Prop := ∀ x, s.seqr.pinFrom = some x → x < s.rc + 8 - n
     let high (n : Nat) : Nat := s.seqr.pinLow.elim n (fun x => min n (s.rc - x))
     let reset (cause detail low : Nat) (s' : State) : Prop := s'.fld F.RS_CAUSE_CAUSE 0 0 = cause ∧
       s'.fld F.RS_CAUSE_DETAIL 0 0 = detail ∧ s'.flash = s.flash ∧ s'.Cleared ∧ s'.links = [] ∧ s'.net = [] ∧ s'.dram = s.dram ∧
       s'.seqr.drive = some (low + 1000000) ∧ s'.seqr.arm = none ∧
       ∀ d ∈ [1, 2, 3, 4, 5, 6, 7, 8, 9], s'.seqr.held.contains d = true
     (s.seqr.main = true → s.seqr.arm = none →
       (∀ n, (n = 8 ∨ n = 9) → 1 ≤ s.rc → fresh n → Completes (.resetPin n) s (waits ⟨s.rc + 8 - n, s.rc, 4, 0⟩)) ∧
       (∀ n, 10 ≤ n → 2 ≤ s.rc → fresh n → Completes (.resetPin n) s (reset 4 0 s.rc)) ∧
       (∀ n x, 8 ≤ n → s.seqr.pinFrom = some x → s.rc + 8 - n ≤ x → s.seqr.t0 = none → s.seqr.held ≠ [] →
         Completes (.resetPin n) s (fun s' => s' = { s with seqr := { s.seqr with
           drive := some (max (s.seqr.drive.getD 0) (s.rc + 1000000)), pinLow := some s.rc } })) ∧
       (∀ block inst, block < 16 → inst < 4096 →
         Completes (.criticalStateReset block inst) s (waits ⟨s.rc, s.rc, 5, block * 4096 + inst⟩)) ∧
       (∀ x, s.crown.resetAt = some x → x ≤ s.rc → Completes .commandReset s (waits ⟨s.rc, s.rc, 8, 0⟩))) ∧
     (∀ a, s.seqr.main = true → s.seqr.arm = some a → s.rc < a.c + 2 → ∀ block inst, block < 16 → inst < 4096 →
       Completes (.criticalStateReset block inst) s (waits { a with e := max a.e s.rc })) ∧
     (∀ a n x, s.seqr.main = true → s.seqr.arm = some a → 8 ≤ n → s.seqr.pinFrom = some x → s.rc + 8 - n ≤ x →
       Completes (.resetPin n) s (waits { a with e := max a.e s.rc })) ∧
     (∀ a, s.seqr.arm = some a → a.cause < 16 → a.detail < 2 ^ 16 → a.c + 2 ≤ s.rc →
       reset a.cause a.detail (max a.e a.c) s.compatReset) ∧
     (∀ n, 16 ≤ high n → s.seqr.drive = none → s.seqr.arm = none → s.seqr.t0 = none → s.seqr.main = true → s.seqr.held ≠ [] →
       Completes (.resetNRelease n) s (fun s' => s' = { s with seqr := { s.seqr with
         pinLow := none, t0 := some (s.rc + 16 - high n + 1), clk0 := s.rc + 16 - high n + 1 } })) ∧
     (∀ n, high n < 16 → Completes (.resetNRelease n) s (fun s' => s' = s)) ∧
     (∀ row, row < 8 → s.rowDue row 0 = true → Completes (.domainRelease row true) s (fun s' => s'.seqr.held = [] ∧
       s'.seqr.pllFrom = none ∧ s'.tiles = s.tiles ∧ s'.roots = s.roots ∧ s'.dram = s.dram ∧ s'.run = s.run))) ∧
  (∀ (s : State) (row : Nat), row < 8 → s.fld F.RS_STRAPS_RST_MODE 0 0 = 0 →
     (s.rowDue row 0 = true →
       Completes (.domainRelease row true) s (fun s' => (∀ d, s'.seqr.held.contains d =
           (s.seqr.held.contains d && !(releaseRow row).1.contains d)) ∧ s'.seqr.pllFrom = none ∧
         s'.tiles = s.tiles ∧ s'.roots = s.roots ∧ s'.dram = s.dram ∧ s'.run = s.run ∧
         (row = 0 → s'.crown.wdFrom = s.rc ∧ s'.phase = 0)) ∧
       Completes (.domainRelease row false) s (fun s' => s'.seqr.pllFrom = some (s.seqr.pllFrom.getD s.rc) ∧
         s'.seqr.held = s.seqr.held ∧ s' = { s with seqr := s'.seqr })) ∧
     (s.seqr.pllFrom.isSome = true → s.rowDue row 65536 = true → Completes (.pllLockTimeout row) s (fun s' =>
       s'.phase = 0xE ∧ s'.run = .faulted ∧ s' = { s with regs := s'.regs, run := s'.run })) ∧
     (∀ n x, s.seqr.pinLow = some x → let high := min n (s.rc - x)
       (16 ≤ high → Completes (.resetNRelease n) s (fun s' => s' = { s with seqr := { s.seqr with
         pinLow := none, t0 := some (s.rc + 16 - high), clk0 := s.rc + 16 - high } })) ∧
       (high < 16 → Completes (.resetNRelease n) s (fun s' => s' = s))) ∧
     (∀ x, s.seqr.drive = some x → x ≤ s.rc → Completes .resetStretchEnd s (fun s' =>
       s' = { s with seqr := { s.seqr with drive := none, pinLow := some s.rc } })))

/-- The boot phases. FIRST_STAGE_VERIFY runs the active slot where its bundle is valid, else the other with FALLBACK
set, else enters RECOVERY; ACTIVE follows, once the margin lets flash be written. BOOT_SETTINGS takes the records, or enters records
recovery. BOOT_MAPS ends in FAILED where
either of its two commits (log entry 92) is refused. BOOT_NET sets addresses and reaches READY; straps that disable the MCTP
endpoint leave a corrected record. -/
def Obligations.BootPhases : Prop :=
  ∀ (s : State),
    let a := s.flash.active
    (s.inPhase 0 = true → Completes .firstStageVerify s (fun s' =>
      (s.slotValid a = true → s'.phase = 1 ∧ s'.crown.slot = a ∧ s'.flash = s.flash ∧
        s'.fld F.SC_FW_STATUS_FALLBACK 0 0 = 0) ∧
      (s.slotValid a = false → s.slotValid (1 - a) = true → s'.phase = 1 ∧ s'.crown.slot = 1 - a ∧
        s'.flash = (if s.marginLow then s.flash else (s.crown.flashWait.foldl Flash.put s.flash).putActive (1 - a)) ∧
        (if s.marginLow then s'.activeSlot else s'.flash.active) = 1 - a ∧ s'.fld F.SC_FW_STATUS_FALLBACK 0 0 = 1) ∧
      (s.slotValid a = false → s.slotValid (1 - a) = false → s'.phase = 0xF ∧ s'.run = .faulted ∧
        (s'.flash.active = a ∨ s'.flash.active = (s.crown.flashWait.foldl Flash.put s.flash).active)) ∧ s'.dram = s.dram)) ∧
    (s.inPhase 1 = true →
      (s.readRecords = none → Completes .bootSettings s (fun s' => s'.phase = 0xF ∧ s'.run = .faulted ∧
        s'.fld F.SC_FW_STATUS_RECORDS 0 0 = 1)) ∧
      (s.readRecords ≠ none → Completes .bootSettings s (fun s' => s'.seqr.logged = true ∧ s'.run = s.run ∧
        s'.phase = (if s.seqr.only then 5 else if s.seqr.held.contains 9 then 2 else 3) ∧ s'.dram = s.dram ∧
        (s.seqr.only = true → ∀ p, p < 2 → (s'.port p).ipv4 = s'.crown.settings.ipv4.read 0 p ∧
          (s'.port p).vlan = s'.crown.settings.vlan.read 0 p)))) ∧
    (s.inPhase 3 = true → Completes .bootMaps s (fun s' =>
      let x := s.stageReach.commitNow
      if x.1 = 1 ∧ x.2.stageMaps.commitNow.1 = 1 then s'.phase = 4 else s'.phase = 0xE ∧ s'.run = .faulted)) ∧
    (s.inPhase 4 = true → Completes .bootNet s (fun s' => s'.phase = 5 ∧ s'.crown.ready = true ∧ s'.crown.wdFrom = s.rc ∧
      (∀ p, p < 2 → (s'.port p).up = true ∧ (s'.port p).ipv4 = s.crown.settings.ipv4.read 0 p ∧
        (s'.port p).vlan = s.crown.settings.vlan.read 0 p) ∧
      (s.smbOff = true → ∃ e, s'.crown.log.getLast? = some e ∧ e.block = 0xA ∧ e.cls = 0) ∧
      s'.tiles = s.tiles ∧ s'.dram = s.dram ∧ s'.run = s.run))

/-- UNDERSTORY_COMPARE: the status bits follow Table 13.7; an over-voltage, leak or over-temperature takes the main
rails off with TRIP and its source latched and THERMTRIP_N driven low; with nothing wrong the rails stay. The clock takes what
RTC_SET wrote at the next crystal edge, where it else counts one 1/32,768 s. A wake leaves its cause for the power-on that follows
(log entry 93). STANDBY_ENTER, STANDBY_POWER_OFF,
WAKE_PIN, TRIP_CLEAR, RTC_ALARM, RTC_SET and AUX_POWER_GOOD. -/
def Obligations.Understory : Prop :=
  ∀ (s : State),
    let reason (s' : State) := s'.fld F.RS_CAUSE_OFF_REASON 0 0
    (∀ x : UsInputs, s.seqr.aux = true → Completes (.understoryCompare x) s (fun s' =>
      (x.leakKohm < 100 → 3000 ≤ x.auxMv → s'.fld F.RS_US_STATUS_LEAK 0 0 = 1) ∧
      (40000 < x.vinMv → x.vinMv ≤ 61000 → 3000 ≤ x.auxMv → 100 ≤ x.leakKohm → x.absent = false → x.dieTemp ≤ 1760 →
        s'.seqr.main = s.seqr.main ∧ s'.dram = s.dram ∧ s'.fld F.RS_US_STATUS_VIN_UV 0 0 = 0 ∧
        s'.fld F.RS_US_STATUS_VIN_OV 0 0 = 0 ∧ s'.tiles = s.tiles) ∧
      (61000 < x.vinMv → 3000 ≤ x.auxMv → x.absent = false → s.seqr.main = true → s.fld F.RS_US_STATUS_TRIP 0 0 = 0 →
        s'.seqr.main = false ∧ s'.dram = [] ∧ s'.Cleared ∧ reason s' = 3 ∧ s'.fld F.RS_US_STATUS_TRIP 0 0 = 1 ∧
        s'.thermtripLow = true ∧
        s'.fld F.RS_US_STATUS_TRIP_SRC 0 0 = 3))) ∧
    (∀ v : W64, v.getLsbD 0 = true →
      ((s.run = .idle ∨ s.run = .loaded ∨ s.run = .stopped ∨ s.run = .faulted) → Completes (.standbyEnter v) s (fun s' =>
        s' = { s with seqr := { s.seqr with standby := some (s.rc + 1000000) } })) ∧
      ((s.run = .armed ∨ s.run = .running ∨ s.run = .held ∨ s.run = .draining) → Completes (.standbyEnter v) s (fun s' =>
        s'.fld F.RS_US_STATUS_STBY_REFUSED 0 0 = 1 ∧ s' = { s with regs := s'.regs, w1cSets := s'.w1cSets }))) ∧
    (∀ x, s.seqr.standby = some x → x ≤ s.rc → s.seqr.main = true → Completes .standbyPowerOff s (fun s' =>
      s'.seqr.main = false ∧ reason s' = 1 ∧ s'.dram = [] ∧ s'.Cleared ∧ s'.flash = s.flash)) ∧
    (∀ n, s.seqr.main = false → s.railsFree = true → 33 ≤ n → Completes (.wakePin n) s (fun s' =>
      s'.fld F.RS_CAUSE_CAUSE 0 0 = 2 ∧ s' = { s with regs := s'.regs })) ∧
    (∀ n, 32768 ≤ n → s.seqr.trip = false → s.fld F.RS_US_STATUS_TRIP 0 0 = 1 → Completes (.tripClear n) s (fun s' =>
      s'.fld F.RS_US_STATUS_TRIP 0 0 = 0 ∧ s'.fld F.RS_US_STATUS_TRIP_SRC 0 0 = 0 ∧
      s'.thermtripLow = false ∧ s' = { s with regs := s'.regs })) ∧
    (s.fld F.RS_RTC_ALARM_EN 0 0 = 1 → s.fld F.RS_RTC_ALARM_ALARM 0 0 ≤ s.fld F.RS_RTC_SECONDS 0 0 → s.seqr.main = false →
      s.railsFree = true → Completes .rtcAlarm s (fun s' => s'.fld F.RS_RTC_ALARM_EN 0 0 = 0 ∧
        s'.fld F.RS_CAUSE_CAUSE 0 0 = 3 ∧ s' = { s with regs := s'.regs })) ∧
    (∀ v : W64, Completes (.rtcSet v) s (fun s' => s' = { s with seqr := { s.seqr with rtc := some v.toNat } })) ∧
    (s.seqr.aux = true →
      (crystalEdges s.edge = crystalEdges (s.edge - 1) → s.rtcTick = s) ∧
      (crystalEdges s.edge ≠ crystalEdges (s.edge - 1) →
        let t := s.rtcTick
        let now := s.fld F.RS_RTC_SECONDS 0 0 * 32768 + s.fld F.RS_RTC_SUB 0 0
        (∀ n, (s.seqr.rtc = some n ∨ s.seqr.rtc = none ∧ n = now + 1) →
          t.fld F.RS_RTC_SECONDS 0 0 = n / 32768 % 2 ^ 49 ∧ t.fld F.RS_RTC_SUB 0 0 = n % 32768) ∧
        t = { s with regs := t.regs, seqr := { s.seqr with rtc := none } })) ∧
    Completes .auxPowerGood s (fun s' => s' = { s with seqr := { s.seqr with aux := true } })

/-- The Regulator. A sample whose mean of 10, rounded down over the samples there are (log entry 68), exceeds BUDGET, or a die
above TEMP_CEIL, raises k_b by 8 up to 256 − FLOOR; with neither for 10,000 rc it falls by 1. The current limits of the ten domains of
Table 13.1 share what BUDGET leaves above the window's cost in proportion to it (log entry 136); a droop makes k_p at least 128, and a
die above 100 °C makes it 192 till that die is below 97 °C; a droop's hold ends 64 edges after the last droop on any die. -/
def Obligations.Regulation : Prop :=
  ∀ (s : State), s.seqr.held.contains 3 = false →
    let top := 256 - s.fld F.PW_FLOOR_FLOOR 0 0
    let kp (s' : State) := s'.fld F.PW_STATUS_K_PROT 0 0
    let cost := sumOf ((upFrom 0 10).map (s.domainCost (s.powerWindow.map (·.2))))
    sumOf ((upFrom 0 10).map s.powerLimit) ≤ max cost (s.fld F.PW_BUDGET_BUDGET 0 0) ∧
    (∀ d, d < 10 → s.domainCost (s.powerWindow.map (·.2)) d ≤ s.powerLimit d) ∧
    (∀ p core ring temp, core.length = 12 → ring.length = 4 → temp ∈ core ++ ring → (∀ t ∈ core ++ ring, t ≤ temp) →
      Completes (.regulatorSample p core ring) s (fun s' =>
      s'.reg.power = (p :: s.reg.power).take 1000 ∧
      (meanOver ((p :: s.reg.power).take 1000) 10 (s.fld F.PW_BUDGET_BUDGET 0 0) = true ∨
        (s.fld F.PW_CEIL_TEMP_CEIL 0 0 : Int) < temp → s'.kBudget = min (s.kBudget + 8) top) ∧
      (meanOver ((p :: s.reg.power).take 1000) 10 (s.fld F.PW_BUDGET_BUDGET 0 0) = false →
        temp ≤ (s.fld F.PW_CEIL_TEMP_CEIL 0 0 : Int) → s.reg.overAt + 10000 ≤ s.rc + 1 →
        s'.kBudget = min (s.kBudget - 1) top) ∧
      (∀ d t, d < 16 → (core ++ ring)[d]? = some t → (1600 < t → d ∈ s'.reg.hot) ∧ (t < 1552 → d ∉ s'.reg.hot) ∧
        (1552 ≤ t → t ≤ 1600 → (d ∈ s'.reg.hot ↔ d ∈ s.reg.hot))) ∧
      (s'.reg.hot ≠ [] → kp s' = 192) ∧ (s'.reg.hot = [] → s.reg.droop = [] → kp s' = 0) ∧
      s'.tiles = s.tiles ∧ s'.counters = s.counters ∧ s'.dram = s.dram ∧ s'.run = s.run)) ∧
    (∀ src, src < 12 → Completes (.droop src) s (fun s' => s'.reg.droop.read 0 src = s.edge + 1 ∧
      (src < 4 → s.reg.hot = [] → kp s' = 128) ∧ (∀ k, k ≠ src → s'.reg.droop.read 0 k = s.reg.droop.read 0 k) ∧
      s'.tiles = s.tiles ∧ s'.counters = s.counters ∧ s'.dram = s.dram)) ∧
    (∀ src, src < 12 → let mine (k : Nat) : Prop := if src < 4 then k < 4 else k = src
      ((∃ e ∈ s.reg.droop, mine e.1) → (∀ e ∈ s.reg.droop, e.2 + 64 ≤ s.edge + 1) →
        Completes (.droopHoldExpire src) s (fun s' => (∀ k, mine k → s'.reg.droop.read 0 k = 0) ∧
          (∀ k, ¬mine k → s'.reg.droop.read 0 k = s.reg.droop.read 0 k) ∧ (src < 4 → s.reg.hot = [] → kp s' = 0) ∧
          s'.tiles = s.tiles ∧ s'.counters = s.counters ∧ s'.dram = s.dram)) ∧
      (∀ e ∈ s.reg.droop, s.edge + 1 < e.2 + 64 → Completes (.droopHoldExpire src) s (fun s' => s' = s)))

/-- FW_ACTIVATION at a clearing due: the B slot becomes active, VALID clears, and at the next edge (log entry 134) the Crown alone
restarts, the run going on; with
the hold-up margin low it waits, LATE set. IEEE_1149_1_ACCESS: BYPASS and IDCODE are served; any other acts as BYPASS
while the device is locked (log entry 69), and on an unlocked device stops by the refusal debugUnit. -/
def Obligations.ActivationAndTestPort : Prop :=
  ∀ (s : State),
    (s.fld F.SC_FW_SCHED_VALID 0 0 = 1 → s.activationDue = true → s.seqr.held.contains 9 = false →
      (s.fld F.RS_US_STATUS_MARGIN_LOW 0 0 ≠ 1 → Completes .fwActivation s (fun s' =>
        s'.fld F.SC_FW_SCHED_VALID 0 0 = 0 ∧ s'.fld F.SC_FW_SCHED_ACT_BEAT 0 0 = s.fld F.SC_FW_SCHED_ACT_BEAT 0 0 ∧
        s' = { s with
          regs := s'.regs, seqr := { s.seqr with restart := true }, crown := { s.crown with flashWait := [] }
          flash := (s.crown.flashWait.foldl Flash.put s.flash).putActive (1 - s.activeSlot) })) ∧
      (s.fld F.RS_US_STATUS_MARGIN_LOW 0 0 = 1 → Completes .fwActivation s (fun s' =>
        s'.fld F.SC_FW_STATUS_LATE 0 0 = 1 ∧ s' = { s with regs := s'.regs }))) ∧
    (s.seqr.restart = true →
      let t := s.activationRestart
      t.seqr.held.contains 1 = true ∧ t.seqr.t0 = some s.rc ∧ t.seqr.restart = false ∧ t.phase = 0 ∧
      t.crown.queue = s.crown.queue ∧ t.run = s.run ∧ t.tiles = s.tiles ∧ t.counters = s.counters ∧ t.dram = s.dram ∧
      t.flash = s.flash) ∧
    (∀ op, s.seqr.main = false → Completes (.ieee1149Access op) s (fun s' => s' = s)) ∧
    (s.seqr.main = true → Completes (.ieee1149Access .bypass) s (fun s' => s' = { s with tap := .bypass })) ∧
    (s.seqr.main = true → Completes (.ieee1149Access .idcode) s (fun s' => s' = { s with tap := .idcode })) ∧
    (s.seqr.main = true → s.jtagLocked = true →
      Completes (.ieee1149Access .other) s (fun s' => s' = { s with tap := .bypass })) ∧
    (s.seqr.main = true → s.jtagLocked = false → exec (.ieee1149Access .other) s = .refused .debugUnit)

/-! ## Host protocol, security and update -/

/-- Frames at an Ethernet port. A frame that breaks Table 12.1 is discarded and counted (roceOps, frameMine: log entry 73), and
the codewords that its PCS corrected are counted; a datagram to the ICP port
that is no command is counted and discarded, and one that carries a command acts as the command; ARP, neighbour
discovery and echo are answered for the port's own address (not a request for address 0: log entry 87); a message of the time source sets the time; PCS lock
follows. A SEND of at most 1,280 bytes that finds a free receive buffer is acknowledged, and acts as the command it carries, or
waits while the Crown restarts; one that is no command is acknowledged, not counted, and ends there (log entry 86);
with no buffer free it is answered receiver not ready, and a longer one with an invalid-request NAK. A poll round with
nothing to do restarts the watchdog, and sends the Chime of the latest Chime beat; in RECOVERY too it carries out the flash writes that
waited for the margin, in their order (R390). -/
def Obligations.FramesAndChimes : Prop :=
  (∀ (s : State) (p : Nat), p < 2 →
     let seen (s' : State) (l : List Sent) : Prop := Counted s s' F.EN_CNT_RXFRAME_COUNT p ∧ Sends s s' l ∧
       s' = { s with regs := s'.regs, sent := s'.sent, wires := s'.wires }
     (∀ f : EthFrame, s.portTakes p = true →
       let coded (s' : State) : Prop :=
         s'.fld F.EN_CNT_FEC_CORR_COUNT p 0 = (s.fld F.EN_CNT_FEC_CORR_COUNT p 0 + f.fecCorr) % 2 ^ F.EN_CNT_FEC_CORR_COUNT.width ∧
         s'.fld F.EN_CNT_FEC_UNCORR_COUNT p 0 =
           (s.fld F.EN_CNT_FEC_UNCORR_COUNT p 0 + f.fecUncorr) % 2 ^ F.EN_CNT_FEC_UNCORR_COUNT.width ∧ s' = { s with regs := s'.regs }
       let counts (g : RegField) (s' : State) : Prop := s'.fld g p 0 = (s.fld g p 0 + 1) % 2 ^ g.width
       ((f.fcsOk = false ∨ f.fecUncorr ≠ 0 ∨ f.len < 64 ∨ 4224 < f.len ∨ 1 < f.vlanTags ∨ f.pause = true ∨
           (f.etherType ≠ 0x0800 ∧ f.etherType ≠ 0x86DD ∧ f.etherType ≠ 0x0806) ∨
           (f.etherType ≠ 0x0806 ∧ (f.fragment = true ∨ f.options = true ∨ (f.udp = false ∧ f.icmp = false) ∨
             (f.udp = true ∧ (f.udpDst ∉ [49810, 4791, 319, 320] ∨ f.csumBad = true)) ∨
             (f.udp = true ∧ f.udpDst = 4791 ∧ f.roceOp ∉ roceOps) ∨
             (f.udp = false ∧ f.etherType = 0x0800 ∧ f.icmpType ∉ [0, 8]) ∨
             (f.udp = false ∧ f.etherType = 0x86DD ∧ f.icmpType ∉ [128, 129, 135, 136]))) ∨
           s.frameMine p f = false) →
         Completes (.ethFrameReceive p f) s (fun s' => counts F.EN_CNT_RXDROP_COUNT s' ∧ coded s')) ∧
       (s.frameBreaks p f = false → f.etherType ≠ 0x0806 → f.udp = true → f.udpDst = 49810 → notCommand f.payload = true →
         Completes (.ethFrameReceive p f) s (fun s' => counts F.EN_CNT_RXFRAME_COUNT s' ∧ counts F.EN_CNT_NOTCMD_COUNT s' ∧
           coded s')) ∧
       (s.frameBreaks p f = false → (f.etherType = 0x0806 ∨ f.udp = false ∨ f.udpDst ≠ 49810) →
         Completes (.ethFrameReceive p f) s (fun s' => counts F.EN_CNT_RXFRAME_COUNT s' ∧ coded s')) ∧
       (∀ i c op d, s.frameBreaks p f = false → f.etherType ≠ 0x0806 → f.udp = true → f.udpDst = 49810 → s.crownUp = true →
         cmdFrom i = some c → i.wf = true → icpFits i = true → icpParts i = some (op, d) → c.spdm = none → c.via = p → c.src = f.src →
         f.payload = icpMessage c op d → exec (.ethFrameReceive p f) s = exec i
           ((s.addFld F.EN_CNT_FEC_CORR_COUNT p 0 f.fecCorr).addFld F.EN_CNT_FEC_UNCORR_COUNT p 0 f.fecUncorr))) ∧
     (s.portTakes p = false → ∀ f a b, Completes (.ethFrameReceive p f) s (fun s' => s' = s) ∧
       Completes (.arpRequest p a b) s (fun s' => s' = s)) ∧
     (s.portTakes p = true →
       (∀ a b, a ≠ 0 → Completes (.arpRequest p a b) s (fun s' =>
         seen s' (if a = (s.port p).ipv4 then [.arpReply p b] else []))) ∧
       (∀ a b, a ≠ 0 → Completes (.neighborSolicitation p a b) s (fun s' =>
         seen s' (if a = (s.port p).ipv6 then [.neighborAdvert p b] else []))) ∧
       (∀ v6 a k d, Completes (.icmpEcho p v6 a k d) s (fun s' => seen s' [.echoReply p v6 a k d])) ∧
       (∀ a k secs nanos locked, Completes (.ptpMessage p a k secs nanos locked) s (fun s' =>
         Counted s s' F.EN_CNT_RXFRAME_COUNT p ∧ s' = { s with
           regs := s'.regs
           crown := if s.crown.settings.ptp = some (a, k) then
             { s.crown with secs := secs.toNat, nanos := nanos.toNat, locked := locked } else s.crown }))) ∧
     (∀ locked, s.seqr.held.contains 3 = false → s.seqr.main = true → Completes (.pcsLockChange p locked) s (fun s' =>
       s'.fld F.EN_PORT_STATUS_PCS_LOCK p 0 = b2n locked ∧ s' = { s with regs := s'.regs }))) ∧
  (∀ (s : State),
     (∀ p q (psn : BitVec 24) d, p < 2 → q < 64 → s.qpOn p q = true → psn.toNat = (s.qp q).expPsn →
       (∀ m ∈ (s.port p).intake, m.qp = q → m.whole = true) →
       let x := s.qp q
       (∀ i c op v, d.length ≤ 1280 → x.rx.length < 8 → s.crownUp = true → s.portTakes p = true → cmdFrom i = some c →
         i.wf = true → icpFits i = true → icpParts i = some (op, v) → c.spdm = none → c.via = p → c.src = 2 ^ 192 + q →
         d = icpMessage c op v → ∃ t u, exec (.roceSend p q psn false d) s = .next u ∧ exec i t = .next u ∧
           Sends s t [.roceAck q x.expPsn 0] ∧ t = { s with qps := t.qps, sent := t.sent, wires := t.wires } ∧
           QpBecomes s t q { x with expPsn := (x.expPsn + 1) % 2 ^ 24, nakked := false, rx := x.rx ++ [d] }) ∧
       (d.length ≤ 1280 → x.rx.length < 8 → notCommand d = true → Completes (.roceSend p q psn false d) s (fun s' =>
         Counted s s' F.EN_CNT_RXFRAME_COUNT p ∧ Sends s s' [.roceAck q x.expPsn 0] ∧
         QpBecomes s s' q { x with expPsn := (x.expPsn + 1) % 2 ^ 24, nakked := false } ∧
         s' = { s with regs := s'.regs, sent := s'.sent, wires := s'.wires, qps := s'.qps })) ∧
       (d.length ≤ 1280 → x.rx.length < 8 → notCommand d = false → s.restarting = true → s.crown.queue.length < 64 →
         Completes (.roceSend p q psn false d) s (fun s' => Sends s s' [.roceAck q x.expPsn 0] ∧
           QpBecomes s s' q { x with expPsn := (x.expPsn + 1) % 2 ^ 24, nakked := false, rx := x.rx ++ [d] } ∧
           s' = { s with
             regs := s'.regs, sent := s'.sent, wires := s'.wires, qps := s'.qps, roots := s'.roots
             crown := { s.crown with queue := s.crown.queue ++ [⟨2 ^ 192 + q, p, d⟩] } })) ∧
       (d.length ≤ 1280 → 8 ≤ x.rx.length → Completes (.roceSend p q psn false d) s (fun s' =>
         Counted s s' F.EN_CNT_RXFRAME_COUNT p ∧ Sends s s' [.roceAck q x.expPsn 5] ∧
         s' = { s with regs := s'.regs, sent := s'.sent, wires := s'.wires })) ∧
       (1280 < d.length → Completes (.roceSend p q psn false d) s (fun s' =>
         Counted s s' F.EN_CNT_RXFRAME_COUNT p ∧ QpBecomes s s' q { x with err := true } ∧
         Sends s s' [.roceAck q x.expPsn 3] ∧
         s' = { s with regs := s'.regs, sent := s'.sent, wires := s'.wires, qps := s'.qps }))) ∧
     (s.crownUp = true → s.CrownFree → s.healthRound = s →
       Completes .crownPollRound s (fun s' => s'.crown.wdFrom = s.rc ∧ s'.crown.chime.due = none ∧
         (∀ b, s.crown.chime.due = some b → s'.crown.chime.seq = s.crown.chime.seq + 1 ∧
           (s.portTakes s.crown.chime.port = true → ∃ m : List Byte,
             .icp s.crown.chime.port (s.crown.chime.dst.toNat * 65536 + s.crown.chime.udp.toNat) m ∈ s'.sent ∧
             m.length = 96 ∧ Holds (m.take 32) 0 [(2, 0x4350), (1, 1), (1, 4), (2, 0), (2, 64), (8, s.crown.chime.seq), (4, 0),
               (2, s.self), (2, 0), (8, b)])))) ∧
     (s.crownUp = false → s.recovering = true → s.CrownFree → s.crown.logWait = [] → s.crown.dirty = false →
       (s.marginLow = true → Completes .crownPollRound s (fun s' => s' = { s with crown := { s.crown with wdFrom := s.rc } })) ∧
       (s.marginLow = false → Completes .crownPollRound s (fun s' => s' = { s with
         flash := s.crown.flashWait.foldl Flash.put s.flash
         crown := { s.crown with wdFrom := s.rc, flashWait := [] } }))))

/-- RDMA WRITE of one packet whose bytes an enabled window of its port holds: acknowledged, its payload sent toward
DRAM in WRITE packets, or kept in the intake buffer while the device waits for quiescence. A packet that no window
grants is answered with a remote access NAK and the queue pair is in the error state; one that finds the buffer full
is discarded and counted; a duplicate is acknowledged again and a gap gives one sequence-error NAK. INTAKE_LANDING of
a message applied whole signals its bytes where its window has LSIG. -/
def Obligations.IntakeWrites : Prop :=
  ∀ (s : State) (p q : Nat), p < 2 → q < 64 →
    (∀ (psn : BitVec 24) (rkey : W32) (va : Nat) (d : List Byte) (n : Nat), s.qpOn p q = true → d.length ≤ 4096 →
      n = d.length →
      let x := s.qp q
      let write := fun l => Completes (.rdmaWrite p q psn true l false rkey va n d) s
      let heard (s' : State) : Prop := Counted s s' F.EN_CNT_RXFRAME_COUNT p
      (psn.toNat = x.expPsn → (∀ m ∈ (s.port p).intake, m.qp = q → m.whole = true) →
        (s.port p).held + d.length ≤ 0x800000 →
        (∀ w, s.grant p rkey.toNat va n true = some w →
          (s.intakePaused = true → write true (fun s' => heard s' ∧
            QpBecomes s s' q { x with expPsn := (x.expPsn + 1) % 2 ^ 24, nakked := false, msgLeft := 0 } ∧
            Sends s s' [.roceAck q x.expPsn 0] ∧
            (s'.port p).intake = (s.port p).intake ++ [⟨q, w, va, n, va, d, true, [], false⟩] ∧ s'.net = s.net ∧
            s'.dram = s.dram)) ∧
          (s.PathOpen → (s.port p).intake = [] → (s.port p).reads = [] → d ≠ [] → va % 256 + d.length ≤ 256 →
            write true (fun s' => heard s' ∧
              QpBecomes s s' q { x with expPsn := (x.expPsn + 1) % 2 ^ 24, nakked := false, msgLeft := 0 } ∧
              Sends s s' [.roceAck q x.expPsn 0] ∧ s'.dram = s.dram ∧
              (s'.port p).intake = [⟨q, w, va, n, va + n, [], true, [((s.port p).nextTag, n)], false⟩] ∧
              ∃ k, s'.net = s.net ++ [atSource (6, 0) k] ∧ k.kind = 1 ∧ k.payload = d ∧ k.len = n ∧
                (va < 2 ^ 38 → s.self < 2 ^ 15 → s.place k.destAddr = .dram va ∧ k.destDev = s.self)))) ∧
        (s.grant p rkey.toNat va n true = none → write true (fun s' => heard s' ∧ QpBecomes s s' q { x with err := true } ∧
          Sends s s' [.roceAck q x.expPsn 2] ∧ s'.ports = s.ports ∧ s'.net = s.net ∧ s'.dram = s.dram))) ∧
      (psn.toNat = x.expPsn → (∀ m ∈ (s.port p).intake, m.qp = q → m.whole = true) →
        0x800000 < (s.port p).held + d.length → write true (fun s' =>
          s'.fld F.EN_CNT_INTAKE_DROP_COUNT p 0 =
            (s.fld F.EN_CNT_INTAKE_DROP_COUNT p 0 + 1) % 2 ^ F.EN_CNT_INTAKE_DROP_COUNT.width ∧
          QpBecomes s s' q { x with nakked := false } ∧ s' = { s with regs := s'.regs, qps := s'.qps })) ∧
      (∀ l, psn.toNat ≠ x.expPsn → psnSub x.expPsn psn.toNat < 2 ^ 23 → write l (fun s' => heard s' ∧
        Sends s s' [.roceAck q (psnSub x.expPsn 1) 0] ∧ s' = { s with regs := s'.regs, sent := s'.sent, wires := s'.wires })) ∧
      (∀ l, psn.toNat ≠ x.expPsn → 2 ^ 23 ≤ psnSub x.expPsn psn.toNat → write l (fun s' => heard s' ∧
        QpBecomes s s' q { x with nakked := true } ∧
        Sends s s' (if x.nakked = true then [] else [.roceAck q x.expPsn 1]) ∧
        s' = { s with regs := s'.regs, sent := s'.sent, wires := s'.wires, qps := s'.qps }))) ∧
    (∀ m, (s.port p).intake = [m] → (s.port p).reads = [] → m.whole = true → m.buf = [] → m.outs = [] → m.bad = false →
      s.inputSlot m.addr m.len = none →
      (s.ctr (devCtr (s.fld F.EN_WIN_CIDX p m.win))).s + m.len < 2 ^ 48 → Completes (.intakeLanding p) s (fun s' =>
        PortBecomes s s' p { s.port p with intake := [] } ∧ s'.dram = s.dram ∧ s'.net = s.net ∧ s'.sent = s.sent ∧
        (∀ k, (s'.ctr k).s = (s.ctr k).s +
          (if s.fld F.EN_WIN_LSIG p m.win = 1 ∧ k = devCtr (s.fld F.EN_WIN_CIDX p m.win) then m.len else 0)) ∧
        s'.regs = s.regs)) ∧
    ((s.port p).intake = [] → (s.port p).reads = [] → Completes (.intakeLanding p) s (fun s' => s' = s))

/-- RDMA READ of bytes that a window grants takes the sequence numbers of its response and asks DRAM for the bytes;
one that no window grants is answered with a remote access NAK. Its data goes back in one response, and a word that cannot
be read gives a remote operational error NAK. A response to a read of a restore is kept as its
piece. An acknowledgement ends the operations up to its number; a NAK of a remote error puts the queue pair in the
error state. A congestion notification halves the rate at most once in 50 µs; after 55 µs without one it rises by 5 %
of line rate. A packet marked Congestion Experienced draws one congestion notification in 50 µs, and acts as one unmarked. -/
def Obligations.ReadsAndRates : Prop :=
  ∀ (s : State) (q : Nat), q < 64 →
    let x := s.qp q
    let heard (s' : State) (p : Nat) : Prop :=
      s'.fld F.EN_CNT_RXFRAME_COUNT p 0 = (s.fld F.EN_CNT_RXFRAME_COUNT p 0 + 1) % 2 ^ F.EN_CNT_RXFRAME_COUNT.width
    (∀ p (psn : BitVec 24) (rkey : W32) va n, p < 2 → s.qpOn p q = true → psn.toNat = x.expPsn →
      ((s.grant p rkey.toNat va n false).isSome = true → s.PathOpen → (s.port p).intake = [] → (s.port p).reads = [] →
        0 < n → va % 256 + n ≤ 256 → Completes (.rdmaRead p q psn false rkey va n) s (fun s' => heard s' p ∧
          QpBecomes s s' q { x with expPsn := (x.expPsn + 1) % 2 ^ 24, nakked := false } ∧ Sends s s' [] ∧
          (s'.port p).reads = [⟨q, psn.toNat, va, [], [((s.port p).nextTag, 0, n)], [], 1, none⟩] ∧ s'.dram = s.dram ∧
          ∃ k, s'.net = s.net ++ [atSource (6, 0) k] ∧ k.kind = 3 ∧ k.len = n ∧
            (va < 2 ^ 38 → s.self < 2 ^ 15 → s.place k.destAddr = .dram va ∧ k.destDev = s.self))) ∧
      (s.grant p rkey.toNat va n false = none → Completes (.rdmaRead p q psn false rkey va n) s (fun s' => heard s' p ∧
        QpBecomes s s' q { x with err := true } ∧ Sends s s' [.roceAck q x.expPsn 2] ∧
        s' = { s with regs := s'.regs, qps := s'.qps, sent := s'.sent, wires := s'.wires }))) ∧
    (∀ p tag psn va n d, p < 2 → (s.port p).reads = [⟨q, psn, va, [], [(tag, 0, n)], [], 1, none⟩] →
      Sends s (s.ethReadRsp p tag true d) [.readResponse q psn d] ∧
      Sends s (s.ethReadRsp p tag false d) [.roceAck q (psn % 2 ^ 24) 4] ∧
      ∀ ok, PortBecomes s (s.ethReadRsp p tag ok d) p { s.port p with reads := [] }) ∧
    (∀ (psn : BitVec 24) d o k r, x.conn = true → x.err = false → x.ops = [o] → o.read = some k → o.psn = psn.toNat →
      s.crown.restore = some r → Completes (.rdmaReadResponse q psn ⟨false, d⟩) s (fun s' => heard s' x.port ∧
        QpBecomes s s' q { x with ops := [] } ∧ s'.crown.restore = some { r with left := r.left - 1, got := r.got.write [] k d } ∧
        s' = { s with regs := s'.regs, qps := s'.qps, crown := { s.crown with restore := s'.crown.restore } })) ∧
    (∀ (psn : BitVec 24), x.conn = true → x.err = false →
      Completes (.roceAckReceive q psn ⟨0, false⟩) s (fun s' => heard s' x.port ∧
        QpBecomes s s' q { x with ops := x.ops.filter (fun o =>
          o.read.isSome || decide (2 ^ 23 ≤ (psn.toNat + 2 ^ 24 - o.psn % 2 ^ 24) % 2 ^ 24)) } ∧
        s' = { s with regs := s'.regs, qps := s'.qps }) ∧
      (∀ k, 2 ≤ k → k ≤ 4 → x.ops = [] → Completes (.roceAckReceive q psn ⟨k, false⟩) s (fun s' => heard s' x.port ∧
        QpBecomes s s' q { x with err := true } ∧ s' = { s with regs := s'.regs, qps := s'.qps }))) ∧
    (x.conn = true → Completes (.cnpReceive ⟨q, false⟩) s (fun s' => heard s' x.port ∧
      s'.fld F.EN_CNT_CNP_RX_COUNT x.port 0 = (s.fld F.EN_CNT_CNP_RX_COUNT x.port 0 + 1) % 2 ^ F.EN_CNT_CNP_RX_COUNT.width ∧
      QpBecomes s s' q (if x.halfAt = 0 ∨ x.halfAt + 5000 ≤ s.rc + 1 then
        { x with quietAt := s.rc + 1, halvings := x.halvings + 1, halfAt := s.rc + 1 } else { x with quietAt := s.rc + 1 }) ∧
      s' = { s with regs := s'.regs, qps := s'.qps })) ∧
    (let m := s.ecnMark q true;
      (x.cnpAt ≠ 0 → s.rc + 1 < x.cnpAt + 5000 → m = s) ∧
      ((x.cnpAt = 0 ∨ x.cnpAt + 5000 ≤ s.rc + 1) → QpBecomes s m q { x with cnpAt := s.rc + 1 } ∧ Sends s m [.cnp q] ∧
        Counted s m F.EN_CNT_CNP_TX_COUNT x.port ∧ m = { s with regs := m.regs, qps := m.qps, sent := m.sent, wires := m.wires }) ∧
      (x.conn = true → x.err = false → ∀ psn,
        (∀ d, Alike (exec (.rdmaReadResponse q psn ⟨true, d⟩) s) (exec (.rdmaReadResponse q psn ⟨false, d⟩) m)) ∧
        (∀ k, Alike (exec (.roceAckReceive q psn ⟨k, true⟩) s) (exec (.roceAckReceive q psn ⟨k, false⟩) m)) ∧
        Alike (exec (.cnpReceive ⟨q, true⟩) s) (exec (.cnpReceive ⟨q, false⟩) m) ∧
        (x.port < 2 →
          (∀ key va n, Alike (exec (.rdmaRead x.port q psn true key va n) s) (exec (.rdmaRead x.port q psn false key va n) m)) ∧
          (∀ f l key va n d, Alike (exec (.rdmaWrite x.port q psn f l true key va n d) s)
            (exec (.rdmaWrite x.port q psn f l false key va n d) m))))) ∧
    (x.conn = true → x.quietAt + 5500 ≤ s.rc + 1 → Completes (.rateRaiseTimer q) s (fun s' =>
      QpBecomes s s' q (if 20 * 2 ^ x.halvings ≤ x.num + 2 ^ x.halvings then
        { x with num := 20, halvings := 0, quietAt := s.rc + 1 } else
        { x with num := x.num + 2 ^ x.halvings, quietAt := s.rc + 1 }) ∧ s' = { s with qps := s'.qps }))

/-- The tests of R356 that precede a command's own checks, for every ICP command. A copy of a cached command receives
the cached reply and is not carried out again; a cached SEQ with other bytes is SEQ_REUSED; another device's number is
WRONG_DEVICE; a full queue is QUEUE_FULL, tested after these and not kept in the cache (log entry 79); an enrolled owner key asks for a tag, the right one, and a SEQ above the
floor and within what the reserve can reach (log entry 95); the sideband carries its subset; during a long command, a block reset, or behind another, the others wait. A command that waits is
carried out in the Crown's poll round as if it arrived then. While the Crown restarts alone every command waits or, with the
queue full, is answered QUEUE_FULL. A message on the sideband under another enterprise number is no command and gets no answer (log entry 81), nor
does any where the straps disable the endpoint. -/
def Obligations.IcpTests : Prop :=
  ∀ (s : State) (i : Instr) (c : IcpCmd) (op : Nat) (w : List Byte), icpParts i = some (op, w) →
    let v := if op = 0x0601 then c.spdm.getD w else w
    let h := s.heard c.via
    let mine := c.dev.toNat = 0xFFFF ∨ c.dev.toNat = s.self
    let new := ∀ x ∈ s.crown.cache, ¬(x.src = c.src ∧ le x.msg 8 8 = c.seq.toNat)
    let q : QCmd := ⟨c.src, c.via, icpMessage c op v⟩
    let uncached (st : Nat) (s' : State) : Prop := ∃ m, ReplyIs h op c.seq.toNat st 0 [] m ∧ Leaves h s' c m ∧
      s' = { h with sent := s'.sent, wires := s'.wires, qps := s'.qps }
    let waits (s' : State) : Prop :=
      s' = { h with roots := s'.roots, crown := { h.crown with queue := h.crown.queue ++ [q] } } ∧
      (op ≠ 0x0201 → op ≠ 0x0202 → op ≠ 0x0801 → s'.roots = h.roots)
    (s.Reached i c →
      (∀ x, s.crown.cache = [x] → x.src = c.src → x.msg = icpMessage c op v →
        Completes i s (fun s' => Leaves h s' c x.reply ∧ s' = { h with sent := s'.sent, wires := s'.wires, qps := s'.qps })) ∧
      (∀ x, s.crown.cache = [x] → x.src = c.src → le x.msg 8 8 = c.seq.toNat → x.msg ≠ icpMessage c op v →
        Completes i s (uncached 5)) ∧
      (new → ¬mine → Replies i c s 3 0) ∧
      (new → mine → 64 ≤ s.crown.queue.length → Completes i s (uncached 6)) ∧
      (new → mine → s.CrownFree → s.crown.owner.key ≠ [] → op / 256 ≠ 0 → op ≠ 0x0601 →
        (c.tag = none → Replies i c s 4 1) ∧
        (∀ t, c.tag = some t →
          let right := t = (hashBytes (Config.hmac384 s.crown.cmdKey (icpBody c op v))).take 16
          (¬right → Replies i c s 4 2) ∧
          (right → (c.seq.toNat ≤ s.crown.floor ∨ 0xFFFFFFFF * 2 ^ 20 < c.seq.toNat) → Replies i c s 4 3) ∧
          (right → s.crown.floor < c.seq.toNat → c.seq.toNat ≤ 0xFFFFFFFF * 2 ^ 20 → op = 0x0701 → Completes i s (fun s' =>
            s'.crown.floor = c.seq.toNat ∧ c.seq.toNat ≤ s'.flash.rpmc.read 0 2 * 2 ^ 20 ∧
            s'.flash = { s.flash with rpmc := s'.flash.rpmc })))) ∧
      (new → mine → s.CrownFree → s.crown.owner.key = [] → c.via = 2 → sideSubset op = false → Replies i c s 0x11 0) ∧
      (new → mine → s.crown.queue.length < 64 →
        (s.crown.blockBusy.isSome = true ∨ (s.crown.long ≠ 0 ∧ op / 256 ≠ 0 ∧ op ≠ 0x0301 ∧ op ≠ 0x0302) ∨
          (s.crown.long = 0 ∧ s.crown.queue ≠ [])) →
        Completes i s waits) ∧
      (∀ t u, c.via = 2 → s.crown.queue = [q] → t = { s with crown := { s.crown with queue := [] } } → t.CrownFree →
        exec i t = .next u → u.crown.queue = [] → Completes .crownPollRound s (fun s' => s' = u.goOn.roundEnd))) ∧
    (cmdFrom i = some c → i.wf = true → icpFits i = true → c.via < 3 → s.restarting = true →
      (c.via < 2 → s.portTakes c.via = true) → (c.via = 2 → c.vendor = Config.enterprise ∧ s.smbOff = false) →
      (s.crown.queue.length < 64 → Completes i s waits) ∧ (64 ≤ s.crown.queue.length → Completes i s (uncached 6))) ∧
    (cmdFrom i = some c → c.via = 2 → (c.vendor ≠ Config.enterprise ∨ s.smbOff = true) → Completes i s (fun s' => s' = s))

/-- The ICP commands that answer without effect. GET_INFO, GET_CAPABILITY, GET_STATE, HEALTH, POWER_GET and FW_STATUS
report their fields; GET_TIME the time, which has run on by a time that the spec leaves open; LOG_READ the records
held from one on; COUNTER_VIEW a counter's debug record; PHYS_READ a register of the tile at a physical position; of a fenced
one, which is held in reset, TL_ID with the position, the row map of the physical tile, and of any other register the reset value (log
entry 113). -/
def Obligations.IcpInformation : Prop :=
  ∀ (s : State) (c : IcpCmd),
    let h := s.heard c.via
    let tells (i : Instr) (P : List Byte → Prop) : Prop :=
      s.Serves i c → Answers i c s (fun st det d e => st = 0 ∧ det = 0 ∧ e = h ∧ P d)
    let b := h.flash.slot h.crown.slot
    tells (.getInfo c) (fun d => Holds d 0 [(1, b2n Config.steppingB0), (4, Config.romVersion.toNat), (8, slotNum b 12 8),
      (2, h.self), (2, h.fld F.LK_TOPO_PHYS 0 0), (6, (Config.mac 0).toNat), (6, (Config.mac 1).toNat), (8, h.crown.floor),
      (1, b2n h.owned + 2 * b2n h.ownerLocked), (4, Config.enterprise.toNat)]) ∧
    (h.crown.loaded = true → h.recordsLost = false →
      h.owned = (h.crown.owner.key != []) ∧ h.ownerLocked = h.crown.owner.lock) ∧
    tells (.getCapability c) (fun d => d = h.crown.repair.cap.bytes) ∧
    tells (.getState c) (fun d => Holds d 0 [(1, h.run.code), (8, h.beat), (8, h.regWord F.ES_STEP_NUM_STEP 0 0),
      (8, h.regWord F.ES_STEP_STATUS_ATTEMPT 0 0), (8, h.regWord F.ES_JOB_STATUS_CODE 0 0),
      (4, h.regWord F.ES_CFG_STATUS_CODE 0 0), (2, 0)]) ∧
    (s.Serves (.getTime c) c → Answers (.getTime c) c s (fun st det d e => st = 0 ∧ det = 0 ∧
      (∃ g, e.crown.secs * 1000000000 + e.crown.nanos =
        (h.crown.secs * 1000000000 + h.crown.nanos + g) % (2 ^ 48 * 1000000000)) ∧ e.crown.nanos < 1000000000 ∧
      Holds d 0 [(8, h.fld F.RS_RTC_SECONDS 0 0), (6, e.crown.secs), (4, e.crown.nanos), (1, b2n h.crown.locked), (8, h.beat)] ∧
      e = { h with freeCtr := h.freeCtr + 1, crown := { h.crown with secs := e.crown.secs, nanos := e.crown.nanos } })) ∧
    (∀ which first n, which.toNat ≤ 1 → 1 ≤ n.toNat → n.toNat ≤ 32 → tells (.logRead c which first n) (fun d =>
      d = ((((if which = 0 then h.crown.log else h.flash.log).filter (fun r => decide (first.toNat ≤ r.seq))).take
        n.toNat).flatMap LogRec.bytes))) ∧
    tells (.health c) (fun d => ∀ k x, h.crown.counts[k]? = some x → le d (4 * k) 4 = x % 2 ^ 32) ∧
    (∀ cref k, crefKey none (BitVec.toNat cref) = some k → (k < 0x20000 → (h.physOf (k / 64)).isSome = true) →
      tells (.counterView c cref) (fun d => d.length = 64 ∧ le d 0 8 = (h.ctr k).s % 2 ^ 64 ∧ le d 8 8 = (h.ctr k).c % 2 ^ 64 ∧
        le d 16 8 = ((h.ctr k).s - (h.ctr k).c) % 2 ^ 64 ∧ le d 40 8 = (h.ctr k).beat % 2 ^ 64)) ∧
    (∀ die row pos blk off x t, die.toNat < 4 → row.toNat < 24 → pos.toNat < 17 → blk.toNat < 5 → off.toNat % 8 = 0 →
      off.toNat < 0x2000 → t < 16 → let u := die.toNat * 384 + row.toNat * 16 + t
      h.physOf u = some pos.toNat → (∀ y, y < t → h.physOf (die.toNat * 384 + row.toNat * 16 + y) ≠ some pos.toNat) →
      Machine.regAt ((physBlock blk.toNat).base + (die.toNat * 384 + row.toNat * 16) * (physBlock blk.toNat).stride + off.toNat) = some x →
      tells (.physRead c die row pos blk off) (fun d => d.length = 8 ∧
        le d 0 8 = ((h.readWord ((physBlock blk.toNat).base + u * (physBlock blk.toNat).stride + off.toNat)).getD 0) % 2 ^ 64)) ∧
    (∀ die row pos blk off x, die.toNat < 4 → row.toNat < 24 → pos.toNat < 17 → blk.toNat < 5 → off.toNat % 8 = 0 →
      off.toNat < 0x2000 → (∀ y, y < 16 → h.physOf (die.toNat * 384 + row.toNat * 16 + y) ≠ some pos.toNat) →
      Machine.regAt ((physBlock blk.toNat).base + (die.toNat * 384 + row.toNat * 16) * (physBlock blk.toNat).stride + off.toNat) = some x →
      tells (.physRead c die row pos blk off) (fun d => d.length = 8 ∧ le d 0 8 = (
        if x.info.name = .TL_ID then h.self * 2 ^ 48 + b2n Config.steppingB0 * 2 ^ 36 + h.fld F.ES_JOB_INFO_PROFILE 0 0 * 2 ^ 32 +
          pos.toNat * 2 ^ 16
        else if x.fields.any (fun f => f.block == Block.spr) = true then
          x.fields.foldl (fun a f => a + h.fld f (physIndex die.toNat row.toNat pos.toNat) x.idx * 2 ^ f.lo) 0
        else x.fields.foldl (fun a f => a + f.reset * 2 ^ f.lo) 0) % 2 ^ 64)) ∧
    tells (.fwStatus c) (fun d => d.length = 32 ∧ le d 0 8 = h.regWord F.SC_FW_STATUS_STATE 0 0 % 2 ^ 64 ∧
      le d 8 8 = h.regWord F.SC_FW_SCHED_ACT_BEAT 0 0 % 2 ^ 64 ∧ le d 16 4 = h.crown.staged % 2 ^ 32) ∧
    tells (.powerGet c) (fun d => Holds d 0 [(8, h.regWord F.PW_POWER_MEAN_10US 0 0), (8, h.regWord F.PW_STATUS_K 0 0),
      (4, h.fld F.PW_BUDGET_BUDGET 0 0), (2, h.fld F.PW_CEIL_TILE_CEIL 0 0), (2, h.fld F.PW_CEIL_TEMP_CEIL 0 0),
      (2, h.fld F.PW_FLOOR_FLOOR 0 0), (8, h.regWord F.PW_TEMP_MAX 0 0), (8, h.regWord F.RS_US_STATUS_TRIP 0 0)])

/-- The ICP commands that hold, start and end a run: LOAD, ARM, STOP, ABORT, UNLOAD, DEVICE_RESET and PERMUTE. LOAD is taken in
hand, and carried out in the Crown's next poll round (log entry 72); an ARM whose beat is too near answers JOB with DETAIL 7,
and a LOAD whose commit is refused JOB with DETAIL 0x17 (log entry 100). A LOAD or a PERMUTE whose DRAM is occupied waits (log entry
117). After UNLOAD the job hash reads 0 (log entry 102). Each in a state that Table 12.3 does not give it answers STATE with the run
state code. -/
def Obligations.IcpRuns : Prop :=
  ∀ (s : State) (c : IcpCmd),
    let h := s.heard c.via
    let good := ∀ b, s.dramCheck b = 0
    let job (e : State) (stage code : Nat) : Prop := e.fld F.ES_JOB_STATUS_STAGE 0 0 = stage ∧ e.fld F.ES_JOB_STATUS_CODE 0 0 = code % 2 ^ F.ES_JOB_STATUS_CODE.width
    let state (i : Instr) : Prop := s.Serves i c →
      Answers i c s (fun st det d e => st = 7 ∧ det = h.run.code ∧ d = [] ∧ e = { h with regs := e.regs })
    (∀ area len (flags : W64), s.Serves (.load c area len flags) c → Begins (.load c area len flags) c s) ∧
    (∀ area len (flags : W64), s.InHand (.load c area len flags) c → s.rangesHeld (s.longRanges (.load c area len flags)) = true →
      Completes .crownPollRound s (fun s' => ∃ t : State, t = { s with roots := t.roots } ∧ s' = t.roundEnd)) ∧
    (∀ area len (flags : W64), s.InHand (.load c area len flags) c → s.rangesHeld (s.longRanges (.load c area len flags)) = false →
      (flags.toNat < 2 → (s.run = .idle ∨ s.run = .loaded ∨ s.run = .stopped) → area + len ≤ 2 ^ 38 → good → s.PathsSound →
        let g := imageOf (s.dramBytes area len)
        Finishes (.load c area len flags) c s (fun st det d e => d = [] ∧
          match s.loadFail g (g.stageItems (flags.getLsbD 0)) area with
          | some x => st = 0xB ∧ det = x.code ∧ e = { s.freed.counted e with regs := e.regs } ∧ job e 1 x.code ∧
              e.fld F.ES_JOB_WHERE_OFFSET 0 0 = x.off % 2 ^ F.ES_JOB_WHERE_OFFSET.width
          | none => e.flash = s.flash ∧ e.qps = s.qps ∧ e.waiters = [] ∧
              ((st = 0 ∧ det = 1 ∧ job e 1 1 ∧ e.run = .loaded ∧ e.job = some g.job) ∨
                (st = 0xB ∧ det = 0x17 ∧ job e 1 0x17 ∧ e.run = .idle ∧ e.job = none)))) ∧
      (flags.toNat < 2 → s.run ≠ .idle → s.run ≠ .loaded → s.run ≠ .stopped →
        Finishes (.load c area len flags) c s (fun st det d e => st = 7 ∧ det = s.run.code ∧ d = [] ∧
          e = { s.freed with regs := e.regs })) ∧
      (2 ≤ flags.toNat → Finishes (.load c area len flags) c s (fun st det d e => st = 1 ∧ det = 0 ∧ d = [] ∧ e = s.freed))) ∧
    (∀ (bs : W64) j, s.Serves (.arm c bs) c → h.run = .loaded → h.job = some j → j.opens = [] → h.staged = [] → h.commit = none →
      (bs.toNat < h.beat + 2 → Answers (.arm c bs) c s (fun st det d e => st = 0xB ∧ det = 7 ∧ d = [] ∧ job e 2 7 ∧
        e = { h with regs := e.regs })) ∧
      (h.beat + 2 ≤ bs.toNat → Answers (.arm c bs) c s (fun st det d e => d = [] ∧
        match h.armFail j with
        | some x => st = 0xB ∧ det = x.code ∧ job e 2 x.code ∧ e = { h with regs := e.regs }
        | none => st = 0 ∧ det = 1 ∧ job e 2 1 ∧ e.run = .armed ∧ e.armBeat = bs.toNat ∧ e.job = h.job ∧
            e.fld F.ES_SYSCLR_BASE_BASE 0 0 = bs.toNat % 2 ^ F.ES_SYSCLR_BASE_BASE.width ∧ e.dram = h.dram))) ∧
    (∀ bs, h.run ≠ .loaded → state (.arm c bs)) ∧
    (∀ bx : W64, (h.run = .running ∨ h.run = .held) → h.beat + 2 ≤ bx.toNat → s.Serves (.stop c bx) c →
      Answers (.stop c bx) c s (fun st det d e => st = 0 ∧ det = 0 ∧ d = [] ∧ e = { h with stopBeat := some bx.toNat })) ∧
    (∀ bx : W64, ((h.run ≠ .running ∧ h.run ≠ .held) ∨ bx.toNat < h.beat + 2) → state (.stop c bx)) ∧
    (s.Serves (.abort c) c → h.run = .armed → Answers (.abort c) c s (fun st det d e =>
      st = 0 ∧ det = 0 ∧ d = [] ∧ e = { h with run := .loaded })) ∧
    (s.Serves (.abort c) c → (h.run = .running ∨ h.run = .held ∨ h.run = .draining) → Answers (.abort c) c s (fun st det d e =>
      st = 0 ∧ det = 0 ∧ d = [] ∧ e.run = .draining ∧ e.stopBeat = none ∧ e.permute = none ∧ e.esc.segOn = false ∧
      e.waiters = [] ∧ (e.unclean = true ∨ e.uncleanNext = true) ∧ e.job = h.job ∧
      (∀ t, (e.tile t).core = .reset ∧ (e.tile t).sreg = [] ∧ (e.tile t).vreg = [] ∧ (e.tile t).fetch.queue = [] ∧
        (e.tile t).matrix.filler = [] ∧ (e.tile t).groups = [] ∧ (e.tile t).mem = (h.tile t).mem) ∧
      (∀ r, r < 8 → (e.rve r).st = .reset) ∧ e.counters = h.counters ∧ e.dram = h.dram ∧ e.net = h.net)) ∧
    (h.run ≠ .armed → h.run ≠ .running → h.run ≠ .held → h.run ≠ .draining → state (.abort c)) ∧
    (s.Serves (.unload c) c → (h.run = .loaded ∨ h.run = .stopped) → Answers (.unload c) c s (fun st det d e =>
      st = 0 ∧ det = 0 ∧ d = [] ∧ e = { h with run := .idle, job := none, regs := e.regs } ∧
      (∀ i, i < 6 → e.fld F.ES_JOB_HASH_HASH 0 i = 0))) ∧
    (h.run ≠ .loaded → h.run ≠ .stopped → state (.unload c)) ∧
    (s.Serves (.deviceReset c) c → Answers (.deviceReset c) c s (fun st det d e => st = 0 ∧ det = 0 ∧ d = [] ∧
      e = { h with crown := { h.crown with resetAt := some (h.rc + 100000) } })) ∧
    (∀ (table : W64) (n : W32) (rounds : W16) (b0 : W64), s.Serves (.permute c table n rounds b0) c →
      table.toNat + 32 * n.toNat ≤ 2 ^ 38 → h.rangesHeld [(table.toNat, 32 * n.toNat)] = true →
      Completes (.permute c table n rounds b0) s (fun s' => ∃ q, icpArrival (.permute c table n rounds b0) = some q ∧
        s' = { h with roots := s'.roots, crown := { h.crown with queue := [q] } })) ∧
    (∀ (table : W64) (n : W32) (rounds : W16) (b0 : W64), s.Serves (.permute c table n rounds b0) c →
      h.rangesHeld [(table.toNat, 32 * n.toNat)] = false → (h.run = .running ∨ h.run = .held) → table.toNat + 32 * n.toNat ≤ 2 ^ 38 → good → s.PathsSound →
      let d0 := h.dramBytes table.toNat (32 * n.toNat)
      (h.permute = none → Answers (.permute c table n rounds b0) c s (fun st det d e => d = [] ∧
        match h.permFail d0 n.toNat rounds.toNat b0.toNat with
        | some k => st = 0xE ∧ det = k ∧ e = h.counted e
        | none => st = 0 ∧ det = 0 ∧ ∃ p, e = { h.counted e with permute := some p } ∧ p.b0 = b0.toNat ∧ p.rounds = rounds.toNat ∧
            p.finished = [] ∧ p.entries.length = n.toNat)) ∧
      (h.permute ≠ none → Replies (.permute c table n rounds b0) c s 8 0x0801)) ∧
    (∀ table n rounds b0, h.rangesHeld [(table.toNat, 32 * n.toNat)] = false → h.run ≠ .running → h.run ≠ .held →
      state (.permute c table n rounds b0))

/-- RESTORE, in LOADED; elsewhere it answers STATE. From this device's own parts (source 0) headers of one slot that fit the command,
with a CRC that holds, give their data back: the first MLEN KiB into the master range and the rest into the gather range, with CUR
cleared in every root die; how much data a part holds is what the device's own RT_CKPT_SET says (log entry 96). A slot with another
STEP is refused with DETAIL 2, one not VALID with DETAIL 1, one of another device with DETAIL 3, one of another job
with DETAIL 4 and one whose CRC does not hold with DETAIL 5. From a buddy (source 1), the group (source 2) or host storage (source 3)
the parts' headers are asked for first, from every device that holds one, and the reply waits; host storage that has no queue pair is
refused with DETAIL 7. Another source, or a lost member above 7, is MALFORMED. No path to the parts is occupied. -/
def Obligations.IcpRestore : Prop :=
  (∀ (s : State) (c : IcpCmd) (source lost : Byte) (holder : W16) (step : W64), s.Serves (.restore c source lost holder step) c →
    let i := Instr.restore c source lost holder step
    let h := s.heard c.via
    let asks (s' : State) : Prop := (∃ x, s'.crown.restore = some x ∧ x.source = source.toNat ∧ x.lost = lost.toNat ∧
        x.holder = holder.toNat ∧ x.step = step.toNat ∧ x.data = false) ∧ s'.crown.long = 0x0802 ∧ s'.crown.longCmd = icpArrival i ∧
      s'.run = h.run ∧ s'.dram = h.dram ∧ SameTiles h s' ∧ s'.counters = h.counters
    let read (r dev a : Nat) (s' : State) : Prop := ∃ tag, atSource (5, r) (mkPacket
      { dest := sysAddr dev a, unit := ckptUnit r, dev := h.self, kind := 3, len := 256, tag := tag }) ∈ s'.net
    (h.run ≠ .loaded → Replies i c s 7 h.run.code) ∧
    (h.run = .loaded →
      ((3 < source.toNat ∨ (source = 2 ∧ 7 < lost.toNat)) → Replies i c s 1 0) ∧
      (source = 1 → holder.toNat ≠ h.self → Completes i s (fun s' => asks s' ∧ s'.net.length = h.net.length + 16 ∧
        s'.sent = h.sent ∧ ∀ r j, r < 8 → j < 2 → read r holder.toNat (h.partAddr r j 1) s')) ∧
      (source = 2 → lost.toNat ≤ 7 → (∀ m ∈ others lost.toNat, (ckptGroup h.fld).getD m 0 ≠ h.self) → Completes i s (fun s' =>
        asks s' ∧ s'.net.length = h.net.length + 224 ∧ s'.sent = h.sent ∧ ∀ r j p m, r < 8 → j < 2 → p < 2 → m ∈ others lost.toNat →
          read r ((ckptGroup h.fld).getD m 0) (h.partAddr r j p) s')) ∧
      (source = 3 → let q := h.fld F.RT_CKPT_HOST_QP 0 0
        ((h.qp q).conn = true → (h.qp q).err = false → Completes i s (fun s' => asks s' ∧ s'.net = h.net ∧
          s'.sent.length = h.sent.length + 16 ∧ ∀ r j, r < 8 → j < 2 → ∃ psn,
            .rdmaRead q psn (h.fld F.RT_CKPT_HOST_RKEY 0 0) (h.hostPart r j) 256 ∈ s'.sent)) ∧
        (((h.qp q).conn = false ∨ (h.qp q).err = true) → Replies i c s 0xE 7)))) ∧
  (∀ (s : State) (c : IcpCmd) (holder : W16) (step : W64), s.Serves (.restore c 0 0 holder step) c → s.PathsSound →
    let i := Instr.restore c 0 0 holder step
    let h := s.heard c.via
    let hdr (r slot : Nat) : CkptHdr := readHdr (h.dramBytes (h.partAddr r slot 0) 256)
    let data (r : Nat) : List Byte := h.dramBytes (h.partAddr r 0 0 + 0x10000) (h.ckptLen r)
    let mlen (r : Nat) : Nat := h.fld F.RT_CKPT_SET_MLEN r 0 * 1024
    let master (r : Nat) : Nat := h.ctl r 8 % 2 ^ 38
    let gather (r : Nat) : Nat := h.ctl r 10 % 2 ^ 38
    let refused (k : Nat) : Prop := Answers i c s (fun st det d e => st = 0xE ∧ det = k ∧ d = [] ∧ e = h.counted e)
    h.run = .loaded → (∀ b, h.dramCheck b = 0) → (∀ a m, h.lineHeld a m = false) →
      ((∀ r slot, r < 8 → slot < 2 → (hdr r slot).step ≠ step.toNat % 2 ^ 48) → refused 2) ∧
      ((∀ r, r < 8 → (hdr r 0).step = step.toNat % 2 ^ 48) →
        ((∀ r, r < 8 → (hdr r 0).valid = false) → refused 1) ∧
        ((∀ r, r < 8 → (hdr r 0).valid = true) →
          ((∀ r, r < 8 → (hdr r 0).dev ≠ h.self) → refused 3) ∧
          ((∀ r, r < 8 → (hdr r 0).dev = h.self ∧ (hdr r 0).kind = 0) →
            ((∀ r, r < 8 → (hdr r 0).hash ≠ h.jobHash8) → refused 4) ∧
            ((∀ r, r < 8 → (hdr r 0).hash = h.jobHash8 ∧ (hdr r 0).raise = (hdr 0 0).raise) →
              ((∃ r, r < 8 ∧ (hdr r 0).crc ≠ crc32 (data r)) → refused 5) ∧
              ((∀ r, r < 8 → (hdr r 0).crc = crc32 (data r)) →
                (∀ r, r < 8 → master r + mlen r ≤ 2 ^ 38 ∧ gather r + (h.ckptLen r - mlen r) ≤ 2 ^ 38) → h.staged = [] → h.commit = none →
                (hdr 0 0).raise ≤ h.fld F.RT_WPOLICY_MAXRAISE 0 0 → Answers i c s (fun st det d e =>
                  st = 0 ∧ det = 0 ∧ d = [] ∧
                  (∃ t u : Nat → State, t 0 = h ∧ (∀ r, r < 8 → DramWritten (t r) (u r) (master r) ((data r).take (mlen r)) ∧
                    DramWritten (u r) (t (r + 1)) (gather r) ((data r).drop (mlen r))) ∧ SameDram (t 8) e) ∧
                  (∀ r, r < 8 → (e.rve r).cur = 0) ∧ e.run = .loaded ∧ SameTiles h e ∧ e.counters = h.counters ∧
                  e.crown.restore = none ∧ e.crown.long = 0)))))))

/-- MEM_READ and MEM_WRITE of one range (R359). A read gives the bytes of DRAM, of the store or of a scratchpad, or
the words of registers, and has no effect; a write, outside a run, puts its bytes; a register word is written as
REGISTER_WRITE or STAGING_WRITE does, and a run-locked one in a run answers LOCKED. A range of more than 1,024 bytes,
or over a 4 KiB boundary, is MALFORMED (log entry 83); one that meets a hole is ADDRESS; a write of memory in a run is STATE; a
length of 0 is OK. An access to DRAM whose path is occupied waits in the queue, even a write in a run (log entry 117). -/
def Obligations.IcpMemory : Prop :=
  ∀ (s : State) (c : IcpCmd) (a n : Nat) (d0 : List Byte), s.PathsSound →
    let h := s.heard c.via
    let rd := Instr.memRead c a n
    let wr := Instr.memWrite c a d0
    let within (n : Nat) : Prop := 0 < n ∧ n ≤ 1024 ∧ a % 4096 + n ≤ 4096
    let gives (P : List Byte → Prop) : Prop := Answers rd c s (fun st det d e => st = 0 ∧ det = 0 ∧ e = h ∧ P d)
    let puts (P : State → Prop) : Prop := Answers wr c s (fun st det d e => st = 0 ∧ det = 0 ∧ d = [] ∧ P e)
    (s.Serves rd c →
      (n = 0 → Replies rd c s 0 0) ∧
      (0 < n → (1024 < n ∨ 4096 < a % 4096 + n) → Replies rd c s 1 0) ∧
      (within n → h.place a = .hole → Replies rd c s 9 0) ∧
      (within n → ∀ b, h.place a = .dram b → b + n ≤ 2 ^ 38 → h.lineHeld a n = true →
        Completes rd s (fun s' => ∃ q, icpArrival rd = some q ∧
          s' = { h with roots := s'.roots, crown := { h.crown with queue := [q] } })) ∧
      (within n → ∀ b, h.place a = .dram b → b + n ≤ 2 ^ 38 → h.lineHeld a n = false → (∀ w, h.dramCheck w = 0) →
        Answers rd c s (fun st det d e => st = 0 ∧ det = 0 ∧ e = h.counted e ∧ d = h.dramBytes b n)) ∧
      (within n → ∀ r o, h.place a = .store r o → r * 0x4000000 + o + n ≤ 0x20000000 → (∀ x k, h.recCheck r x k = 0) →
        gives (fun d => d = h.storeBytes r o n)) ∧
      (within n → ∀ t o, h.place a = .tile t o → o + n ≤ 0x180000 → h.BanksOn t → (∀ b, b < 0x180000 → h.spBad t b = false) →
        gives (fun d => d = h.spBytes t o n)) ∧
      (within n → ∀ b, h.place a = .live b → a % 8 = 0 → n % 8 = 0 → h.liveRangeOk a n = true →
        gives (fun d => d.length = n ∧ ∀ k, 8 * k < n → le d (8 * k) 8 = ((h.readWord (a + 8 * k)).getD 0) % 2 ^ 64))) ∧
    (s.Serves wr c →
      (d0 = [] → Replies wr c s 0 0) ∧
      (within d0.length → h.place a = .hole → Replies wr c s 9 0) ∧
      (within d0.length → ∀ b, h.place a = .dram b → b + d0.length ≤ 2 ^ 38 → h.lineHeld a d0.length = true →
        Completes wr s (fun s' => ∃ q, icpArrival wr = some q ∧
          s' = { h with roots := s'.roots, crown := { h.crown with queue := [q] } })) ∧
      (within d0.length → ∀ b, h.place a = .dram b → b + d0.length ≤ 2 ^ 38 → h.lineHeld a d0.length = false →
        (h.inRun = true → Replies wr c s 7 h.run.code) ∧
        (h.inRun = false → (∀ w, h.dramCheck w = 0) → puts (fun e => DramWritten h e b d0 ∧
          e = { h.counted e with dram := e.dram, dramBad := e.dramBad }))) ∧
      (within d0.length → h.inRun = false → ∀ t o, h.place a = .tile t o → o + d0.length ≤ 0x180000 → h.BanksOn t →
        h.RowsApart t → puts (fun e => SpWritten h e t o d0 ∧ (∀ u, u ≠ t → e.tile u = h.tile u) ∧ SameDram h e ∧
          e.counters = h.counters)) ∧
      (within d0.length → h.inRun = false → ∀ r o, h.place a = .store r o → o + d0.length ≤ 0x4000000 → h.storeActive r o d0.length = none →
        (∀ x k, h.recCheck r x k = 0) → o % 16 = 0 → d0.length % 16 = 0 →
        puts (fun e => (∀ k, k < d0.length / 16 → (e.record r (o / 16 + k)).toNat = le d0 (16 * k) 16) ∧
          (∀ x, x < storeRecords → (x < o / 16 ∨ o / 16 + d0.length / 16 ≤ x) → e.record r x = h.record r x) ∧
          (∀ u, u ≠ r → e.root u = h.root u) ∧ SameDram h e ∧ SameTiles h e)) ∧
      (d0.length = 8 → a % 8 = 0 → ∀ b x, h.place a = .live b → h.regAt a = some x →
        (h.lockedWord x = false → puts (fun e => exec (.registerWrite a (BitVec.ofNat 64 (ofBytes d0))) h = .next e)) ∧
        (h.lockedWord x = true → Answers wr c s (fun st det d e => st = 0xA ∧ det = 0 ∧ d = [] ∧
          e.fld F.ES_CFG_STATUS_LOCKED_WRITE 0 0 = 1 ∧ e = { h with regs := e.regs }))) ∧
      (d0.length = 8 → a % 8 = 0 → ∀ b x, h.place a = .staging b → h.regAt (a - 0x800000000) = some x → h.lockedWord x = false →
        puts (fun e => exec (.stagingWrite a (BitVec.ofNat 64 (ofBytes d0))) h = .next e)))

/-- QP_CONNECT, QP_RESET, CHIME_SET, NET_SET and the power settings. A queue pair is bound to its port and numbers, or
disconnected with nothing outstanding; Chimes follow their settings; addresses and limits go into the signed settings,
and into force: the limits by a target-0 commit, which applies at once outside a run and waits in one, where FLOOR_SET answers STATE. A
commit that is refused, in FAULTED or with another one waiting, answers COMMIT with its code; the settings hold the value then too (R398:
a setting is written first). Each is refused where a condition of its list fails. -/
def Obligations.IcpSettings : Prop :=
  ∀ (s : State) (c : IcpCmd),
    let h := s.heard c.via
    let done (i : Instr) (P : State → Prop) : Prop := Answers i c s (fun st det d e => st = 0 ∧ det = 0 ∧ d = [] ∧ P e)
    let sets (i : Instr) (f : Settings → Settings) (l : List (RegField × Nat)) : Prop :=
      let put (e : State) : Prop := e.crown.settings = f h.crown.settings ∧ SameTiles h e ∧ e.dram = h.dram ∧ e.run = h.run
      let kept (e : State) : Prop := ∀ p ∈ l, e.fld p.1 0 0 = h.fld p.1 0 0
      let refused (k : Nat) : Prop := Answers i c s (fun st det d e => st = 0xC ∧ det = k ∧ d = [] ∧ put e ∧ kept e ∧
        e.commit = h.commit)
      (h.idleRun = true → h.staged = [] → h.commit = none → done i (fun e => put e ∧ ∀ p ∈ l, e.fld p.1 0 0 = p.2)) ∧
      (h.idleRun = false → h.run ≠ .faulted → h.staged = [] → h.commit = none → done i (fun e => put e ∧ kept e ∧
        ∃ k, e.commit = some k ∧ k.target = 0 ∧ k.set.length = l.length ∧ ∀ p ∈ l, (p.1.key 0 0, p.2) ∈ k.set)) ∧
      (h.run = .faulted → refused 7) ∧ (h.run ≠ .faulted → h.commit.isSome = true → refused 6)
    (∀ q p rqpn raddr x y, let i := Instr.qpConnect c q p rqpn raddr x y
      s.Serves i c → q < 64 → p < 2 →
      ((h.qp q).conn = true → Replies i c s 0xE 1) ∧
      ((h.qp q).conn = false → ((h.port p).up = false ∨ h.fld F.EN_PORT_STATUS_LINK_UP p 0 = 0) → Replies i c s 0xE 2) ∧
      ((h.qp q).conn = false → (h.port p).up = true → h.fld F.EN_PORT_STATUS_LINK_UP p 0 ≠ 0 → done i (fun e =>
        QpBecomes h e q { Qp.fresh with conn := true, port := p, rqpn := rqpn, raddr := raddr
                                        sendPsn := x.toNat % 2 ^ 24, expPsn := y.toNat % 2 ^ 24 } ∧
        e = { h with qps := e.qps }))) ∧
    (∀ q, let i := Instr.qpReset c q
      s.Serves i c → q < 64 →
      (h.inRun = true → h.fld F.RT_CKPT_HOST_QP 0 0 = q → Replies i c s 7 h.run.code) ∧
      ((h.inRun = false ∨ h.fld F.RT_CKPT_HOST_QP 0 0 ≠ q) → done i (fun e => QpBecomes h e q Qp.fresh ∧
        (∀ p, ∀ m ∈ (e.port p).intake, p = (h.qp q).port → m.qp ≠ q) ∧ e = { h with qps := e.qps, ports := e.ports }))) ∧
    (∀ (flags : W32) dst udp (p : Byte) (n : W32) (base : W64), let i := Instr.chimeSet c flags dst udp p n base
      s.Serves i c → flags.toNat < 2 → p.toNat < 2 → (n.toNat < 64 → Replies i c s 0xE 1) ∧
      (64 ≤ n.toNat → done i (fun e => e = { h with crown := { h.crown with chime := e.crown.chime } } ∧
        e.crown.chime.on = flags.getLsbD 0 ∧ e.crown.chime.dst = dst ∧ e.crown.chime.udp = udp ∧
        e.crown.chime.port = p.toNat ∧ e.crown.chime.n = n.toNat ∧ e.crown.chime.base = base.toNat ∧
        e.crown.chime.seq = 0 ∧ e.crown.chime.due = none))) ∧
    (∀ p v4 v6 vlan, let i := Instr.netSet c p v4 v6 vlan
      s.Serves i c → (h.inRun = true → Replies i c s 7 h.run.code) ∧
      (h.inRun = false → p < 2 → ∃ e t, Replied e t i c 0 0 [] ∧ e.ports = h.ports ∧
        e.crown.settings.ipv4.read 0 p = v4 ∧ e.crown.settings.vlan.read 0 p = vlan ∧ e.run = h.run ∧
        SameTiles h e ∧ e.dram = h.dram ∧ Completes i s (fun s' => s' = { t with ports := s'.ports } ∧
          PortBecomes t s' p { t.port p with ipv4 := v4, ipv6 := v6, vlan := vlan }))) ∧
    (∀ b : W32, let i := Instr.budgetSet c b
      s.Serves i c → ((b.toNat < 90000 ∨ 180000 < b.toNat) → Replies i c s 0xE 1) ∧
      (90000 ≤ b.toNat → b.toNat ≤ 180000 →
        (∀ j, h.inRun = true → h.job = some j → b.toNat < j.alloc → Replies i c s 0xE 2) ∧
        ((∀ j, h.inRun = true → h.job = some j → j.alloc ≤ b.toNat) →
          sets i (fun x => { x with budget := b.toNat }) [(F.PW_BUDGET_BUDGET, b.toNat)]))) ∧
    (∀ t k : W16, let i := Instr.ceilingSet c t k
      let low := h.fld F.PW_FLOOR_FLOOR 0 0
      s.Serves i c → ((t.toNat < low ∨ 256 < t.toNat) → Replies i c s 0xE 1) ∧
      (low ≤ t.toNat → t.toNat ≤ 256 → ((k.toNat < 640 ∨ 1520 < k.toNat) → Replies i c s 0xE 2) ∧
        (640 ≤ k.toNat → k.toNat ≤ 1520 → 1 ≤ t.toNat →
          sets i (fun x => { x with tileCeil := t.toNat, tempCeil := k.toNat })
            [(F.PW_CEIL_TILE_CEIL, t.toNat), (F.PW_CEIL_TEMP_CEIL, k.toNat)]))) ∧
    (∀ f : W16, let i := Instr.floorSet c f
      let top := h.fld F.PW_CEIL_TILE_CEIL 0 0
      s.Serves i c → (h.inRun = true → Replies i c s 7 h.run.code) ∧
      (h.inRun = false → ((f.toNat < 1 ∨ 256 < f.toNat) → Replies i c s 0xE 1) ∧
        (1 ≤ f.toNat → f.toNat ≤ 256 → (top < f.toNat → Replies i c s 0xE 2) ∧
          (f.toNat ≤ top → sets i (fun x => { x with floor := f.toNat }) [(F.PW_FLOOR_FLOOR, f.toNat)]))))

/-- BLOCK_RESET and RETURN_TO_SERVICE. Outside a run a quiescent tile row, RVE, link or port is reset, at once (log entry 109), and a
busy one answers NOT_IDLE; the reply of a link goes out at once, that of another block with the poll round at which the reset is complete
(Table 13.6), till when every other command waits. A unit is taken off the list of failed units (instance numbers: log entry 62), with no
effect on DRAM, tiles or counters but where the return of a lane resets its link (log entry 97). In a run both answer STATE. -/
def Obligations.IcpRepairs : Prop :=
  ∀ (s : State) (c : IcpCmd),
    let h := s.heard c.via
    let done (i : Instr) (P : State → Prop) : Prop := Answers i c s (fun st det d e => st = 0 ∧ det = 0 ∧ d = [] ∧ P e)
    (∀ (b : Byte) (n : W16), let i := Instr.blockReset c b n
      s.Serves i c → (h.inRun = true → Replies i c s 7 h.run.code) ∧
      (h.inRun = false →
        (blockCount b.toNat ≤ n.toNat → Replies i c s 1 0) ∧
        (b = 3 → n.toNat = c.via → n.toNat < 2 → Replies i c s 0xE 1) ∧
        (n.toNat < blockCount b.toNat → (b ≠ 3 ∨ n.toNat ≠ c.via) →
          (h.blockQuiet b.toNat n.toNat = false → Replies i c s 0xD 0) ∧
          (h.blockQuiet b.toNat n.toNat = true →
            let pends (P : State → Prop) : Prop := Completes i s (fun s' => P s' ∧ Sends h s' [] ∧ s'.crown =
              { h.crown with longCmd := icpArrival i, blockBusy := some (b.toNat,
                if b = 0 then h.esc.tc + 1100 else if b = 1 then h.coreNow + 2048 else h.rc + 100000) })
            (b = 0 → pends (fun e => (∀ t, e.tile t =
              if n.toNat / 24 * 384 + n.toNat % 24 * 16 ≤ t ∧ t < n.toNat / 24 * 384 + n.toNat % 24 * 16 + 16 then Tile.fresh
              else h.tile t) ∧ e.dram = h.dram ∧ e.roots = h.roots ∧ e.links = h.links)) ∧
            (b = 1 → pends (fun e => e.rve n.toNat = { Rve.fresh with
                cur := (h.rve n.toNat).cur, spare0 := (h.rve n.toNat).spare0, spare1 := (h.rve n.toNat).spare1
                perm := (h.rve n.toNat).perm, cyc := (h.rve n.toNat).cyc } ∧
              (∀ u, u ≠ n.toNat → e.root u = h.root u) ∧ e.dram = h.dram ∧ e.tiles = h.tiles)) ∧
            (b = 2 → (h.link n.toNat).queued = [] → (h.link n.toNat).inDoubt = [] → done i (fun e =>
              e.link n.toNat = { Link.fresh with session := (h.link n.toNat).session + 1 } ∧
              (∀ u, u ≠ n.toNat → e.link u = h.link u) ∧
              e.linkState n.toNat = (if h.fld F.LK_CFG_EN n.toNat 0 = 1 then 1 else 0) ∧ e.dram = h.dram ∧ e.tiles = h.tiles)) ∧
            (b = 3 → pends (fun e => (∀ q, q < 64 → (h.qp q).conn = true → (h.qp q).port = n.toNat → e.qp q = Qp.fresh) ∧
              (∀ q, (h.qp q).port ≠ n.toNat → e.qp q = h.qp q) ∧ (e.port n.toNat).intake = [] ∧ (e.port n.toNat).reads = [] ∧
              e.dram = h.dram ∧ e.tiles = h.tiles)))))) ∧
    (∀ (b : Byte) (n : W16) x due, let i := Instr.blockReset c b n
      s.Reached i c → s.crown.long = 0 → s.crown.restore = none → s.crown.longCmd = icpArrival i → s.crown.blockBusy = some (x, due) →
      (s.blockDone x due = false → Completes .crownPollRound s (fun s' => s' = s.roundEnd)) ∧
      (s.blockDone x due = true → Finishes i c s (fun st det d e => st = 0 ∧ det = 0 ∧ d = [] ∧
        e = { s with crown := { s.crown with longCmd := none, blockBusy := none } }))) ∧
    (∀ (k : Byte) (u : W32), let i := Instr.returnToService c k u
      s.Serves i c → ((h.run ≠ .idle ∧ h.run ≠ .loaded ∧ h.run ≠ .stopped) → Replies i c s 7 h.run.code) ∧
      ((h.run = .idle ∨ h.run = .loaded ∨ h.run = .stopped) →
        (unitOk k.toNat u.toNat = false → Replies i c s 1 0) ∧
        (unitOk k.toNat u.toNat = true → done i (fun e => (k.toNat, u.toNat) ∉ e.crown.repair.failed ∧
          (k ≠ 5 → ∀ x, x ≠ (k.toNat, u.toNat) → (x ∈ e.crown.repair.failed ↔ x ∈ h.crown.repair.failed)) ∧
          (k ≠ 6 → e.dram = h.dram ∧ e.tiles = h.tiles ∧ e.counters = h.counters)))))

/-- The firmware update. A command outside its states, or under the owner lock, with the hold-up margin low or while a
PERMUTE is in progress, answers as R415 lists; LAST takes the DETAIL of a REFUSED answer and of no other (log entry 95); FW_STAGE_BEGIN
carries out the flash writes that waited for the margin and empties the B slot; FW_STAGE_DATA puts its bytes there
in order; FW_VERIFY is taken in hand, and checks the bundle in the Crown's next poll round (log entry 72); FW_SCHEDULE names
the beat of activation; FW_ABANDON empties the B slot, with the hold-up margin low once it is back, and is refused once the bundle is
activated (STATE 3 with VALID 0: log entry 134). -/
def Obligations.FirmwareUpdate : Prop :=
  ∀ (s : State) (c : IcpCmd),
    let h := s.heard c.via
    let b := 1 - h.activeSlot
    let waited := h.crown.flashWait.foldl Flash.put h.flash
    let state := h.fld F.SC_FW_STATUS_STATE 0 0;
    let done (i : Instr) (P : State → Prop) : Prop := Answers i c s (fun st det d e => st = 0 ∧ det = 0 ∧ d = [] ∧ P e)
    let refused (i : Instr) (k : Nat) : Prop := Answers i c s (fun st det d e => st = 0xE ∧ det = k ∧ d = [] ∧
      e.fld F.SC_FW_STATUS_LAST 0 0 = k % 2 ^ F.SC_FW_STATUS_LAST.width ∧ e = { h with regs := e.regs })
    let may := h.inRun = false ∧ h.crown.owner.lock = false ∧ h.fld F.RS_US_STATUS_MARGIN_LOW 0 0 ≠ 1 ∧ h.permute = none
    let gated (i : Instr) : Prop := s.Serves i c →
      (h.inRun = true → Replies i c s 7 h.run.code) ∧
      (h.inRun = false → (h.crown.owner.lock = true → Replies i c s 0xF 0) ∧
        (h.crown.owner.lock = false → h.fld F.RS_US_STATUS_MARGIN_LOW 0 0 = 1 → Replies i c s 0x10 0) ∧
        (h.crown.owner.lock = false → h.fld F.RS_US_STATUS_MARGIN_LOW 0 0 ≠ 1 → h.permute.isSome = true →
          Replies i c s 8 0x0801))
    (∀ n : W32, let i := Instr.fwStageBegin c n
      gated i ∧ (s.Serves i c → may →
        ((n.toNat < 2176 ∨ 4194304 < n.toNat ∨ n.toNat % 64 ≠ 0) → refused i 1) ∧
        (2176 ≤ n.toNat → n.toNat ≤ 4194304 → n.toNat % 64 = 0 → done i (fun e => e.fld F.SC_FW_STATUS_STATE 0 0 = 1 ∧
          e.crown.staged = 0 ∧ e.crown.stageLen = n.toNat ∧ e.flash.slot b = [] ∧ e.flash = waited.emptySlot b ∧
          e.crown.flashWait = [] ∧ e.fld F.SC_FW_SCHED_VALID 0 0 = 0)))) ∧
    (∀ (off : W32) d0, let i := Instr.fwStageData c off d0
      gated i ∧ (s.Serves i c → may → (state ≠ 1 → refused i 1) ∧
        (state = 1 → (off.toNat ≠ h.crown.staged → refused i 2) ∧
          (off.toNat = h.crown.staged → (h.crown.stageLen < off.toNat + d0.length → refused i 3) ∧
            (off.toNat + d0.length ≤ h.crown.stageLen → done i (fun e =>
              e.crown.staged = off.toNat + d0.length ∧
              (∀ a, (e.flash.slot b).read 0 a = if off.toNat ≤ a then (d0[a - off.toNat]?).getD ((h.flash.slot b).read 0 a)
                else (h.flash.slot b).read 0 a) ∧
              e.flash.slot (1 - b) = h.flash.slot (1 - b) ∧ e = { h with flash := e.flash, crown := e.crown })))))) ∧
    (let i := Instr.fwVerify c;
      let ends (P : Nat → Nat → State → Prop) : Prop := Finishes i c s (fun st det d e => d = [] ∧ P st det e)
      (s.Serves i c → Begins i c s) ∧
      (s.InHand i c → (s.inRun = true → ends (fun st det e => st = 7 ∧ det = s.run.code ∧ e = s.freed)) ∧
        (s.inRun = false → (s.crown.owner.lock = true → ends (fun st det e => st = 0xF ∧ det = 0 ∧ e = s.freed)) ∧
          (s.crown.owner.lock = false → s.fld F.RS_US_STATUS_MARGIN_LOW 0 0 = 1 →
            ends (fun st det e => st = 0x10 ∧ det = 0 ∧ e = s.freed)) ∧
          (s.crown.owner.lock = false → s.fld F.RS_US_STATUS_MARGIN_LOW 0 0 ≠ 1 → s.permute.isSome = true →
            ends (fun st det e => st = 8 ∧ det = 0x0801 ∧ e = s.freed)) ∧
          (s.crown.owner.lock = false → s.fld F.RS_US_STATUS_MARGIN_LOW 0 0 ≠ 1 → s.permute = none →
            ((s.fld F.SC_FW_STATUS_STATE 0 0 ≠ 1 ∨ s.crown.staged < s.crown.stageLen) → ends (fun st det e => st = 0xE ∧ det = 1 ∧
              e.fld F.SC_FW_STATUS_LAST 0 0 = 1 % 2 ^ F.SC_FW_STATUS_LAST.width ∧ e = { s.freed with regs := e.regs })) ∧
            (s.fld F.SC_FW_STATUS_STATE 0 0 = 1 → s.crown.stageLen ≤ s.crown.staged → ends (fun st det e =>
              match s.verifyFail with
              | some k => st = 0xE ∧ det = k ∧ e.fld F.SC_FW_STATUS_STATE 0 0 = 0 ∧ e = { s.freed with regs := e.regs }
              | none => st = 0 ∧ det = 0 ∧ e.fld F.SC_FW_STATUS_STATE 0 0 = 2 ∧ e.flash = { s.flash with verified := some (1 - s.activeSlot) } ∧
                  e = { s.freed with regs := e.regs, flash := e.flash })))))) ∧
    (∀ beat : W64, let i := Instr.fwSchedule c beat
      gated i ∧ (s.Serves i c → may → (state ≠ 2 → refused i 1) ∧
        (state = 2 → (h.role ≠ 0 → beat.toNat < h.beat + 2 → refused i 2) ∧
          (h.role = 0 → beat ≠ 0 → refused i 3) ∧
          ((h.role ≠ 0 ∧ h.beat + 2 ≤ beat.toNat) ∨ (h.role = 0 ∧ beat = 0) → done i (fun e =>
            e.fld F.SC_FW_STATUS_STATE 0 0 = 3 ∧ e.fld F.SC_FW_SCHED_VALID 0 0 = 1 ∧
            e.fld F.SC_FW_SCHED_ACT_BEAT 0 0 = beat.toNat % 2 ^ F.SC_FW_SCHED_ACT_BEAT.width ∧ e = { h with regs := e.regs }))))) ∧
    (let i := Instr.fwAbandon c;
      s.Serves i c → (state = 0 → done i (fun e => e = h)) ∧
        (state = 3 → h.fld F.SC_FW_SCHED_VALID 0 0 = 0 → refused i 1) ∧
        (state = 1 ∨ state = 2 ∨ (state = 3 ∧ h.fld F.SC_FW_SCHED_VALID 0 0 ≠ 0) → done i (fun e =>
          e.fld F.SC_FW_STATUS_STATE 0 0 = 0 ∧ e.fld F.SC_FW_SCHED_VALID 0 0 = 0 ∧
          (h.marginLow = false → e.flash.slot b = [] ∧
            e = { h with regs := e.regs, flash := waited.emptySlot b, crown := { h.crown with flashWait := [] } }) ∧
          (h.marginLow = true →
            e = { h with regs := e.regs, crown := { h.crown with flashWait := h.crown.flashWait ++ [.empty b] } }))))

/-- The owner's commands; SEQ is within what the reserve can reach (log entry 95). OWNER_ENROL of a device with no owner needs the owner's signature and two points of the curve, and
answers the device's key and its certificate's signature, and holds the command key derived from both, in flash under the wrap
key; OWNER_LOCK sets the lock of an enrolled owner, and answers BUSY while a
bundle is staged or scheduled, before it looks for an owner (log entry 95); OWNER_RELEASE with no owner is refused. OWNER_LOCK and OWNER_RELEASE of an enrolled
owner, once the command has passed its tag: LOCK sets the lock; RELEASE with the owner's signature clears the lock in
mode 0 and the enrolment in mode 1, refuses another signature with DETAIL 2 and another mode with DETAIL 3. -/
def Obligations.OwnerCommands : Prop :=
  (∀ (s : State) (c : IcpCmd),
     let h := s.heard c.via
     (∀ qO qE sn sc, let i := Instr.ownerEnrol c qO qE sn sc
       let m := Config.sha384 (toBytes 0x0602 2 ++ toBytes c.seq.toNat 8 ++ Config.serial ++ qO ++ qE)
       s.Serves i c →
       ((h.run ≠ .idle ∧ h.run ≠ .loaded ∧ h.run ≠ .stopped) → Replies i c s 7 h.run.code) ∧
       ((h.run = .idle ∨ h.run = .loaded ∨ h.run = .stopped) →
         (h.crown.owner.lock = true → Replies i c s 0xF 0) ∧
         (h.crown.owner.lock = false →
           (Config.ecdsaVerify qO m sn = false → Replies i c s 0xE 1) ∧
           (Config.ecdsaVerify qO m sn = true → (Config.p384Point qO && Config.p384Point qE) = false → Replies i c s 0xE 3) ∧
           (Config.ecdsaVerify qO m sn = true → Config.p384Point qO = true → Config.p384Point qE = true →
             Answers i c s (fun st det d e =>
               let qD := Config.ephemeralPub h.freeCtr
               st = 0 ∧ det = 0 ∧ d = qD ++ Config.identitySign (Config.sha384 (qO ++ qE ++ qD ++ Config.serial)) ∧
               e.crown.owner.key = qO ∧ e.crown.owner.lock = false ∧
               e.crown.cmdKey = Config.hkdf384 (Config.ecdh h.freeCtr qE) Config.identityCertHash cmdInfo ∧
               (qO ≠ [] → ∃ nonce, e.crown.owner.cmd = Config.gcmSeal Config.wrapKey nonce e.crown.cmdKey) ∧ e.run = h.run ∧ SameTiles h e ∧ e.dram = h.dram ∧
               e.counters = h.counters))))) ∧
     (let i := Instr.ownerLock c;
       let state := h.fld F.SC_FW_STATUS_STATE 0 0;
       s.Serves i c → (state = 1 → Replies i c s 8 0x0501) ∧ (state = 3 → Replies i c s 8 0x0504) ∧
         (state ≠ 1 → state ≠ 3 → Replies i c s 0xE 1)) ∧
     (∀ mode sg, let i := Instr.ownerRelease c mode sg
       s.Serves i c → Replies i c s 0xE 1)) ∧
  (∀ (s : State) (c : IcpCmd) (op : Nat) (v t : List Byte), s.crown.owner.key ≠ [] → s.crown.floor < c.seq.toNat →
     s.crownUp = true → s.recordsLost = false → c.via < 2 → s.portTakes c.via = true → c.dev.toNat = 0xFFFF →
     s.crown.cache = [] → s.CrownFree → c.tag = some t → t.length = 16 →
     c.seq.toNat ≤ 0xFFFFFFFF * 2 ^ 20 →
     let h := s.heard c.via
     let right := t = (hashBytes (Config.hmac384 s.crown.cmdKey (icpBody c op v))).take 16
     let same (e : State) : Prop := e.run = h.run ∧ SameTiles h e ∧ e.dram = h.dram
     (op = 0x0603 → v = [] → (¬right → Replies (.ownerLock c) c s 4 2) ∧
       (right → s.fld F.SC_FW_STATUS_STATE 0 0 = 0 → Answers (.ownerLock c) c s (fun st det d e =>
         st = 0 ∧ det = 0 ∧ d = [] ∧ e.crown.owner = { s.crown.owner with lock := true } ∧ same e))) ∧
     (∀ (mode : Byte) sg, sg.length = 96 → op = 0x0604 → v = [mode] ++ zeros 7 ++ sg →
       let i := Instr.ownerRelease c mode sg
       let signed := Config.ecdsaVerify s.crown.owner.key
         (Config.sha384 (toBytes 0x0604 2 ++ toBytes c.seq.toNat 8 ++ Config.serial ++ [mode])) sg
       let refused (k : Nat) : Prop := Answers i c s (fun st det d e =>
         st = 0xE ∧ det = k ∧ d = [] ∧ e.crown.owner = s.crown.owner ∧ same e)
       (¬right → Replies i c s 4 2) ∧
       (right → (signed = false → refused 2) ∧
         (signed = true → (1 < mode.toNat → refused 3) ∧
           (mode.toNat ≤ 1 → Answers i c s (fun st det d e => st = 0 ∧ det = 0 ∧ d = [] ∧ e.crown.owner.lock = false ∧
             (mode = 0 → e.crown.owner = { s.crown.owner with lock := false }) ∧ (mode = 1 → e.crown.owner.key = []) ∧ same e))))))

/-- SPDM requests over ICP or MCTP. GET_VERSION answers version 1.2 and starts a negotiation; GET_CAPABILITIES and
NEGOTIATE_ALGORITHMS follow in order; then digests, certificates, a challenge signed by the identity key, and
measurements. A request before its time answers UnexpectedRequest, one that is not listed, of another version, or a challenge
that asks for a measurement summary, UnsupportedRequest (layouts and versions: log entry 60). MCTP control.
SET_ENDPOINT_ID takes an identifier other than 0 and 0xFF, GET_ENDPOINT_ID answers it, and the other two name the
message types of SPDM and ICP (layouts: log entry 60). A response over MCTP begins with its message type, and a control response
carries an instance identifier below 32 next. A device whose Crown has not reached READY does not answer. -/
def Obligations.SpdmAndMctp : Prop :=
  (∀ (s : State) (c : IcpCmd),
     let h := if c.via = 3 then s else s.heard c.via
     let serves (i : Instr) : Prop := s.Serves i c ∨
       (c.via = 3 ∧ cmdFrom i = some c ∧ i.wf = true ∧ icpFits i = true ∧ s.crownUp = true ∧ s.recordsLost = false ∧ s.CrownFree ∧
         s.smbOff = false)
     let responds (i : Instr) (P : List Byte → State → Prop) : Prop := serves i →
       (c.via < 3 → Answers i c s (fun st det d e => st = 0 ∧ det = 0 ∧ P d e)) ∧
       (c.via = 3 → ∃ e d, P d e ∧ exec i s = .next (e.emit (.mctp ([0x05] ++ d))))
     let answers (i : Instr) (P : List Byte → State → Prop) : Prop := c.spdm = none → responds i P
     let early (i : Instr) : Prop := answers i (fun d e => d = [0x12, 0x7F, 4, 0] ∧ e = h)
     let step (e : State) (n : Nat) : Prop := e.crown.spdm = n ∧
       e = { h with freeCtr := e.freeCtr, crown := { h.crown with spdm := n, vca := e.crown.vca, script := e.crown.script, mlog := e.crown.mlog } }
     let scripts (e : State) : Prop := e = { h with freeCtr := e.freeCtr, crown := { h.crown with script := e.crown.script, mlog := e.crown.mlog } }
     let chain := Config.certChain
     (∀ i d, icpOpcode i = 0x0601 → c.spdm = some d → 4 ≤ d.length →
       (le d 1 1 ∉ [0x84, 0xE1, 0xE3, 0x81, 0x82, 0x83, 0xE0] ∨ le d 0 1 ≠ (if le d 1 1 = 0x84 then 0x10 else 0x12) ∨
         (le d 1 1 = 0x83 ∧ d.length = 36 ∧ le d 3 1 ≠ 0)) →
       responds i (fun r e => r = [0x12, 0x7F, 7, BitVec.ofNat 8 (le d 1 1)] ∧ e = h)) ∧
     answers (.spdmGetVersion c) (fun d e => d = [0x10, 0x04, 0, 0, 0, 1, 0, 0x12] ∧ step e 1) ∧
     (h.crown.spdm ≠ 1 → early (.spdmGetCapabilities c)) ∧
     (h.crown.spdm = 1 → answers (.spdmGetCapabilities c) (fun d e => d.length = 20 ∧ d.take 2 = [0x12, 0x61] ∧
       le d 8 4 = 0x16 ∧ step e 2)) ∧
     (∀ a k : W32, (h.crown.spdm ≠ 2 → early (.spdmNegotiateAlgorithms c a k)) ∧
       (h.crown.spdm = 2 → a.getLsbD 7 = true → k.getLsbD 1 = true → answers (.spdmNegotiateAlgorithms c a k) (fun d e =>
         d.length = 36 ∧ d.take 2 = [0x12, 0x63] ∧ le d 12 4 = 0x80 ∧ le d 16 4 = 2 ∧ step e 3))) ∧
     (h.crown.spdm ≠ 3 → early (.spdmGetDigests c) ∧ (∀ k o n, early (.spdmGetCertificate c k o n)) ∧
       (∀ k n, early (.spdmChallenge c k n)) ∧ ∀ k g n, early (.spdmGetMeasurements c k g n)) ∧
     (h.crown.spdm = 3 →
       answers (.spdmGetDigests c) (fun d e => d = [0x12, 0x01, 0, 1] ++ hashBytes (Config.sha384 chain) ∧ scripts e) ∧
       (∀ (o n : W16), answers (.spdmGetCertificate c 0 o n) (fun d e =>
         let k := min n.toNat (min 1024 (chain.length - o.toNat))
         (chain.length ≤ o.toNat → d = [0x12, 0x7F, 1, 0] ∧ e = h) ∧
         (o.toNat < chain.length → d.take 4 = [0x12, 0x02, 0, 0] ∧ le d 4 2 = k % 2 ^ 16 ∧
           d.drop 8 = (chain.drop o.toNat).take k ∧ scripts e))) ∧
       (∀ k o n, k ≠ 0 → answers (.spdmGetCertificate c k o n) (fun d e => d = [0x12, 0x7F, 1, 0] ∧ e = h)) ∧
       (∀ n, answers (.spdmChallenge c 0 n) (fun d e => d.take 4 = [0x12, 0x03, 0, 1] ∧
         (d.drop 4).take (hashBytes (Config.sha384 chain)).length = hashBytes (Config.sha384 chain) ∧ scripts e ∧
         e.crown.script = [])) ∧
       (∀ g n, answers (.spdmGetMeasurements c 0 g n) (fun d e => d.take 8 = [0x12, 0x60, 7, 0, 0, 0, 0, 0] ∧ scripts e)) ∧
       (∀ (k : Byte) g n, 1 ≤ k.toNat → k.toNat ≤ 7 → answers (.spdmGetMeasurements c k g n) (fun d e =>
         d.take 5 = [0x12, 0x60, 0, 0, 1] ∧ le d 8 1 = k.toNat ∧ scripts e)) ∧
       (∀ (k : Byte) g n, 7 < k.toNat → k ≠ 0xFF → answers (.spdmGetMeasurements c k g n) (fun d e =>
         d = [0x12, 0x7F, 1, 0] ∧ e = h)))) ∧
  (∀ (s : State),
     let answers (t : State) (l : List Byte) (s' : State) : Prop :=
       ∃ id : Byte, id.toNat < 32 ∧ s' = { t with freeCtr := t.freeCtr + 1 }.emit (.mctp ([0, id] ++ l))
     (s.mctpUp = true →
       (∀ e : Byte, e ≠ 0 → e ≠ 0xFF → Completes (.setEndpointId e) s
         (answers { s with crown := { s.crown with eid := e.toNat } } [1, 0, 0, e, 0])) ∧
       (∀ e : Byte, (e = 0 ∨ e = 0xFF) → Completes (.setEndpointId e) s (answers s [1, 2])) ∧
       Completes .getEndpointId s (answers s [2, 0, BitVec.ofNat 8 s.crown.eid, 0, 0]) ∧
       (∀ ty : Byte, (ty = 0xFF ∨ ty = 0 ∨ ty = 5 ∨ ty = 0x7F) → Completes (.getMctpVersionSupport ty) s (fun s' =>
         ∃ v : List Byte, v.length = 4 ∧ answers { s with freeCtr := s.freeCtr + 1 } ([4, 0, 1] ++ v) s')) ∧
       (∀ ty : Byte, ty ≠ 0xFF → ty ≠ 0 → ty ≠ 5 → ty ≠ 0x7F → Completes (.getMctpVersionSupport ty) s (answers s [4, 0x80])) ∧
       Completes .getMessageTypeSupport s (answers s [5, 0, 2, 5, 0x7F])) ∧
     (s.mctpUp = false → (∀ e, Completes (.setEndpointId e) s (fun s' => s' = s)) ∧ Completes .getEndpointId s (fun s' => s' = s) ∧
       Completes .getMessageTypeSupport s (fun s' => s' = s) ∧ ∀ ty, Completes (.getMctpVersionSupport ty) s (fun s' => s' = s)))

/-! ## Rules stated whole -/

/-- R296: levelling a counter sets C to S. It performs no signal and records no last signaller, releases no waiter and
raises no error; every other counter is as before. -/
def Obligations.LevellingSetsConsumed : Prop :=
  ∀ (s : State) (k : Nat), (s.level k).ctr k = { s.ctr k with c := (s.ctr k).s } ∧
    (∀ j, j ≠ k → (s.level k).ctr j = s.ctr j) ∧ s.level k = { s with counters := (s.level k).counters }

/-- R383: a tile-row or RVE block reset in LOADED or STOPPED discards the job, and the device enters IDLE; a link or
port block reset keeps the job and the run state. -/
def Obligations.BlockResetDiscardsJob : Prop :=
  ∀ (s : State) (c : IcpCmd) (b : Byte) (n : W16), s.Serves (.blockReset c b n) c → n.toNat < blockCount b.toNat →
    (b ≠ 3 ∨ n.toNat ≠ c.via) →
    let h := s.heard c.via
    h.blockQuiet b.toNat n.toNat = true → (h.run = .loaded ∨ h.run = .stopped) →
    Completes (.blockReset c b n) s (fun e =>
      ((b = 0 ∨ b = 1) → e.job = none ∧ e.run = .idle) ∧ ((b = 2 ∨ b = 3) → e.job = h.job ∧ e.run = h.run))
end

