-- ==== Sys2Proof/Laws/Fields.lean ====
section
/-! SUPPORT. The fields of an instruction word (Tables 3.1 and 3.2) as parts of the 64-bit word. -/

set_option Elab.async false

namespace Sys2Proof.Machine

/-- A field of slot A is a part of the word. -/
theorem bits_slotA (w : W64) (hi lo : Nat) (h : hi < 32) (hl : lo ≤ hi) :
    bits (slotA w) hi lo = (w.extractLsb' lo (hi - lo + 1)).toNat := by
  simp only [slotA, wbits, bits, BitVec.extractLsb'_toNat, Nat.shiftRight_zero]
  apply Nat.eq_of_testBit_eq
  intro i
  simp only [Nat.testBit_mod_two_pow, Nat.testBit_shiftRight]
  by_cases hi2 : i < hi - lo + 1
  · have : lo + i < 32 := by omega
    simp [hi2, this]
  · simp [hi2]
theorem fRd_slotA (w : W64) : fRd (slotA w) = (w.extractLsb' 21 5).toNat := bits_slotA w 25 21 (by omega) (by omega)
theorem fRa_slotA (w : W64) : fRa (slotA w) = (w.extractLsb' 16 5).toNat := bits_slotA w 20 16 (by omega) (by omega)
theorem fRb_slotA (w : W64) : fRb (slotA w) = (w.extractLsb' 11 5).toNat := bits_slotA w 15 11 (by omega) (by omega)
theorem fFn_slotA (w : W64) : fFn (slotA w) = (w.extractLsb' 0 11).toNat := bits_slotA w 10 0 (by omega) (by omega)
theorem fImm_slotA (w : W64) : fImm (slotA w) = (w.extractLsb' 0 16).toNat := bits_slotA w 15 0 (by omega) (by omega)
theorem fQ_slotA (w : W64) : fQ (slotA w) = (w.extractLsb' 16 2).toNat := bits_slotA w 17 16 (by omega) (by omega)

/-- A field of 16 bits read as a signed number. -/
theorem signed_eq_toInt (n : Nat) (v : BitVec n) : (signed n v.toNat) = v.toInt := by
  simp only [signed, BitVec.toInt_eq_toNat_cond, Nat.mod_eq_of_lt v.isLt]

theorem signed_mod (n v : Nat) : signed n (v % 2 ^ n) = signed n v := by simp [signed]

theorem immW_slotA (w : W64) : immW (slotA w) = (w.extractLsb' 0 16).signExtend 64 := by
  have h : (slotA w) % 2 ^ 16 = (w.extractLsb' 0 16).toNat := by
    rw [← fImm_slotA]; simp [fImm, bits]
  rw [immW, immS, ← signed_mod, h, signed_eq_toInt, BitVec.signExtend]

theorem immZ_slotA (w : W64) : immZ (slotA w) = (w.extractLsb' 0 16).setWidth 64 := by
  rw [immZ, fImm_slotA, BitVec.ofNat_toNat]


/-- A field of slot B is a part of the word. -/
theorem bits_slotB (w : W64) (hi lo : Nat) (h : hi < 32) (hl : lo ≤ hi) :
    bits (slotB w) hi lo = (w.extractLsb' (32 + lo) (hi - lo + 1)).toNat := by
  simp only [slotB, wbits, bits, BitVec.extractLsb'_toNat]
  apply Nat.eq_of_testBit_eq
  intro i
  simp only [Nat.testBit_mod_two_pow, Nat.testBit_shiftRight]
  by_cases hi2 : i < hi - lo + 1
  · have : lo + i < 32 := by omega
    simp [hi2, this, Nat.add_assoc]
  · simp [hi2]
theorem fRd_slotB (w : W64) : fRd (slotB w) = (w.extractLsb' 53 5).toNat := bits_slotB w 25 21 (by omega) (by omega)
theorem fRa_slotB (w : W64) : fRa (slotB w) = (w.extractLsb' 48 5).toNat := bits_slotB w 20 16 (by omega) (by omega)
theorem fRb_slotB (w : W64) : fRb (slotB w) = (w.extractLsb' 43 5).toNat := bits_slotB w 15 11 (by omega) (by omega)
theorem fFnLo_slotB (w : W64) : fFnLo (slotB w) = (w.extractLsb' 32 8).toNat := bits_slotB w 7 0 (by omega) (by omega)
theorem fTy_slotB (w : W64) : fTy (slotB w) = (w.extractLsb' 40 3).toNat := bits_slotB w 10 8 (by omega) (by omega)
theorem fSz_slotB (w : W64) : fSz (slotB w) = (w.extractLsb' 45 3).toNat := bits_slotB w 15 13 (by omega) (by omega)

end Sys2Proof.Machine
end

