-- ==== Sys2Proof/Laws/Sparse.lean ====
section
/-! SUPPORT. What the operations on sparse data do: what a key reads as after each, and that each keeps the canonical
form. -/

set_option Elab.async false

namespace Sys2Proof

variable {α : Type} {d : α} {m : SMap α} {j k : Nat} {v : α}

/-! ## Reads after writes -/

@[simp] theorem SMap.read_nil : SMap.read d ([] : SMap α) k = d := rfl

theorem SMap.read_put : (SMap.put k v m).read d j = if k = j then v else m.read d j := by
  induction m with
  | nil => simp [put, read]
  | cons e m ih => grind [put, read]

theorem SMap.read_erase : (SMap.erase k m).read d j = if k = j then d else m.read d j := by
  induction m with
  | nil => simp [erase, read]
  | cons e m ih => grind [erase, read]

theorem SMap.read_keep {p : Nat → Bool} : (m.keep p).read d j = if p j then m.read d j else d := by
  induction m with
  | nil => simp [keep, read]
  | cons e m ih => grind [keep, read]

theorem SMap.sortedFrom_mono {lo lo' : Nat} (h : lo' ≤ lo) (hm : m.sortedFrom lo = true) : m.sortedFrom lo' = true := by
  cases m <;> grind [sortedFrom]

theorem SMap.sortedFrom_put {lo : Nat} (h : lo ≤ k) (hm : m.sortedFrom lo = true) :
    (m.put k v).sortedFrom lo = true := by
  induction m generalizing lo with
  | nil => simp [put, sortedFrom, h]
  | cons e m ih => grind [put, sortedFrom]

theorem SMap.sortedFrom_erase {lo : Nat} (hm : m.sortedFrom lo = true) : (m.erase k).sortedFrom lo = true := by
  induction m generalizing lo with
  | nil => simp [erase, sortedFrom]
  | cons e m ih =>
    obtain ⟨i, w⟩ := e
    simp only [sortedFrom, Bool.and_eq_true, decide_eq_true_eq] at hm
    simp only [erase]
    split
    · exact sortedFrom_mono (by omega) (ih hm.2)
    · simp [sortedFrom, hm.1, ih hm.2]

theorem SMap.sortedFrom_keep {p : Nat → Bool} {lo : Nat} (hm : m.sortedFrom lo = true) :
    (m.keep p).sortedFrom lo = true := by
  induction m generalizing lo with
  | nil => simp [keep, sortedFrom]
  | cons e m ih =>
    obtain ⟨i, w⟩ := e
    simp only [sortedFrom, Bool.and_eq_true, decide_eq_true_eq] at hm
    simp only [keep]
    split
    · simp [sortedFrom, hm.1, ih hm.2]
    · exact sortedFrom_mono (by omega) (ih hm.2)

theorem SMap.all_put {p : Nat × α → Bool} (h : p (k, v) = true) (hm : m.all p = true) : (m.put k v).all p = true := by
  induction m with
  | nil => simp [put, h]
  | cons e m ih => grind [put]

theorem SMap.all_erase {p : Nat × α → Bool} (hm : m.all p = true) : (m.erase k).all p = true := by
  induction m with
  | nil => simp [erase]
  | cons e m ih => grind [erase]

variable [DecidableEq α]

theorem SMap.read_write : (m.write d k v).read d j = if k = j then v else m.read d j := by
  unfold write
  split <;> simp [read_put, read_erase, *]

@[simp] theorem SMap.read_write_self : (m.write d k v).read d k = v := by simp [read_write]

theorem SMap.read_write_ne (h : k ≠ j) : (m.write d k v).read d j = m.read d j := by simp [read_write, h]

/-- A key written reads as written whatever an unlisted key is taken to read as, while another key reads as before. -/
theorem SMap.read_write_other {d' : α} (h : k ≠ j) : (m.write d k v).read d' j = m.read d' j := by
  unfold write
  split <;> simp [read_put, read_erase, h]

/-! ## Canonical form -/

@[simp] theorem SMap.canon_nil : SMap.canon d ([] : SMap α) = true := rfl

/-- A write keeps the canonical form. -/
theorem SMap.canon_write (hm : m.canon d = true) : (m.write d k v).canon d = true := by
  simp only [canon, Bool.and_eq_true] at hm ⊢
  unfold write
  split
  · exact ⟨sortedFrom_erase hm.1, all_erase hm.2⟩
  · exact ⟨sortedFrom_put (Nat.zero_le k) hm.1, all_put (by simpa) hm.2⟩

theorem SMap.canon_writeList {l : List α} (hm : m.canon d = true) : (SMap.writeList d k l m).canon d = true := by
  induction l generalizing k m with
  | nil => exact hm
  | cons a l ih => exact ih (canon_write hm)

theorem SMap.canon_keep {p : Nat → Bool} (hm : m.canon d = true) : (m.keep p).canon d = true := by
  simp only [canon, Bool.and_eq_true] at hm ⊢
  refine ⟨sortedFrom_keep hm.1, ?_⟩
  have h2 := hm.2
  clear hm
  induction m with
  | nil => rfl
  | cons e m ih => grind [keep]

/-- Writes of a list of places in turn keep the canonical form. -/
theorem SMap.canon_foldl_write {β : Type} {l : List β} {f : β → Nat} {g : β → α} (hm : m.canon d = true) :
    (l.foldl (fun m b => m.write d (f b) (g b)) m).canon d = true := by
  induction l generalizing m with
  | nil => exact hm
  | cons b l ih => exact ih (canon_write hm)

/-! ## Small helpers -/

namespace Machine

@[simp] theorem length_toBytes (v n : Nat) : (toBytes v n).length = n := by
  induction n generalizing v with
  | zero => rfl
  | succ n ih => simp [toBytes, ih]

/-- The little-endian number of the little-endian bytes of `v`. -/
theorem ofBytes_toBytes (v n : Nat) : ofBytes (toBytes v n) = v % 256 ^ n := by
  induction n generalizing v with
  | zero => simp [toBytes, ofBytes, Nat.mod_one]
  | succ n ih =>
    simp only [toBytes, ofBytes, ih, BitVec.toNat_ofNat]
    have h : 256 ^ (n + 1) = 256 * 256 ^ n := by omega
    rw [h]
    exact Nat.mod_mul.symm

theorem length_upFrom (a n : Nat) : (upFrom a n).length = n := by
  induction n generalizing a with
  | zero => rfl
  | succ n ih => simp [upFrom, ih]

theorem mem_upFrom {a n x : Nat} : x ∈ upFrom a n ↔ a ≤ x ∧ x < a + n := by
  induction n generalizing a with
  | zero => simp [upFrom]
  | succ n ih => simp only [upFrom, List.mem_cons, ih]; omega

end Machine
end Sys2Proof
end

