-- ==== Sys2Proof/Laws/State.lean ====
section
/-! SUPPORT. One lemma per field of State per base update: the field is unchanged, or the unit written reads back. -/

set_option Elab.async false

namespace Sys2Proof.Machine

variable (s : State)

/-! ## setFld -/

@[simp] theorem State.setFld_pending (f : RegField) (i j v : Nat) : (s.setFld f i j v).pending = s.pending := rfl
@[simp] theorem State.setFld_edge (f : RegField) (i j v : Nat) : (s.setFld f i j v).edge = s.edge := rfl
@[simp] theorem State.setFld_staged (f : RegField) (i j v : Nat) : (s.setFld f i j v).staged = s.staged := rfl
@[simp] theorem State.setFld_commit (f : RegField) (i j v : Nat) : (s.setFld f i j v).commit = s.commit := rfl
@[simp] theorem State.setFld_run (f : RegField) (i j v : Nat) : (s.setFld f i j v).run = s.run := rfl
@[simp] theorem State.setFld_esc (f : RegField) (i j v : Nat) : (s.setFld f i j v).esc = s.esc := rfl
@[simp] theorem State.setFld_job (f : RegField) (i j v : Nat) : (s.setFld f i j v).job = s.job := rfl
@[simp] theorem State.setFld_bt (f : RegField) (i j v : Nat) : (s.setFld f i j v).bt = s.bt := rfl
@[simp] theorem State.setFld_unclean (f : RegField) (i j v : Nat) : (s.setFld f i j v).unclean = s.unclean := rfl
@[simp] theorem State.setFld_uncleanNext (f : RegField) (i j v : Nat) : (s.setFld f i j v).uncleanNext = s.uncleanNext := rfl
@[simp] theorem State.setFld_counters (f : RegField) (i j v : Nat) : (s.setFld f i j v).counters = s.counters := rfl
@[simp] theorem State.setFld_waiters (f : RegField) (i j v : Nat) : (s.setFld f i j v).waiters = s.waiters := rfl
@[simp] theorem State.setFld_shadows (f : RegField) (i j v : Nat) : (s.setFld f i j v).shadows = s.shadows := rfl
@[simp] theorem State.setFld_tiles (f : RegField) (i j v : Nat) : (s.setFld f i j v).tiles = s.tiles := rfl
@[simp] theorem State.setFld_lanes (f : RegField) (i j v : Nat) : (s.setFld f i j v).lanes = s.lanes := rfl
@[simp] theorem State.setFld_xout (f : RegField) (i j v : Nat) : (s.setFld f i j v).xout = s.xout := rfl
@[simp] theorem State.setFld_net (f : RegField) (i j v : Nat) : (s.setFld f i j v).net = s.net := rfl
@[simp] theorem State.setFld_credits (f : RegField) (i j v : Nat) : (s.setFld f i j v).credits = s.credits := rfl
@[simp] theorem State.setFld_slotUse (f : RegField) (i j v : Nat) : (s.setFld f i j v).slotUse = s.slotUse := rfl
@[simp] theorem State.setFld_consOps (f : RegField) (i j v : Nat) : (s.setFld f i j v).consOps = s.consOps := rfl
@[simp] theorem State.setFld_sigOps (f : RegField) (i j v : Nat) : (s.setFld f i j v).sigOps = s.sigOps := rfl
@[simp] theorem State.setFld_refFrom (f : RegField) (i j v : Nat) : (s.setFld f i j v).refFrom = s.refFrom := rfl
@[simp] theorem State.setFld_clearEnd (f : RegField) (i j v : Nat) : (s.setFld f i j v).clearEnd = s.clearEnd := rfl
@[simp] theorem State.setFld_wires (f : RegField) (i j v : Nat) : (s.setFld f i j v).wires = s.wires := rfl
@[simp] theorem State.setFld_roots (f : RegField) (i j v : Nat) : (s.setFld f i j v).roots = s.roots := rfl
@[simp] theorem State.setFld_dram (f : RegField) (i j v : Nat) : (s.setFld f i j v).dram = s.dram := rfl
@[simp] theorem State.setFld_dramBad (f : RegField) (i j v : Nat) : (s.setFld f i j v).dramBad = s.dramBad := rfl
@[simp] theorem State.setFld_permute (f : RegField) (i j v : Nat) : (s.setFld f i j v).permute = s.permute := rfl
@[simp] theorem State.setFld_armBeat (f : RegField) (i j v : Nat) : (s.setFld f i j v).armBeat = s.armBeat := rfl
@[simp] theorem State.setFld_stopBeat (f : RegField) (i j v : Nat) : (s.setFld f i j v).stopBeat = s.stopBeat := rfl
@[simp] theorem State.setFld_refTick (f : RegField) (i j v : Nat) : (s.setFld f i j v).refTick = s.refTick := rfl
@[simp] theorem State.setFld_links (f : RegField) (i j v : Nat) : (s.setFld f i j v).links = s.links := rfl
@[simp] theorem State.setFld_errs (f : RegField) (i j v : Nat) : (s.setFld f i j v).errs = s.errs := rfl
@[simp] theorem State.setFld_ports (f : RegField) (i j v : Nat) : (s.setFld f i j v).ports = s.ports := rfl
@[simp] theorem State.setFld_qps (f : RegField) (i j v : Nat) : (s.setFld f i j v).qps = s.qps := rfl
@[simp] theorem State.setFld_sent (f : RegField) (i j v : Nat) : (s.setFld f i j v).sent = s.sent := rfl
@[simp] theorem State.setFld_crown (f : RegField) (i j v : Nat) : (s.setFld f i j v).crown = s.crown := rfl
@[simp] theorem State.setFld_flash (f : RegField) (i j v : Nat) : (s.setFld f i j v).flash = s.flash := rfl
@[simp] theorem State.setFld_seqr (f : RegField) (i j v : Nat) : (s.setFld f i j v).seqr = s.seqr := rfl
@[simp] theorem State.setFld_reg (f : RegField) (i j v : Nat) : (s.setFld f i j v).reg = s.reg := rfl
@[simp] theorem State.setFld_tap (f : RegField) (i j v : Nat) : (s.setFld f i j v).tap = s.tap := rfl
@[simp] theorem State.setFld_freeCtr (f : RegField) (i j v : Nat) : (s.setFld f i j v).freeCtr = s.freeCtr := rfl
@[simp] theorem State.setFld_tile (f : RegField) (i j v : Nat) (u : Nat) : (s.setFld f i j v).tile u = s.tile u := rfl
@[simp] theorem State.setFld_root (f : RegField) (i j v : Nat) (u : Nat) : (s.setFld f i j v).root u = s.root u := rfl
@[simp] theorem State.setFld_rve (f : RegField) (i j v : Nat) (u : Nat) : (s.setFld f i j v).rve u = s.rve u := rfl
@[simp] theorem State.setFld_link (f : RegField) (i j v : Nat) (u : Nat) : (s.setFld f i j v).link u = s.link u := rfl
@[simp] theorem State.setFld_ctr (f : RegField) (i j v : Nat) (u : Nat) : (s.setFld f i j v).ctr u = s.ctr u := rfl
@[simp] theorem State.setFld_value (f : RegField) (i j v : Nat) (u : Nat) : (s.setFld f i j v).value u = s.value u := rfl
@[simp] theorem State.setFld_port (f : RegField) (i j v : Nat) (u : Nat) : (s.setFld f i j v).port u = s.port u := rfl
@[simp] theorem State.setFld_qp (f : RegField) (i j v : Nat) (u : Nat) : (s.setFld f i j v).qp u = s.qp u := rfl
@[simp] theorem State.setFld_rc (f : RegField) (i j v : Nat) : (s.setFld f i j v).rc = s.rc := rfl
@[simp] theorem State.setFld_atRc (f : RegField) (i j v : Nat) : (s.setFld f i j v).atRc = s.atRc := rfl
@[simp] theorem State.setFld_cycleNow (f : RegField) (i j v : Nat) : (s.setFld f i j v).cycleNow = s.cycleNow := rfl
@[simp] theorem State.setFld_errCycle (f : RegField) (i j v : Nat) : (s.setFld f i j v).errCycle = s.errCycle := rfl
@[simp] theorem State.setFld_sigCycle (f : RegField) (i j v : Nat) : (s.setFld f i j v).sigCycle = s.sigCycle := rfl
@[simp] theorem State.setFld_inRun (f : RegField) (i j v : Nat) : (s.setFld f i j v).inRun = s.inRun := rfl
@[simp] theorem State.setFld_idleRun (f : RegField) (i j v : Nat) : (s.setFld f i j v).idleRun = s.idleRun := rfl
@[simp] theorem State.setFld_ticking (f : RegField) (i j v : Nat) : (s.setFld f i j v).ticking = s.ticking := rfl

/-! ## putFld -/

@[simp] theorem State.putFld_pending (f : RegField) (i j v : Nat) : (s.putFld f i j v).pending = s.pending := rfl
@[simp] theorem State.putFld_edge (f : RegField) (i j v : Nat) : (s.putFld f i j v).edge = s.edge := rfl
@[simp] theorem State.putFld_staged (f : RegField) (i j v : Nat) : (s.putFld f i j v).staged = s.staged := rfl
@[simp] theorem State.putFld_commit (f : RegField) (i j v : Nat) : (s.putFld f i j v).commit = s.commit := rfl
@[simp] theorem State.putFld_run (f : RegField) (i j v : Nat) : (s.putFld f i j v).run = s.run := rfl
@[simp] theorem State.putFld_esc (f : RegField) (i j v : Nat) : (s.putFld f i j v).esc = s.esc := rfl
@[simp] theorem State.putFld_job (f : RegField) (i j v : Nat) : (s.putFld f i j v).job = s.job := rfl
@[simp] theorem State.putFld_bt (f : RegField) (i j v : Nat) : (s.putFld f i j v).bt = s.bt := rfl
@[simp] theorem State.putFld_unclean (f : RegField) (i j v : Nat) : (s.putFld f i j v).unclean = s.unclean := rfl
@[simp] theorem State.putFld_uncleanNext (f : RegField) (i j v : Nat) : (s.putFld f i j v).uncleanNext = s.uncleanNext := rfl
@[simp] theorem State.putFld_counters (f : RegField) (i j v : Nat) : (s.putFld f i j v).counters = s.counters := rfl
@[simp] theorem State.putFld_waiters (f : RegField) (i j v : Nat) : (s.putFld f i j v).waiters = s.waiters := rfl
@[simp] theorem State.putFld_shadows (f : RegField) (i j v : Nat) : (s.putFld f i j v).shadows = s.shadows := rfl
@[simp] theorem State.putFld_tiles (f : RegField) (i j v : Nat) : (s.putFld f i j v).tiles = s.tiles := rfl
@[simp] theorem State.putFld_lanes (f : RegField) (i j v : Nat) : (s.putFld f i j v).lanes = s.lanes := rfl
@[simp] theorem State.putFld_xout (f : RegField) (i j v : Nat) : (s.putFld f i j v).xout = s.xout := rfl
@[simp] theorem State.putFld_net (f : RegField) (i j v : Nat) : (s.putFld f i j v).net = s.net := rfl
@[simp] theorem State.putFld_credits (f : RegField) (i j v : Nat) : (s.putFld f i j v).credits = s.credits := rfl
@[simp] theorem State.putFld_slotUse (f : RegField) (i j v : Nat) : (s.putFld f i j v).slotUse = s.slotUse := rfl
@[simp] theorem State.putFld_consOps (f : RegField) (i j v : Nat) : (s.putFld f i j v).consOps = s.consOps := rfl
@[simp] theorem State.putFld_sigOps (f : RegField) (i j v : Nat) : (s.putFld f i j v).sigOps = s.sigOps := rfl
@[simp] theorem State.putFld_refFrom (f : RegField) (i j v : Nat) : (s.putFld f i j v).refFrom = s.refFrom := rfl
@[simp] theorem State.putFld_clearEnd (f : RegField) (i j v : Nat) : (s.putFld f i j v).clearEnd = s.clearEnd := rfl
@[simp] theorem State.putFld_wires (f : RegField) (i j v : Nat) : (s.putFld f i j v).wires = s.wires := rfl
@[simp] theorem State.putFld_w1cSets (f : RegField) (i j v : Nat) : (s.putFld f i j v).w1cSets = s.w1cSets := rfl
@[simp] theorem State.putFld_roots (f : RegField) (i j v : Nat) : (s.putFld f i j v).roots = s.roots := rfl
@[simp] theorem State.putFld_dram (f : RegField) (i j v : Nat) : (s.putFld f i j v).dram = s.dram := rfl
@[simp] theorem State.putFld_dramBad (f : RegField) (i j v : Nat) : (s.putFld f i j v).dramBad = s.dramBad := rfl
@[simp] theorem State.putFld_permute (f : RegField) (i j v : Nat) : (s.putFld f i j v).permute = s.permute := rfl
@[simp] theorem State.putFld_armBeat (f : RegField) (i j v : Nat) : (s.putFld f i j v).armBeat = s.armBeat := rfl
@[simp] theorem State.putFld_stopBeat (f : RegField) (i j v : Nat) : (s.putFld f i j v).stopBeat = s.stopBeat := rfl
@[simp] theorem State.putFld_refTick (f : RegField) (i j v : Nat) : (s.putFld f i j v).refTick = s.refTick := rfl
@[simp] theorem State.putFld_links (f : RegField) (i j v : Nat) : (s.putFld f i j v).links = s.links := rfl
@[simp] theorem State.putFld_errs (f : RegField) (i j v : Nat) : (s.putFld f i j v).errs = s.errs := rfl
@[simp] theorem State.putFld_ports (f : RegField) (i j v : Nat) : (s.putFld f i j v).ports = s.ports := rfl
@[simp] theorem State.putFld_qps (f : RegField) (i j v : Nat) : (s.putFld f i j v).qps = s.qps := rfl
@[simp] theorem State.putFld_sent (f : RegField) (i j v : Nat) : (s.putFld f i j v).sent = s.sent := rfl
@[simp] theorem State.putFld_crown (f : RegField) (i j v : Nat) : (s.putFld f i j v).crown = s.crown := rfl
@[simp] theorem State.putFld_flash (f : RegField) (i j v : Nat) : (s.putFld f i j v).flash = s.flash := rfl
@[simp] theorem State.putFld_seqr (f : RegField) (i j v : Nat) : (s.putFld f i j v).seqr = s.seqr := rfl
@[simp] theorem State.putFld_reg (f : RegField) (i j v : Nat) : (s.putFld f i j v).reg = s.reg := rfl
@[simp] theorem State.putFld_tap (f : RegField) (i j v : Nat) : (s.putFld f i j v).tap = s.tap := rfl
@[simp] theorem State.putFld_freeCtr (f : RegField) (i j v : Nat) : (s.putFld f i j v).freeCtr = s.freeCtr := rfl
@[simp] theorem State.putFld_tile (f : RegField) (i j v : Nat) (u : Nat) : (s.putFld f i j v).tile u = s.tile u := rfl
@[simp] theorem State.putFld_root (f : RegField) (i j v : Nat) (u : Nat) : (s.putFld f i j v).root u = s.root u := rfl
@[simp] theorem State.putFld_rve (f : RegField) (i j v : Nat) (u : Nat) : (s.putFld f i j v).rve u = s.rve u := rfl
@[simp] theorem State.putFld_link (f : RegField) (i j v : Nat) (u : Nat) : (s.putFld f i j v).link u = s.link u := rfl
@[simp] theorem State.putFld_ctr (f : RegField) (i j v : Nat) (u : Nat) : (s.putFld f i j v).ctr u = s.ctr u := rfl
@[simp] theorem State.putFld_value (f : RegField) (i j v : Nat) (u : Nat) : (s.putFld f i j v).value u = s.value u := rfl
@[simp] theorem State.putFld_port (f : RegField) (i j v : Nat) (u : Nat) : (s.putFld f i j v).port u = s.port u := rfl
@[simp] theorem State.putFld_qp (f : RegField) (i j v : Nat) (u : Nat) : (s.putFld f i j v).qp u = s.qp u := rfl
@[simp] theorem State.putFld_rc (f : RegField) (i j v : Nat) : (s.putFld f i j v).rc = s.rc := rfl
@[simp] theorem State.putFld_atRc (f : RegField) (i j v : Nat) : (s.putFld f i j v).atRc = s.atRc := rfl
@[simp] theorem State.putFld_cycleNow (f : RegField) (i j v : Nat) : (s.putFld f i j v).cycleNow = s.cycleNow := rfl
@[simp] theorem State.putFld_errCycle (f : RegField) (i j v : Nat) : (s.putFld f i j v).errCycle = s.errCycle := rfl
@[simp] theorem State.putFld_sigCycle (f : RegField) (i j v : Nat) : (s.putFld f i j v).sigCycle = s.sigCycle := rfl
@[simp] theorem State.putFld_inRun (f : RegField) (i j v : Nat) : (s.putFld f i j v).inRun = s.inRun := rfl
@[simp] theorem State.putFld_idleRun (f : RegField) (i j v : Nat) : (s.putFld f i j v).idleRun = s.idleRun := rfl
@[simp] theorem State.putFld_ticking (f : RegField) (i j v : Nat) : (s.putFld f i j v).ticking = s.ticking := rfl

/-! ## addFld -/

@[simp] theorem State.addFld_pending (f : RegField) (i j n : Nat) : (s.addFld f i j n).pending = s.pending := rfl
@[simp] theorem State.addFld_edge (f : RegField) (i j n : Nat) : (s.addFld f i j n).edge = s.edge := rfl
@[simp] theorem State.addFld_staged (f : RegField) (i j n : Nat) : (s.addFld f i j n).staged = s.staged := rfl
@[simp] theorem State.addFld_commit (f : RegField) (i j n : Nat) : (s.addFld f i j n).commit = s.commit := rfl
@[simp] theorem State.addFld_run (f : RegField) (i j n : Nat) : (s.addFld f i j n).run = s.run := rfl
@[simp] theorem State.addFld_esc (f : RegField) (i j n : Nat) : (s.addFld f i j n).esc = s.esc := rfl
@[simp] theorem State.addFld_job (f : RegField) (i j n : Nat) : (s.addFld f i j n).job = s.job := rfl
@[simp] theorem State.addFld_bt (f : RegField) (i j n : Nat) : (s.addFld f i j n).bt = s.bt := rfl
@[simp] theorem State.addFld_unclean (f : RegField) (i j n : Nat) : (s.addFld f i j n).unclean = s.unclean := rfl
@[simp] theorem State.addFld_uncleanNext (f : RegField) (i j n : Nat) : (s.addFld f i j n).uncleanNext = s.uncleanNext := rfl
@[simp] theorem State.addFld_counters (f : RegField) (i j n : Nat) : (s.addFld f i j n).counters = s.counters := rfl
@[simp] theorem State.addFld_waiters (f : RegField) (i j n : Nat) : (s.addFld f i j n).waiters = s.waiters := rfl
@[simp] theorem State.addFld_shadows (f : RegField) (i j n : Nat) : (s.addFld f i j n).shadows = s.shadows := rfl
@[simp] theorem State.addFld_tiles (f : RegField) (i j n : Nat) : (s.addFld f i j n).tiles = s.tiles := rfl
@[simp] theorem State.addFld_lanes (f : RegField) (i j n : Nat) : (s.addFld f i j n).lanes = s.lanes := rfl
@[simp] theorem State.addFld_xout (f : RegField) (i j n : Nat) : (s.addFld f i j n).xout = s.xout := rfl
@[simp] theorem State.addFld_net (f : RegField) (i j n : Nat) : (s.addFld f i j n).net = s.net := rfl
@[simp] theorem State.addFld_credits (f : RegField) (i j n : Nat) : (s.addFld f i j n).credits = s.credits := rfl
@[simp] theorem State.addFld_slotUse (f : RegField) (i j n : Nat) : (s.addFld f i j n).slotUse = s.slotUse := rfl
@[simp] theorem State.addFld_consOps (f : RegField) (i j n : Nat) : (s.addFld f i j n).consOps = s.consOps := rfl
@[simp] theorem State.addFld_sigOps (f : RegField) (i j n : Nat) : (s.addFld f i j n).sigOps = s.sigOps := rfl
@[simp] theorem State.addFld_refFrom (f : RegField) (i j n : Nat) : (s.addFld f i j n).refFrom = s.refFrom := rfl
@[simp] theorem State.addFld_clearEnd (f : RegField) (i j n : Nat) : (s.addFld f i j n).clearEnd = s.clearEnd := rfl
@[simp] theorem State.addFld_wires (f : RegField) (i j n : Nat) : (s.addFld f i j n).wires = s.wires := rfl
@[simp] theorem State.addFld_w1cSets (f : RegField) (i j n : Nat) : (s.addFld f i j n).w1cSets = s.w1cSets := rfl
@[simp] theorem State.addFld_roots (f : RegField) (i j n : Nat) : (s.addFld f i j n).roots = s.roots := rfl
@[simp] theorem State.addFld_dram (f : RegField) (i j n : Nat) : (s.addFld f i j n).dram = s.dram := rfl
@[simp] theorem State.addFld_dramBad (f : RegField) (i j n : Nat) : (s.addFld f i j n).dramBad = s.dramBad := rfl
@[simp] theorem State.addFld_permute (f : RegField) (i j n : Nat) : (s.addFld f i j n).permute = s.permute := rfl
@[simp] theorem State.addFld_armBeat (f : RegField) (i j n : Nat) : (s.addFld f i j n).armBeat = s.armBeat := rfl
@[simp] theorem State.addFld_stopBeat (f : RegField) (i j n : Nat) : (s.addFld f i j n).stopBeat = s.stopBeat := rfl
@[simp] theorem State.addFld_refTick (f : RegField) (i j n : Nat) : (s.addFld f i j n).refTick = s.refTick := rfl
@[simp] theorem State.addFld_links (f : RegField) (i j n : Nat) : (s.addFld f i j n).links = s.links := rfl
@[simp] theorem State.addFld_errs (f : RegField) (i j n : Nat) : (s.addFld f i j n).errs = s.errs := rfl
@[simp] theorem State.addFld_ports (f : RegField) (i j n : Nat) : (s.addFld f i j n).ports = s.ports := rfl
@[simp] theorem State.addFld_qps (f : RegField) (i j n : Nat) : (s.addFld f i j n).qps = s.qps := rfl
@[simp] theorem State.addFld_sent (f : RegField) (i j n : Nat) : (s.addFld f i j n).sent = s.sent := rfl
@[simp] theorem State.addFld_crown (f : RegField) (i j n : Nat) : (s.addFld f i j n).crown = s.crown := rfl
@[simp] theorem State.addFld_flash (f : RegField) (i j n : Nat) : (s.addFld f i j n).flash = s.flash := rfl
@[simp] theorem State.addFld_seqr (f : RegField) (i j n : Nat) : (s.addFld f i j n).seqr = s.seqr := rfl
@[simp] theorem State.addFld_reg (f : RegField) (i j n : Nat) : (s.addFld f i j n).reg = s.reg := rfl
@[simp] theorem State.addFld_tap (f : RegField) (i j n : Nat) : (s.addFld f i j n).tap = s.tap := rfl
@[simp] theorem State.addFld_freeCtr (f : RegField) (i j n : Nat) : (s.addFld f i j n).freeCtr = s.freeCtr := rfl
@[simp] theorem State.addFld_tile (f : RegField) (i j n : Nat) (u : Nat) : (s.addFld f i j n).tile u = s.tile u := rfl
@[simp] theorem State.addFld_root (f : RegField) (i j n : Nat) (u : Nat) : (s.addFld f i j n).root u = s.root u := rfl
@[simp] theorem State.addFld_rve (f : RegField) (i j n : Nat) (u : Nat) : (s.addFld f i j n).rve u = s.rve u := rfl
@[simp] theorem State.addFld_link (f : RegField) (i j n : Nat) (u : Nat) : (s.addFld f i j n).link u = s.link u := rfl
@[simp] theorem State.addFld_ctr (f : RegField) (i j n : Nat) (u : Nat) : (s.addFld f i j n).ctr u = s.ctr u := rfl
@[simp] theorem State.addFld_value (f : RegField) (i j n : Nat) (u : Nat) : (s.addFld f i j n).value u = s.value u := rfl
@[simp] theorem State.addFld_port (f : RegField) (i j n : Nat) (u : Nat) : (s.addFld f i j n).port u = s.port u := rfl
@[simp] theorem State.addFld_qp (f : RegField) (i j n : Nat) (u : Nat) : (s.addFld f i j n).qp u = s.qp u := rfl
@[simp] theorem State.addFld_rc (f : RegField) (i j n : Nat) : (s.addFld f i j n).rc = s.rc := rfl
@[simp] theorem State.addFld_atRc (f : RegField) (i j n : Nat) : (s.addFld f i j n).atRc = s.atRc := rfl
@[simp] theorem State.addFld_cycleNow (f : RegField) (i j n : Nat) : (s.addFld f i j n).cycleNow = s.cycleNow := rfl
@[simp] theorem State.addFld_errCycle (f : RegField) (i j n : Nat) : (s.addFld f i j n).errCycle = s.errCycle := rfl
@[simp] theorem State.addFld_sigCycle (f : RegField) (i j n : Nat) : (s.addFld f i j n).sigCycle = s.sigCycle := rfl
@[simp] theorem State.addFld_inRun (f : RegField) (i j n : Nat) : (s.addFld f i j n).inRun = s.inRun := rfl
@[simp] theorem State.addFld_idleRun (f : RegField) (i j n : Nat) : (s.addFld f i j n).idleRun = s.idleRun := rfl
@[simp] theorem State.addFld_ticking (f : RegField) (i j n : Nat) : (s.addFld f i j n).ticking = s.ticking := rfl

/-! ## satFld -/

@[simp] theorem State.satFld_pending (f : RegField) (i j n : Nat) : (s.satFld f i j n).pending = s.pending := rfl
@[simp] theorem State.satFld_edge (f : RegField) (i j n : Nat) : (s.satFld f i j n).edge = s.edge := rfl
@[simp] theorem State.satFld_staged (f : RegField) (i j n : Nat) : (s.satFld f i j n).staged = s.staged := rfl
@[simp] theorem State.satFld_commit (f : RegField) (i j n : Nat) : (s.satFld f i j n).commit = s.commit := rfl
@[simp] theorem State.satFld_run (f : RegField) (i j n : Nat) : (s.satFld f i j n).run = s.run := rfl
@[simp] theorem State.satFld_esc (f : RegField) (i j n : Nat) : (s.satFld f i j n).esc = s.esc := rfl
@[simp] theorem State.satFld_job (f : RegField) (i j n : Nat) : (s.satFld f i j n).job = s.job := rfl
@[simp] theorem State.satFld_bt (f : RegField) (i j n : Nat) : (s.satFld f i j n).bt = s.bt := rfl
@[simp] theorem State.satFld_unclean (f : RegField) (i j n : Nat) : (s.satFld f i j n).unclean = s.unclean := rfl
@[simp] theorem State.satFld_uncleanNext (f : RegField) (i j n : Nat) : (s.satFld f i j n).uncleanNext = s.uncleanNext := rfl
@[simp] theorem State.satFld_counters (f : RegField) (i j n : Nat) : (s.satFld f i j n).counters = s.counters := rfl
@[simp] theorem State.satFld_waiters (f : RegField) (i j n : Nat) : (s.satFld f i j n).waiters = s.waiters := rfl
@[simp] theorem State.satFld_shadows (f : RegField) (i j n : Nat) : (s.satFld f i j n).shadows = s.shadows := rfl
@[simp] theorem State.satFld_tiles (f : RegField) (i j n : Nat) : (s.satFld f i j n).tiles = s.tiles := rfl
@[simp] theorem State.satFld_lanes (f : RegField) (i j n : Nat) : (s.satFld f i j n).lanes = s.lanes := rfl
@[simp] theorem State.satFld_xout (f : RegField) (i j n : Nat) : (s.satFld f i j n).xout = s.xout := rfl
@[simp] theorem State.satFld_net (f : RegField) (i j n : Nat) : (s.satFld f i j n).net = s.net := rfl
@[simp] theorem State.satFld_credits (f : RegField) (i j n : Nat) : (s.satFld f i j n).credits = s.credits := rfl
@[simp] theorem State.satFld_slotUse (f : RegField) (i j n : Nat) : (s.satFld f i j n).slotUse = s.slotUse := rfl
@[simp] theorem State.satFld_consOps (f : RegField) (i j n : Nat) : (s.satFld f i j n).consOps = s.consOps := rfl
@[simp] theorem State.satFld_sigOps (f : RegField) (i j n : Nat) : (s.satFld f i j n).sigOps = s.sigOps := rfl
@[simp] theorem State.satFld_refFrom (f : RegField) (i j n : Nat) : (s.satFld f i j n).refFrom = s.refFrom := rfl
@[simp] theorem State.satFld_clearEnd (f : RegField) (i j n : Nat) : (s.satFld f i j n).clearEnd = s.clearEnd := rfl
@[simp] theorem State.satFld_wires (f : RegField) (i j n : Nat) : (s.satFld f i j n).wires = s.wires := rfl
@[simp] theorem State.satFld_w1cSets (f : RegField) (i j n : Nat) : (s.satFld f i j n).w1cSets = s.w1cSets := rfl
@[simp] theorem State.satFld_roots (f : RegField) (i j n : Nat) : (s.satFld f i j n).roots = s.roots := rfl
@[simp] theorem State.satFld_dram (f : RegField) (i j n : Nat) : (s.satFld f i j n).dram = s.dram := rfl
@[simp] theorem State.satFld_dramBad (f : RegField) (i j n : Nat) : (s.satFld f i j n).dramBad = s.dramBad := rfl
@[simp] theorem State.satFld_permute (f : RegField) (i j n : Nat) : (s.satFld f i j n).permute = s.permute := rfl
@[simp] theorem State.satFld_armBeat (f : RegField) (i j n : Nat) : (s.satFld f i j n).armBeat = s.armBeat := rfl
@[simp] theorem State.satFld_stopBeat (f : RegField) (i j n : Nat) : (s.satFld f i j n).stopBeat = s.stopBeat := rfl
@[simp] theorem State.satFld_refTick (f : RegField) (i j n : Nat) : (s.satFld f i j n).refTick = s.refTick := rfl
@[simp] theorem State.satFld_links (f : RegField) (i j n : Nat) : (s.satFld f i j n).links = s.links := rfl
@[simp] theorem State.satFld_errs (f : RegField) (i j n : Nat) : (s.satFld f i j n).errs = s.errs := rfl
@[simp] theorem State.satFld_ports (f : RegField) (i j n : Nat) : (s.satFld f i j n).ports = s.ports := rfl
@[simp] theorem State.satFld_qps (f : RegField) (i j n : Nat) : (s.satFld f i j n).qps = s.qps := rfl
@[simp] theorem State.satFld_sent (f : RegField) (i j n : Nat) : (s.satFld f i j n).sent = s.sent := rfl
@[simp] theorem State.satFld_crown (f : RegField) (i j n : Nat) : (s.satFld f i j n).crown = s.crown := rfl
@[simp] theorem State.satFld_flash (f : RegField) (i j n : Nat) : (s.satFld f i j n).flash = s.flash := rfl
@[simp] theorem State.satFld_seqr (f : RegField) (i j n : Nat) : (s.satFld f i j n).seqr = s.seqr := rfl
@[simp] theorem State.satFld_reg (f : RegField) (i j n : Nat) : (s.satFld f i j n).reg = s.reg := rfl
@[simp] theorem State.satFld_tap (f : RegField) (i j n : Nat) : (s.satFld f i j n).tap = s.tap := rfl
@[simp] theorem State.satFld_freeCtr (f : RegField) (i j n : Nat) : (s.satFld f i j n).freeCtr = s.freeCtr := rfl
@[simp] theorem State.satFld_tile (f : RegField) (i j n : Nat) (u : Nat) : (s.satFld f i j n).tile u = s.tile u := rfl
@[simp] theorem State.satFld_root (f : RegField) (i j n : Nat) (u : Nat) : (s.satFld f i j n).root u = s.root u := rfl
@[simp] theorem State.satFld_rve (f : RegField) (i j n : Nat) (u : Nat) : (s.satFld f i j n).rve u = s.rve u := rfl
@[simp] theorem State.satFld_link (f : RegField) (i j n : Nat) (u : Nat) : (s.satFld f i j n).link u = s.link u := rfl
@[simp] theorem State.satFld_ctr (f : RegField) (i j n : Nat) (u : Nat) : (s.satFld f i j n).ctr u = s.ctr u := rfl
@[simp] theorem State.satFld_value (f : RegField) (i j n : Nat) (u : Nat) : (s.satFld f i j n).value u = s.value u := rfl
@[simp] theorem State.satFld_port (f : RegField) (i j n : Nat) (u : Nat) : (s.satFld f i j n).port u = s.port u := rfl
@[simp] theorem State.satFld_qp (f : RegField) (i j n : Nat) (u : Nat) : (s.satFld f i j n).qp u = s.qp u := rfl
@[simp] theorem State.satFld_rc (f : RegField) (i j n : Nat) : (s.satFld f i j n).rc = s.rc := rfl
@[simp] theorem State.satFld_atRc (f : RegField) (i j n : Nat) : (s.satFld f i j n).atRc = s.atRc := rfl
@[simp] theorem State.satFld_cycleNow (f : RegField) (i j n : Nat) : (s.satFld f i j n).cycleNow = s.cycleNow := rfl
@[simp] theorem State.satFld_errCycle (f : RegField) (i j n : Nat) : (s.satFld f i j n).errCycle = s.errCycle := rfl
@[simp] theorem State.satFld_sigCycle (f : RegField) (i j n : Nat) : (s.satFld f i j n).sigCycle = s.sigCycle := rfl
@[simp] theorem State.satFld_inRun (f : RegField) (i j n : Nat) : (s.satFld f i j n).inRun = s.inRun := rfl
@[simp] theorem State.satFld_idleRun (f : RegField) (i j n : Nat) : (s.satFld f i j n).idleRun = s.idleRun := rfl
@[simp] theorem State.satFld_ticking (f : RegField) (i j n : Nat) : (s.satFld f i j n).ticking = s.ticking := rfl

/-! ## setTile -/

@[simp] theorem State.setTile_pending (t : Nat) (x : Tile) : (s.setTile t x).pending = s.pending := rfl
@[simp] theorem State.setTile_edge (t : Nat) (x : Tile) : (s.setTile t x).edge = s.edge := rfl
@[simp] theorem State.setTile_regs (t : Nat) (x : Tile) : (s.setTile t x).regs = s.regs := rfl
@[simp] theorem State.setTile_staged (t : Nat) (x : Tile) : (s.setTile t x).staged = s.staged := rfl
@[simp] theorem State.setTile_commit (t : Nat) (x : Tile) : (s.setTile t x).commit = s.commit := rfl
@[simp] theorem State.setTile_run (t : Nat) (x : Tile) : (s.setTile t x).run = s.run := rfl
@[simp] theorem State.setTile_esc (t : Nat) (x : Tile) : (s.setTile t x).esc = s.esc := rfl
@[simp] theorem State.setTile_job (t : Nat) (x : Tile) : (s.setTile t x).job = s.job := rfl
@[simp] theorem State.setTile_bt (t : Nat) (x : Tile) : (s.setTile t x).bt = s.bt := rfl
@[simp] theorem State.setTile_unclean (t : Nat) (x : Tile) : (s.setTile t x).unclean = s.unclean := rfl
@[simp] theorem State.setTile_uncleanNext (t : Nat) (x : Tile) : (s.setTile t x).uncleanNext = s.uncleanNext := rfl
@[simp] theorem State.setTile_counters (t : Nat) (x : Tile) : (s.setTile t x).counters = s.counters := rfl
@[simp] theorem State.setTile_waiters (t : Nat) (x : Tile) : (s.setTile t x).waiters = s.waiters := rfl
@[simp] theorem State.setTile_shadows (t : Nat) (x : Tile) : (s.setTile t x).shadows = s.shadows := rfl
@[simp] theorem State.setTile_lanes (t : Nat) (x : Tile) : (s.setTile t x).lanes = s.lanes := rfl
@[simp] theorem State.setTile_xout (t : Nat) (x : Tile) : (s.setTile t x).xout = s.xout := rfl
@[simp] theorem State.setTile_net (t : Nat) (x : Tile) : (s.setTile t x).net = s.net := rfl
@[simp] theorem State.setTile_credits (t : Nat) (x : Tile) : (s.setTile t x).credits = s.credits := rfl
@[simp] theorem State.setTile_slotUse (t : Nat) (x : Tile) : (s.setTile t x).slotUse = s.slotUse := rfl
@[simp] theorem State.setTile_consOps (t : Nat) (x : Tile) : (s.setTile t x).consOps = s.consOps := rfl
@[simp] theorem State.setTile_sigOps (t : Nat) (x : Tile) : (s.setTile t x).sigOps = s.sigOps := rfl
@[simp] theorem State.setTile_refFrom (t : Nat) (x : Tile) : (s.setTile t x).refFrom = s.refFrom := rfl
@[simp] theorem State.setTile_clearEnd (t : Nat) (x : Tile) : (s.setTile t x).clearEnd = s.clearEnd := rfl
@[simp] theorem State.setTile_wires (t : Nat) (x : Tile) : (s.setTile t x).wires = s.wires := rfl
@[simp] theorem State.setTile_w1cSets (t : Nat) (x : Tile) : (s.setTile t x).w1cSets = s.w1cSets := rfl
@[simp] theorem State.setTile_roots (t : Nat) (x : Tile) : (s.setTile t x).roots = s.roots := rfl
@[simp] theorem State.setTile_dram (t : Nat) (x : Tile) : (s.setTile t x).dram = s.dram := rfl
@[simp] theorem State.setTile_dramBad (t : Nat) (x : Tile) : (s.setTile t x).dramBad = s.dramBad := rfl
@[simp] theorem State.setTile_permute (t : Nat) (x : Tile) : (s.setTile t x).permute = s.permute := rfl
@[simp] theorem State.setTile_armBeat (t : Nat) (x : Tile) : (s.setTile t x).armBeat = s.armBeat := rfl
@[simp] theorem State.setTile_stopBeat (t : Nat) (x : Tile) : (s.setTile t x).stopBeat = s.stopBeat := rfl
@[simp] theorem State.setTile_refTick (t : Nat) (x : Tile) : (s.setTile t x).refTick = s.refTick := rfl
@[simp] theorem State.setTile_links (t : Nat) (x : Tile) : (s.setTile t x).links = s.links := rfl
@[simp] theorem State.setTile_errs (t : Nat) (x : Tile) : (s.setTile t x).errs = s.errs := rfl
@[simp] theorem State.setTile_ports (t : Nat) (x : Tile) : (s.setTile t x).ports = s.ports := rfl
@[simp] theorem State.setTile_qps (t : Nat) (x : Tile) : (s.setTile t x).qps = s.qps := rfl
@[simp] theorem State.setTile_sent (t : Nat) (x : Tile) : (s.setTile t x).sent = s.sent := rfl
@[simp] theorem State.setTile_crown (t : Nat) (x : Tile) : (s.setTile t x).crown = s.crown := rfl
@[simp] theorem State.setTile_flash (t : Nat) (x : Tile) : (s.setTile t x).flash = s.flash := rfl
@[simp] theorem State.setTile_seqr (t : Nat) (x : Tile) : (s.setTile t x).seqr = s.seqr := rfl
@[simp] theorem State.setTile_reg (t : Nat) (x : Tile) : (s.setTile t x).reg = s.reg := rfl
@[simp] theorem State.setTile_tap (t : Nat) (x : Tile) : (s.setTile t x).tap = s.tap := rfl
@[simp] theorem State.setTile_freeCtr (t : Nat) (x : Tile) : (s.setTile t x).freeCtr = s.freeCtr := rfl
@[simp] theorem State.setTile_fld (t : Nat) (x : Tile) (h : RegField) (a b : Nat) : (s.setTile t x).fld h a b = s.fld h a b := rfl
@[simp] theorem State.setTile_beat (t : Nat) (x : Tile) : (s.setTile t x).beat = s.beat := rfl
@[simp] theorem State.setTile_self (t : Nat) (x : Tile) : (s.setTile t x).self = s.self := rfl
@[simp] theorem State.setTile_profile (t : Nat) (x : Tile) : (s.setTile t x).profile = s.profile := rfl
@[simp] theorem State.setTile_root (t : Nat) (x : Tile) (u : Nat) : (s.setTile t x).root u = s.root u := rfl
@[simp] theorem State.setTile_rve (t : Nat) (x : Tile) (u : Nat) : (s.setTile t x).rve u = s.rve u := rfl
@[simp] theorem State.setTile_link (t : Nat) (x : Tile) (u : Nat) : (s.setTile t x).link u = s.link u := rfl
@[simp] theorem State.setTile_ctr (t : Nat) (x : Tile) (u : Nat) : (s.setTile t x).ctr u = s.ctr u := rfl
@[simp] theorem State.setTile_value (t : Nat) (x : Tile) (u : Nat) : (s.setTile t x).value u = s.value u := rfl
@[simp] theorem State.setTile_port (t : Nat) (x : Tile) (u : Nat) : (s.setTile t x).port u = s.port u := rfl
@[simp] theorem State.setTile_qp (t : Nat) (x : Tile) (u : Nat) : (s.setTile t x).qp u = s.qp u := rfl
@[simp] theorem State.setTile_rc (t : Nat) (x : Tile) : (s.setTile t x).rc = s.rc := rfl
@[simp] theorem State.setTile_atRc (t : Nat) (x : Tile) : (s.setTile t x).atRc = s.atRc := rfl
@[simp] theorem State.setTile_cycleNow (t : Nat) (x : Tile) : (s.setTile t x).cycleNow = s.cycleNow := rfl
@[simp] theorem State.setTile_errCycle (t : Nat) (x : Tile) : (s.setTile t x).errCycle = s.errCycle := rfl
@[simp] theorem State.setTile_sigCycle (t : Nat) (x : Tile) : (s.setTile t x).sigCycle = s.sigCycle := rfl
@[simp] theorem State.setTile_inRun (t : Nat) (x : Tile) : (s.setTile t x).inRun = s.inRun := rfl
@[simp] theorem State.setTile_idleRun (t : Nat) (x : Tile) : (s.setTile t x).idleRun = s.idleRun := rfl
@[simp] theorem State.setTile_ticking (t : Nat) (x : Tile) : (s.setTile t x).ticking = s.ticking := rfl

/-! ## updTile -/

@[simp] theorem State.updTile_pending (t : Nat) (g : Tile → Tile) : (s.updTile t g).pending = s.pending := rfl
@[simp] theorem State.updTile_edge (t : Nat) (g : Tile → Tile) : (s.updTile t g).edge = s.edge := rfl
@[simp] theorem State.updTile_regs (t : Nat) (g : Tile → Tile) : (s.updTile t g).regs = s.regs := rfl
@[simp] theorem State.updTile_staged (t : Nat) (g : Tile → Tile) : (s.updTile t g).staged = s.staged := rfl
@[simp] theorem State.updTile_commit (t : Nat) (g : Tile → Tile) : (s.updTile t g).commit = s.commit := rfl
@[simp] theorem State.updTile_run (t : Nat) (g : Tile → Tile) : (s.updTile t g).run = s.run := rfl
@[simp] theorem State.updTile_esc (t : Nat) (g : Tile → Tile) : (s.updTile t g).esc = s.esc := rfl
@[simp] theorem State.updTile_job (t : Nat) (g : Tile → Tile) : (s.updTile t g).job = s.job := rfl
@[simp] theorem State.updTile_bt (t : Nat) (g : Tile → Tile) : (s.updTile t g).bt = s.bt := rfl
@[simp] theorem State.updTile_unclean (t : Nat) (g : Tile → Tile) : (s.updTile t g).unclean = s.unclean := rfl
@[simp] theorem State.updTile_uncleanNext (t : Nat) (g : Tile → Tile) : (s.updTile t g).uncleanNext = s.uncleanNext := rfl
@[simp] theorem State.updTile_counters (t : Nat) (g : Tile → Tile) : (s.updTile t g).counters = s.counters := rfl
@[simp] theorem State.updTile_waiters (t : Nat) (g : Tile → Tile) : (s.updTile t g).waiters = s.waiters := rfl
@[simp] theorem State.updTile_shadows (t : Nat) (g : Tile → Tile) : (s.updTile t g).shadows = s.shadows := rfl
@[simp] theorem State.updTile_lanes (t : Nat) (g : Tile → Tile) : (s.updTile t g).lanes = s.lanes := rfl
@[simp] theorem State.updTile_xout (t : Nat) (g : Tile → Tile) : (s.updTile t g).xout = s.xout := rfl
@[simp] theorem State.updTile_net (t : Nat) (g : Tile → Tile) : (s.updTile t g).net = s.net := rfl
@[simp] theorem State.updTile_credits (t : Nat) (g : Tile → Tile) : (s.updTile t g).credits = s.credits := rfl
@[simp] theorem State.updTile_slotUse (t : Nat) (g : Tile → Tile) : (s.updTile t g).slotUse = s.slotUse := rfl
@[simp] theorem State.updTile_consOps (t : Nat) (g : Tile → Tile) : (s.updTile t g).consOps = s.consOps := rfl
@[simp] theorem State.updTile_sigOps (t : Nat) (g : Tile → Tile) : (s.updTile t g).sigOps = s.sigOps := rfl
@[simp] theorem State.updTile_refFrom (t : Nat) (g : Tile → Tile) : (s.updTile t g).refFrom = s.refFrom := rfl
@[simp] theorem State.updTile_clearEnd (t : Nat) (g : Tile → Tile) : (s.updTile t g).clearEnd = s.clearEnd := rfl
@[simp] theorem State.updTile_wires (t : Nat) (g : Tile → Tile) : (s.updTile t g).wires = s.wires := rfl
@[simp] theorem State.updTile_w1cSets (t : Nat) (g : Tile → Tile) : (s.updTile t g).w1cSets = s.w1cSets := rfl
@[simp] theorem State.updTile_roots (t : Nat) (g : Tile → Tile) : (s.updTile t g).roots = s.roots := rfl
@[simp] theorem State.updTile_dram (t : Nat) (g : Tile → Tile) : (s.updTile t g).dram = s.dram := rfl
@[simp] theorem State.updTile_dramBad (t : Nat) (g : Tile → Tile) : (s.updTile t g).dramBad = s.dramBad := rfl
@[simp] theorem State.updTile_permute (t : Nat) (g : Tile → Tile) : (s.updTile t g).permute = s.permute := rfl
@[simp] theorem State.updTile_armBeat (t : Nat) (g : Tile → Tile) : (s.updTile t g).armBeat = s.armBeat := rfl
@[simp] theorem State.updTile_stopBeat (t : Nat) (g : Tile → Tile) : (s.updTile t g).stopBeat = s.stopBeat := rfl
@[simp] theorem State.updTile_refTick (t : Nat) (g : Tile → Tile) : (s.updTile t g).refTick = s.refTick := rfl
@[simp] theorem State.updTile_links (t : Nat) (g : Tile → Tile) : (s.updTile t g).links = s.links := rfl
@[simp] theorem State.updTile_errs (t : Nat) (g : Tile → Tile) : (s.updTile t g).errs = s.errs := rfl
@[simp] theorem State.updTile_ports (t : Nat) (g : Tile → Tile) : (s.updTile t g).ports = s.ports := rfl
@[simp] theorem State.updTile_qps (t : Nat) (g : Tile → Tile) : (s.updTile t g).qps = s.qps := rfl
@[simp] theorem State.updTile_sent (t : Nat) (g : Tile → Tile) : (s.updTile t g).sent = s.sent := rfl
@[simp] theorem State.updTile_crown (t : Nat) (g : Tile → Tile) : (s.updTile t g).crown = s.crown := rfl
@[simp] theorem State.updTile_flash (t : Nat) (g : Tile → Tile) : (s.updTile t g).flash = s.flash := rfl
@[simp] theorem State.updTile_seqr (t : Nat) (g : Tile → Tile) : (s.updTile t g).seqr = s.seqr := rfl
@[simp] theorem State.updTile_reg (t : Nat) (g : Tile → Tile) : (s.updTile t g).reg = s.reg := rfl
@[simp] theorem State.updTile_tap (t : Nat) (g : Tile → Tile) : (s.updTile t g).tap = s.tap := rfl
@[simp] theorem State.updTile_freeCtr (t : Nat) (g : Tile → Tile) : (s.updTile t g).freeCtr = s.freeCtr := rfl
@[simp] theorem State.updTile_fld (t : Nat) (g : Tile → Tile) (h : RegField) (a b : Nat) : (s.updTile t g).fld h a b = s.fld h a b := rfl
@[simp] theorem State.updTile_beat (t : Nat) (g : Tile → Tile) : (s.updTile t g).beat = s.beat := rfl
@[simp] theorem State.updTile_self (t : Nat) (g : Tile → Tile) : (s.updTile t g).self = s.self := rfl
@[simp] theorem State.updTile_profile (t : Nat) (g : Tile → Tile) : (s.updTile t g).profile = s.profile := rfl
@[simp] theorem State.updTile_root (t : Nat) (g : Tile → Tile) (u : Nat) : (s.updTile t g).root u = s.root u := rfl
@[simp] theorem State.updTile_rve (t : Nat) (g : Tile → Tile) (u : Nat) : (s.updTile t g).rve u = s.rve u := rfl
@[simp] theorem State.updTile_link (t : Nat) (g : Tile → Tile) (u : Nat) : (s.updTile t g).link u = s.link u := rfl
@[simp] theorem State.updTile_ctr (t : Nat) (g : Tile → Tile) (u : Nat) : (s.updTile t g).ctr u = s.ctr u := rfl
@[simp] theorem State.updTile_value (t : Nat) (g : Tile → Tile) (u : Nat) : (s.updTile t g).value u = s.value u := rfl
@[simp] theorem State.updTile_port (t : Nat) (g : Tile → Tile) (u : Nat) : (s.updTile t g).port u = s.port u := rfl
@[simp] theorem State.updTile_qp (t : Nat) (g : Tile → Tile) (u : Nat) : (s.updTile t g).qp u = s.qp u := rfl
@[simp] theorem State.updTile_rc (t : Nat) (g : Tile → Tile) : (s.updTile t g).rc = s.rc := rfl
@[simp] theorem State.updTile_atRc (t : Nat) (g : Tile → Tile) : (s.updTile t g).atRc = s.atRc := rfl
@[simp] theorem State.updTile_cycleNow (t : Nat) (g : Tile → Tile) : (s.updTile t g).cycleNow = s.cycleNow := rfl
@[simp] theorem State.updTile_errCycle (t : Nat) (g : Tile → Tile) : (s.updTile t g).errCycle = s.errCycle := rfl
@[simp] theorem State.updTile_sigCycle (t : Nat) (g : Tile → Tile) : (s.updTile t g).sigCycle = s.sigCycle := rfl
@[simp] theorem State.updTile_inRun (t : Nat) (g : Tile → Tile) : (s.updTile t g).inRun = s.inRun := rfl
@[simp] theorem State.updTile_idleRun (t : Nat) (g : Tile → Tile) : (s.updTile t g).idleRun = s.idleRun := rfl
@[simp] theorem State.updTile_ticking (t : Nat) (g : Tile → Tile) : (s.updTile t g).ticking = s.ticking := rfl

/-! ## setRoot -/

@[simp] theorem State.setRoot_pending (r : Nat) (x : Root) : (s.setRoot r x).pending = s.pending := rfl
@[simp] theorem State.setRoot_edge (r : Nat) (x : Root) : (s.setRoot r x).edge = s.edge := rfl
@[simp] theorem State.setRoot_regs (r : Nat) (x : Root) : (s.setRoot r x).regs = s.regs := rfl
@[simp] theorem State.setRoot_staged (r : Nat) (x : Root) : (s.setRoot r x).staged = s.staged := rfl
@[simp] theorem State.setRoot_commit (r : Nat) (x : Root) : (s.setRoot r x).commit = s.commit := rfl
@[simp] theorem State.setRoot_run (r : Nat) (x : Root) : (s.setRoot r x).run = s.run := rfl
@[simp] theorem State.setRoot_esc (r : Nat) (x : Root) : (s.setRoot r x).esc = s.esc := rfl
@[simp] theorem State.setRoot_job (r : Nat) (x : Root) : (s.setRoot r x).job = s.job := rfl
@[simp] theorem State.setRoot_bt (r : Nat) (x : Root) : (s.setRoot r x).bt = s.bt := rfl
@[simp] theorem State.setRoot_unclean (r : Nat) (x : Root) : (s.setRoot r x).unclean = s.unclean := rfl
@[simp] theorem State.setRoot_uncleanNext (r : Nat) (x : Root) : (s.setRoot r x).uncleanNext = s.uncleanNext := rfl
@[simp] theorem State.setRoot_counters (r : Nat) (x : Root) : (s.setRoot r x).counters = s.counters := rfl
@[simp] theorem State.setRoot_waiters (r : Nat) (x : Root) : (s.setRoot r x).waiters = s.waiters := rfl
@[simp] theorem State.setRoot_shadows (r : Nat) (x : Root) : (s.setRoot r x).shadows = s.shadows := rfl
@[simp] theorem State.setRoot_tiles (r : Nat) (x : Root) : (s.setRoot r x).tiles = s.tiles := rfl
@[simp] theorem State.setRoot_lanes (r : Nat) (x : Root) : (s.setRoot r x).lanes = s.lanes := rfl
@[simp] theorem State.setRoot_xout (r : Nat) (x : Root) : (s.setRoot r x).xout = s.xout := rfl
@[simp] theorem State.setRoot_net (r : Nat) (x : Root) : (s.setRoot r x).net = s.net := rfl
@[simp] theorem State.setRoot_credits (r : Nat) (x : Root) : (s.setRoot r x).credits = s.credits := rfl
@[simp] theorem State.setRoot_slotUse (r : Nat) (x : Root) : (s.setRoot r x).slotUse = s.slotUse := rfl
@[simp] theorem State.setRoot_consOps (r : Nat) (x : Root) : (s.setRoot r x).consOps = s.consOps := rfl
@[simp] theorem State.setRoot_sigOps (r : Nat) (x : Root) : (s.setRoot r x).sigOps = s.sigOps := rfl
@[simp] theorem State.setRoot_refFrom (r : Nat) (x : Root) : (s.setRoot r x).refFrom = s.refFrom := rfl
@[simp] theorem State.setRoot_clearEnd (r : Nat) (x : Root) : (s.setRoot r x).clearEnd = s.clearEnd := rfl
@[simp] theorem State.setRoot_wires (r : Nat) (x : Root) : (s.setRoot r x).wires = s.wires := rfl
@[simp] theorem State.setRoot_w1cSets (r : Nat) (x : Root) : (s.setRoot r x).w1cSets = s.w1cSets := rfl
@[simp] theorem State.setRoot_dram (r : Nat) (x : Root) : (s.setRoot r x).dram = s.dram := rfl
@[simp] theorem State.setRoot_dramBad (r : Nat) (x : Root) : (s.setRoot r x).dramBad = s.dramBad := rfl
@[simp] theorem State.setRoot_permute (r : Nat) (x : Root) : (s.setRoot r x).permute = s.permute := rfl
@[simp] theorem State.setRoot_armBeat (r : Nat) (x : Root) : (s.setRoot r x).armBeat = s.armBeat := rfl
@[simp] theorem State.setRoot_stopBeat (r : Nat) (x : Root) : (s.setRoot r x).stopBeat = s.stopBeat := rfl
@[simp] theorem State.setRoot_refTick (r : Nat) (x : Root) : (s.setRoot r x).refTick = s.refTick := rfl
@[simp] theorem State.setRoot_links (r : Nat) (x : Root) : (s.setRoot r x).links = s.links := rfl
@[simp] theorem State.setRoot_errs (r : Nat) (x : Root) : (s.setRoot r x).errs = s.errs := rfl
@[simp] theorem State.setRoot_ports (r : Nat) (x : Root) : (s.setRoot r x).ports = s.ports := rfl
@[simp] theorem State.setRoot_qps (r : Nat) (x : Root) : (s.setRoot r x).qps = s.qps := rfl
@[simp] theorem State.setRoot_sent (r : Nat) (x : Root) : (s.setRoot r x).sent = s.sent := rfl
@[simp] theorem State.setRoot_crown (r : Nat) (x : Root) : (s.setRoot r x).crown = s.crown := rfl
@[simp] theorem State.setRoot_flash (r : Nat) (x : Root) : (s.setRoot r x).flash = s.flash := rfl
@[simp] theorem State.setRoot_seqr (r : Nat) (x : Root) : (s.setRoot r x).seqr = s.seqr := rfl
@[simp] theorem State.setRoot_reg (r : Nat) (x : Root) : (s.setRoot r x).reg = s.reg := rfl
@[simp] theorem State.setRoot_tap (r : Nat) (x : Root) : (s.setRoot r x).tap = s.tap := rfl
@[simp] theorem State.setRoot_freeCtr (r : Nat) (x : Root) : (s.setRoot r x).freeCtr = s.freeCtr := rfl
@[simp] theorem State.setRoot_fld (r : Nat) (x : Root) (h : RegField) (a b : Nat) : (s.setRoot r x).fld h a b = s.fld h a b := rfl
@[simp] theorem State.setRoot_beat (r : Nat) (x : Root) : (s.setRoot r x).beat = s.beat := rfl
@[simp] theorem State.setRoot_self (r : Nat) (x : Root) : (s.setRoot r x).self = s.self := rfl
@[simp] theorem State.setRoot_profile (r : Nat) (x : Root) : (s.setRoot r x).profile = s.profile := rfl
@[simp] theorem State.setRoot_tile (r : Nat) (x : Root) (u : Nat) : (s.setRoot r x).tile u = s.tile u := rfl
@[simp] theorem State.setRoot_link (r : Nat) (x : Root) (u : Nat) : (s.setRoot r x).link u = s.link u := rfl
@[simp] theorem State.setRoot_ctr (r : Nat) (x : Root) (u : Nat) : (s.setRoot r x).ctr u = s.ctr u := rfl
@[simp] theorem State.setRoot_value (r : Nat) (x : Root) (u : Nat) : (s.setRoot r x).value u = s.value u := rfl
@[simp] theorem State.setRoot_port (r : Nat) (x : Root) (u : Nat) : (s.setRoot r x).port u = s.port u := rfl
@[simp] theorem State.setRoot_qp (r : Nat) (x : Root) (u : Nat) : (s.setRoot r x).qp u = s.qp u := rfl
@[simp] theorem State.setRoot_rc (r : Nat) (x : Root) : (s.setRoot r x).rc = s.rc := rfl
@[simp] theorem State.setRoot_atRc (r : Nat) (x : Root) : (s.setRoot r x).atRc = s.atRc := rfl
@[simp] theorem State.setRoot_cycleNow (r : Nat) (x : Root) : (s.setRoot r x).cycleNow = s.cycleNow := rfl
@[simp] theorem State.setRoot_errCycle (r : Nat) (x : Root) : (s.setRoot r x).errCycle = s.errCycle := rfl
@[simp] theorem State.setRoot_sigCycle (r : Nat) (x : Root) : (s.setRoot r x).sigCycle = s.sigCycle := rfl
@[simp] theorem State.setRoot_inRun (r : Nat) (x : Root) : (s.setRoot r x).inRun = s.inRun := rfl
@[simp] theorem State.setRoot_idleRun (r : Nat) (x : Root) : (s.setRoot r x).idleRun = s.idleRun := rfl
@[simp] theorem State.setRoot_ticking (r : Nat) (x : Root) : (s.setRoot r x).ticking = s.ticking := rfl

/-! ## updRoot -/

@[simp] theorem State.updRoot_pending (r : Nat) (g : Root → Root) : (s.updRoot r g).pending = s.pending := rfl
@[simp] theorem State.updRoot_edge (r : Nat) (g : Root → Root) : (s.updRoot r g).edge = s.edge := rfl
@[simp] theorem State.updRoot_regs (r : Nat) (g : Root → Root) : (s.updRoot r g).regs = s.regs := rfl
@[simp] theorem State.updRoot_staged (r : Nat) (g : Root → Root) : (s.updRoot r g).staged = s.staged := rfl
@[simp] theorem State.updRoot_commit (r : Nat) (g : Root → Root) : (s.updRoot r g).commit = s.commit := rfl
@[simp] theorem State.updRoot_run (r : Nat) (g : Root → Root) : (s.updRoot r g).run = s.run := rfl
@[simp] theorem State.updRoot_esc (r : Nat) (g : Root → Root) : (s.updRoot r g).esc = s.esc := rfl
@[simp] theorem State.updRoot_job (r : Nat) (g : Root → Root) : (s.updRoot r g).job = s.job := rfl
@[simp] theorem State.updRoot_bt (r : Nat) (g : Root → Root) : (s.updRoot r g).bt = s.bt := rfl
@[simp] theorem State.updRoot_unclean (r : Nat) (g : Root → Root) : (s.updRoot r g).unclean = s.unclean := rfl
@[simp] theorem State.updRoot_uncleanNext (r : Nat) (g : Root → Root) : (s.updRoot r g).uncleanNext = s.uncleanNext := rfl
@[simp] theorem State.updRoot_counters (r : Nat) (g : Root → Root) : (s.updRoot r g).counters = s.counters := rfl
@[simp] theorem State.updRoot_waiters (r : Nat) (g : Root → Root) : (s.updRoot r g).waiters = s.waiters := rfl
@[simp] theorem State.updRoot_shadows (r : Nat) (g : Root → Root) : (s.updRoot r g).shadows = s.shadows := rfl
@[simp] theorem State.updRoot_tiles (r : Nat) (g : Root → Root) : (s.updRoot r g).tiles = s.tiles := rfl
@[simp] theorem State.updRoot_lanes (r : Nat) (g : Root → Root) : (s.updRoot r g).lanes = s.lanes := rfl
@[simp] theorem State.updRoot_xout (r : Nat) (g : Root → Root) : (s.updRoot r g).xout = s.xout := rfl
@[simp] theorem State.updRoot_net (r : Nat) (g : Root → Root) : (s.updRoot r g).net = s.net := rfl
@[simp] theorem State.updRoot_credits (r : Nat) (g : Root → Root) : (s.updRoot r g).credits = s.credits := rfl
@[simp] theorem State.updRoot_slotUse (r : Nat) (g : Root → Root) : (s.updRoot r g).slotUse = s.slotUse := rfl
@[simp] theorem State.updRoot_consOps (r : Nat) (g : Root → Root) : (s.updRoot r g).consOps = s.consOps := rfl
@[simp] theorem State.updRoot_sigOps (r : Nat) (g : Root → Root) : (s.updRoot r g).sigOps = s.sigOps := rfl
@[simp] theorem State.updRoot_refFrom (r : Nat) (g : Root → Root) : (s.updRoot r g).refFrom = s.refFrom := rfl
@[simp] theorem State.updRoot_clearEnd (r : Nat) (g : Root → Root) : (s.updRoot r g).clearEnd = s.clearEnd := rfl
@[simp] theorem State.updRoot_wires (r : Nat) (g : Root → Root) : (s.updRoot r g).wires = s.wires := rfl
@[simp] theorem State.updRoot_w1cSets (r : Nat) (g : Root → Root) : (s.updRoot r g).w1cSets = s.w1cSets := rfl
@[simp] theorem State.updRoot_dram (r : Nat) (g : Root → Root) : (s.updRoot r g).dram = s.dram := rfl
@[simp] theorem State.updRoot_dramBad (r : Nat) (g : Root → Root) : (s.updRoot r g).dramBad = s.dramBad := rfl
@[simp] theorem State.updRoot_permute (r : Nat) (g : Root → Root) : (s.updRoot r g).permute = s.permute := rfl
@[simp] theorem State.updRoot_armBeat (r : Nat) (g : Root → Root) : (s.updRoot r g).armBeat = s.armBeat := rfl
@[simp] theorem State.updRoot_stopBeat (r : Nat) (g : Root → Root) : (s.updRoot r g).stopBeat = s.stopBeat := rfl
@[simp] theorem State.updRoot_refTick (r : Nat) (g : Root → Root) : (s.updRoot r g).refTick = s.refTick := rfl
@[simp] theorem State.updRoot_links (r : Nat) (g : Root → Root) : (s.updRoot r g).links = s.links := rfl
@[simp] theorem State.updRoot_errs (r : Nat) (g : Root → Root) : (s.updRoot r g).errs = s.errs := rfl
@[simp] theorem State.updRoot_ports (r : Nat) (g : Root → Root) : (s.updRoot r g).ports = s.ports := rfl
@[simp] theorem State.updRoot_qps (r : Nat) (g : Root → Root) : (s.updRoot r g).qps = s.qps := rfl
@[simp] theorem State.updRoot_sent (r : Nat) (g : Root → Root) : (s.updRoot r g).sent = s.sent := rfl
@[simp] theorem State.updRoot_crown (r : Nat) (g : Root → Root) : (s.updRoot r g).crown = s.crown := rfl
@[simp] theorem State.updRoot_flash (r : Nat) (g : Root → Root) : (s.updRoot r g).flash = s.flash := rfl
@[simp] theorem State.updRoot_seqr (r : Nat) (g : Root → Root) : (s.updRoot r g).seqr = s.seqr := rfl
@[simp] theorem State.updRoot_reg (r : Nat) (g : Root → Root) : (s.updRoot r g).reg = s.reg := rfl
@[simp] theorem State.updRoot_tap (r : Nat) (g : Root → Root) : (s.updRoot r g).tap = s.tap := rfl
@[simp] theorem State.updRoot_freeCtr (r : Nat) (g : Root → Root) : (s.updRoot r g).freeCtr = s.freeCtr := rfl
@[simp] theorem State.updRoot_fld (r : Nat) (g : Root → Root) (h : RegField) (a b : Nat) : (s.updRoot r g).fld h a b = s.fld h a b := rfl
@[simp] theorem State.updRoot_beat (r : Nat) (g : Root → Root) : (s.updRoot r g).beat = s.beat := rfl
@[simp] theorem State.updRoot_self (r : Nat) (g : Root → Root) : (s.updRoot r g).self = s.self := rfl
@[simp] theorem State.updRoot_profile (r : Nat) (g : Root → Root) : (s.updRoot r g).profile = s.profile := rfl
@[simp] theorem State.updRoot_tile (r : Nat) (g : Root → Root) (u : Nat) : (s.updRoot r g).tile u = s.tile u := rfl
@[simp] theorem State.updRoot_link (r : Nat) (g : Root → Root) (u : Nat) : (s.updRoot r g).link u = s.link u := rfl
@[simp] theorem State.updRoot_ctr (r : Nat) (g : Root → Root) (u : Nat) : (s.updRoot r g).ctr u = s.ctr u := rfl
@[simp] theorem State.updRoot_value (r : Nat) (g : Root → Root) (u : Nat) : (s.updRoot r g).value u = s.value u := rfl
@[simp] theorem State.updRoot_port (r : Nat) (g : Root → Root) (u : Nat) : (s.updRoot r g).port u = s.port u := rfl
@[simp] theorem State.updRoot_qp (r : Nat) (g : Root → Root) (u : Nat) : (s.updRoot r g).qp u = s.qp u := rfl
@[simp] theorem State.updRoot_rc (r : Nat) (g : Root → Root) : (s.updRoot r g).rc = s.rc := rfl
@[simp] theorem State.updRoot_atRc (r : Nat) (g : Root → Root) : (s.updRoot r g).atRc = s.atRc := rfl
@[simp] theorem State.updRoot_cycleNow (r : Nat) (g : Root → Root) : (s.updRoot r g).cycleNow = s.cycleNow := rfl
@[simp] theorem State.updRoot_errCycle (r : Nat) (g : Root → Root) : (s.updRoot r g).errCycle = s.errCycle := rfl
@[simp] theorem State.updRoot_sigCycle (r : Nat) (g : Root → Root) : (s.updRoot r g).sigCycle = s.sigCycle := rfl
@[simp] theorem State.updRoot_inRun (r : Nat) (g : Root → Root) : (s.updRoot r g).inRun = s.inRun := rfl
@[simp] theorem State.updRoot_idleRun (r : Nat) (g : Root → Root) : (s.updRoot r g).idleRun = s.idleRun := rfl
@[simp] theorem State.updRoot_ticking (r : Nat) (g : Root → Root) : (s.updRoot r g).ticking = s.ticking := rfl

/-! ## updRve -/

@[simp] theorem State.updRve_pending (r : Nat) (g : Rve → Rve) : (s.updRve r g).pending = s.pending := rfl
@[simp] theorem State.updRve_edge (r : Nat) (g : Rve → Rve) : (s.updRve r g).edge = s.edge := rfl
@[simp] theorem State.updRve_regs (r : Nat) (g : Rve → Rve) : (s.updRve r g).regs = s.regs := rfl
@[simp] theorem State.updRve_staged (r : Nat) (g : Rve → Rve) : (s.updRve r g).staged = s.staged := rfl
@[simp] theorem State.updRve_commit (r : Nat) (g : Rve → Rve) : (s.updRve r g).commit = s.commit := rfl
@[simp] theorem State.updRve_run (r : Nat) (g : Rve → Rve) : (s.updRve r g).run = s.run := rfl
@[simp] theorem State.updRve_esc (r : Nat) (g : Rve → Rve) : (s.updRve r g).esc = s.esc := rfl
@[simp] theorem State.updRve_job (r : Nat) (g : Rve → Rve) : (s.updRve r g).job = s.job := rfl
@[simp] theorem State.updRve_bt (r : Nat) (g : Rve → Rve) : (s.updRve r g).bt = s.bt := rfl
@[simp] theorem State.updRve_unclean (r : Nat) (g : Rve → Rve) : (s.updRve r g).unclean = s.unclean := rfl
@[simp] theorem State.updRve_uncleanNext (r : Nat) (g : Rve → Rve) : (s.updRve r g).uncleanNext = s.uncleanNext := rfl
@[simp] theorem State.updRve_counters (r : Nat) (g : Rve → Rve) : (s.updRve r g).counters = s.counters := rfl
@[simp] theorem State.updRve_waiters (r : Nat) (g : Rve → Rve) : (s.updRve r g).waiters = s.waiters := rfl
@[simp] theorem State.updRve_shadows (r : Nat) (g : Rve → Rve) : (s.updRve r g).shadows = s.shadows := rfl
@[simp] theorem State.updRve_tiles (r : Nat) (g : Rve → Rve) : (s.updRve r g).tiles = s.tiles := rfl
@[simp] theorem State.updRve_lanes (r : Nat) (g : Rve → Rve) : (s.updRve r g).lanes = s.lanes := rfl
@[simp] theorem State.updRve_xout (r : Nat) (g : Rve → Rve) : (s.updRve r g).xout = s.xout := rfl
@[simp] theorem State.updRve_net (r : Nat) (g : Rve → Rve) : (s.updRve r g).net = s.net := rfl
@[simp] theorem State.updRve_credits (r : Nat) (g : Rve → Rve) : (s.updRve r g).credits = s.credits := rfl
@[simp] theorem State.updRve_slotUse (r : Nat) (g : Rve → Rve) : (s.updRve r g).slotUse = s.slotUse := rfl
@[simp] theorem State.updRve_consOps (r : Nat) (g : Rve → Rve) : (s.updRve r g).consOps = s.consOps := rfl
@[simp] theorem State.updRve_sigOps (r : Nat) (g : Rve → Rve) : (s.updRve r g).sigOps = s.sigOps := rfl
@[simp] theorem State.updRve_refFrom (r : Nat) (g : Rve → Rve) : (s.updRve r g).refFrom = s.refFrom := rfl
@[simp] theorem State.updRve_clearEnd (r : Nat) (g : Rve → Rve) : (s.updRve r g).clearEnd = s.clearEnd := rfl
@[simp] theorem State.updRve_wires (r : Nat) (g : Rve → Rve) : (s.updRve r g).wires = s.wires := rfl
@[simp] theorem State.updRve_w1cSets (r : Nat) (g : Rve → Rve) : (s.updRve r g).w1cSets = s.w1cSets := rfl
@[simp] theorem State.updRve_dram (r : Nat) (g : Rve → Rve) : (s.updRve r g).dram = s.dram := rfl
@[simp] theorem State.updRve_dramBad (r : Nat) (g : Rve → Rve) : (s.updRve r g).dramBad = s.dramBad := rfl
@[simp] theorem State.updRve_permute (r : Nat) (g : Rve → Rve) : (s.updRve r g).permute = s.permute := rfl
@[simp] theorem State.updRve_armBeat (r : Nat) (g : Rve → Rve) : (s.updRve r g).armBeat = s.armBeat := rfl
@[simp] theorem State.updRve_stopBeat (r : Nat) (g : Rve → Rve) : (s.updRve r g).stopBeat = s.stopBeat := rfl
@[simp] theorem State.updRve_refTick (r : Nat) (g : Rve → Rve) : (s.updRve r g).refTick = s.refTick := rfl
@[simp] theorem State.updRve_links (r : Nat) (g : Rve → Rve) : (s.updRve r g).links = s.links := rfl
@[simp] theorem State.updRve_errs (r : Nat) (g : Rve → Rve) : (s.updRve r g).errs = s.errs := rfl
@[simp] theorem State.updRve_ports (r : Nat) (g : Rve → Rve) : (s.updRve r g).ports = s.ports := rfl
@[simp] theorem State.updRve_qps (r : Nat) (g : Rve → Rve) : (s.updRve r g).qps = s.qps := rfl
@[simp] theorem State.updRve_sent (r : Nat) (g : Rve → Rve) : (s.updRve r g).sent = s.sent := rfl
@[simp] theorem State.updRve_crown (r : Nat) (g : Rve → Rve) : (s.updRve r g).crown = s.crown := rfl
@[simp] theorem State.updRve_flash (r : Nat) (g : Rve → Rve) : (s.updRve r g).flash = s.flash := rfl
@[simp] theorem State.updRve_seqr (r : Nat) (g : Rve → Rve) : (s.updRve r g).seqr = s.seqr := rfl
@[simp] theorem State.updRve_reg (r : Nat) (g : Rve → Rve) : (s.updRve r g).reg = s.reg := rfl
@[simp] theorem State.updRve_tap (r : Nat) (g : Rve → Rve) : (s.updRve r g).tap = s.tap := rfl
@[simp] theorem State.updRve_freeCtr (r : Nat) (g : Rve → Rve) : (s.updRve r g).freeCtr = s.freeCtr := rfl
@[simp] theorem State.updRve_fld (r : Nat) (g : Rve → Rve) (h : RegField) (a b : Nat) : (s.updRve r g).fld h a b = s.fld h a b := rfl
@[simp] theorem State.updRve_beat (r : Nat) (g : Rve → Rve) : (s.updRve r g).beat = s.beat := rfl
@[simp] theorem State.updRve_self (r : Nat) (g : Rve → Rve) : (s.updRve r g).self = s.self := rfl
@[simp] theorem State.updRve_profile (r : Nat) (g : Rve → Rve) : (s.updRve r g).profile = s.profile := rfl
@[simp] theorem State.updRve_tile (r : Nat) (g : Rve → Rve) (u : Nat) : (s.updRve r g).tile u = s.tile u := rfl
@[simp] theorem State.updRve_link (r : Nat) (g : Rve → Rve) (u : Nat) : (s.updRve r g).link u = s.link u := rfl
@[simp] theorem State.updRve_ctr (r : Nat) (g : Rve → Rve) (u : Nat) : (s.updRve r g).ctr u = s.ctr u := rfl
@[simp] theorem State.updRve_value (r : Nat) (g : Rve → Rve) (u : Nat) : (s.updRve r g).value u = s.value u := rfl
@[simp] theorem State.updRve_port (r : Nat) (g : Rve → Rve) (u : Nat) : (s.updRve r g).port u = s.port u := rfl
@[simp] theorem State.updRve_qp (r : Nat) (g : Rve → Rve) (u : Nat) : (s.updRve r g).qp u = s.qp u := rfl
@[simp] theorem State.updRve_rc (r : Nat) (g : Rve → Rve) : (s.updRve r g).rc = s.rc := rfl
@[simp] theorem State.updRve_atRc (r : Nat) (g : Rve → Rve) : (s.updRve r g).atRc = s.atRc := rfl
@[simp] theorem State.updRve_cycleNow (r : Nat) (g : Rve → Rve) : (s.updRve r g).cycleNow = s.cycleNow := rfl
@[simp] theorem State.updRve_errCycle (r : Nat) (g : Rve → Rve) : (s.updRve r g).errCycle = s.errCycle := rfl
@[simp] theorem State.updRve_sigCycle (r : Nat) (g : Rve → Rve) : (s.updRve r g).sigCycle = s.sigCycle := rfl
@[simp] theorem State.updRve_inRun (r : Nat) (g : Rve → Rve) : (s.updRve r g).inRun = s.inRun := rfl
@[simp] theorem State.updRve_idleRun (r : Nat) (g : Rve → Rve) : (s.updRve r g).idleRun = s.idleRun := rfl
@[simp] theorem State.updRve_ticking (r : Nat) (g : Rve → Rve) : (s.updRve r g).ticking = s.ticking := rfl

/-! ## setLink -/

@[simp] theorem State.setLink_pending (n : Nat) (x : Link) : (s.setLink n x).pending = s.pending := rfl
@[simp] theorem State.setLink_edge (n : Nat) (x : Link) : (s.setLink n x).edge = s.edge := rfl
@[simp] theorem State.setLink_regs (n : Nat) (x : Link) : (s.setLink n x).regs = s.regs := rfl
@[simp] theorem State.setLink_staged (n : Nat) (x : Link) : (s.setLink n x).staged = s.staged := rfl
@[simp] theorem State.setLink_commit (n : Nat) (x : Link) : (s.setLink n x).commit = s.commit := rfl
@[simp] theorem State.setLink_run (n : Nat) (x : Link) : (s.setLink n x).run = s.run := rfl
@[simp] theorem State.setLink_esc (n : Nat) (x : Link) : (s.setLink n x).esc = s.esc := rfl
@[simp] theorem State.setLink_job (n : Nat) (x : Link) : (s.setLink n x).job = s.job := rfl
@[simp] theorem State.setLink_bt (n : Nat) (x : Link) : (s.setLink n x).bt = s.bt := rfl
@[simp] theorem State.setLink_unclean (n : Nat) (x : Link) : (s.setLink n x).unclean = s.unclean := rfl
@[simp] theorem State.setLink_uncleanNext (n : Nat) (x : Link) : (s.setLink n x).uncleanNext = s.uncleanNext := rfl
@[simp] theorem State.setLink_counters (n : Nat) (x : Link) : (s.setLink n x).counters = s.counters := rfl
@[simp] theorem State.setLink_waiters (n : Nat) (x : Link) : (s.setLink n x).waiters = s.waiters := rfl
@[simp] theorem State.setLink_shadows (n : Nat) (x : Link) : (s.setLink n x).shadows = s.shadows := rfl
@[simp] theorem State.setLink_tiles (n : Nat) (x : Link) : (s.setLink n x).tiles = s.tiles := rfl
@[simp] theorem State.setLink_lanes (n : Nat) (x : Link) : (s.setLink n x).lanes = s.lanes := rfl
@[simp] theorem State.setLink_xout (n : Nat) (x : Link) : (s.setLink n x).xout = s.xout := rfl
@[simp] theorem State.setLink_net (n : Nat) (x : Link) : (s.setLink n x).net = s.net := rfl
@[simp] theorem State.setLink_credits (n : Nat) (x : Link) : (s.setLink n x).credits = s.credits := rfl
@[simp] theorem State.setLink_slotUse (n : Nat) (x : Link) : (s.setLink n x).slotUse = s.slotUse := rfl
@[simp] theorem State.setLink_consOps (n : Nat) (x : Link) : (s.setLink n x).consOps = s.consOps := rfl
@[simp] theorem State.setLink_sigOps (n : Nat) (x : Link) : (s.setLink n x).sigOps = s.sigOps := rfl
@[simp] theorem State.setLink_refFrom (n : Nat) (x : Link) : (s.setLink n x).refFrom = s.refFrom := rfl
@[simp] theorem State.setLink_clearEnd (n : Nat) (x : Link) : (s.setLink n x).clearEnd = s.clearEnd := rfl
@[simp] theorem State.setLink_wires (n : Nat) (x : Link) : (s.setLink n x).wires = s.wires := rfl
@[simp] theorem State.setLink_w1cSets (n : Nat) (x : Link) : (s.setLink n x).w1cSets = s.w1cSets := rfl
@[simp] theorem State.setLink_roots (n : Nat) (x : Link) : (s.setLink n x).roots = s.roots := rfl
@[simp] theorem State.setLink_dram (n : Nat) (x : Link) : (s.setLink n x).dram = s.dram := rfl
@[simp] theorem State.setLink_dramBad (n : Nat) (x : Link) : (s.setLink n x).dramBad = s.dramBad := rfl
@[simp] theorem State.setLink_permute (n : Nat) (x : Link) : (s.setLink n x).permute = s.permute := rfl
@[simp] theorem State.setLink_armBeat (n : Nat) (x : Link) : (s.setLink n x).armBeat = s.armBeat := rfl
@[simp] theorem State.setLink_stopBeat (n : Nat) (x : Link) : (s.setLink n x).stopBeat = s.stopBeat := rfl
@[simp] theorem State.setLink_refTick (n : Nat) (x : Link) : (s.setLink n x).refTick = s.refTick := rfl
@[simp] theorem State.setLink_errs (n : Nat) (x : Link) : (s.setLink n x).errs = s.errs := rfl
@[simp] theorem State.setLink_ports (n : Nat) (x : Link) : (s.setLink n x).ports = s.ports := rfl
@[simp] theorem State.setLink_qps (n : Nat) (x : Link) : (s.setLink n x).qps = s.qps := rfl
@[simp] theorem State.setLink_sent (n : Nat) (x : Link) : (s.setLink n x).sent = s.sent := rfl
@[simp] theorem State.setLink_crown (n : Nat) (x : Link) : (s.setLink n x).crown = s.crown := rfl
@[simp] theorem State.setLink_flash (n : Nat) (x : Link) : (s.setLink n x).flash = s.flash := rfl
@[simp] theorem State.setLink_seqr (n : Nat) (x : Link) : (s.setLink n x).seqr = s.seqr := rfl
@[simp] theorem State.setLink_reg (n : Nat) (x : Link) : (s.setLink n x).reg = s.reg := rfl
@[simp] theorem State.setLink_tap (n : Nat) (x : Link) : (s.setLink n x).tap = s.tap := rfl
@[simp] theorem State.setLink_freeCtr (n : Nat) (x : Link) : (s.setLink n x).freeCtr = s.freeCtr := rfl
@[simp] theorem State.setLink_fld (n : Nat) (x : Link) (h : RegField) (a b : Nat) : (s.setLink n x).fld h a b = s.fld h a b := rfl
@[simp] theorem State.setLink_beat (n : Nat) (x : Link) : (s.setLink n x).beat = s.beat := rfl
@[simp] theorem State.setLink_self (n : Nat) (x : Link) : (s.setLink n x).self = s.self := rfl
@[simp] theorem State.setLink_profile (n : Nat) (x : Link) : (s.setLink n x).profile = s.profile := rfl
@[simp] theorem State.setLink_tile (n : Nat) (x : Link) (u : Nat) : (s.setLink n x).tile u = s.tile u := rfl
@[simp] theorem State.setLink_root (n : Nat) (x : Link) (u : Nat) : (s.setLink n x).root u = s.root u := rfl
@[simp] theorem State.setLink_rve (n : Nat) (x : Link) (u : Nat) : (s.setLink n x).rve u = s.rve u := rfl
@[simp] theorem State.setLink_ctr (n : Nat) (x : Link) (u : Nat) : (s.setLink n x).ctr u = s.ctr u := rfl
@[simp] theorem State.setLink_value (n : Nat) (x : Link) (u : Nat) : (s.setLink n x).value u = s.value u := rfl
@[simp] theorem State.setLink_port (n : Nat) (x : Link) (u : Nat) : (s.setLink n x).port u = s.port u := rfl
@[simp] theorem State.setLink_qp (n : Nat) (x : Link) (u : Nat) : (s.setLink n x).qp u = s.qp u := rfl
@[simp] theorem State.setLink_rc (n : Nat) (x : Link) : (s.setLink n x).rc = s.rc := rfl
@[simp] theorem State.setLink_atRc (n : Nat) (x : Link) : (s.setLink n x).atRc = s.atRc := rfl
@[simp] theorem State.setLink_cycleNow (n : Nat) (x : Link) : (s.setLink n x).cycleNow = s.cycleNow := rfl
@[simp] theorem State.setLink_errCycle (n : Nat) (x : Link) : (s.setLink n x).errCycle = s.errCycle := rfl
@[simp] theorem State.setLink_sigCycle (n : Nat) (x : Link) : (s.setLink n x).sigCycle = s.sigCycle := rfl
@[simp] theorem State.setLink_inRun (n : Nat) (x : Link) : (s.setLink n x).inRun = s.inRun := rfl
@[simp] theorem State.setLink_idleRun (n : Nat) (x : Link) : (s.setLink n x).idleRun = s.idleRun := rfl
@[simp] theorem State.setLink_ticking (n : Nat) (x : Link) : (s.setLink n x).ticking = s.ticking := rfl

/-! ## updLink -/

@[simp] theorem State.updLink_pending (n : Nat) (g : Link → Link) : (s.updLink n g).pending = s.pending := rfl
@[simp] theorem State.updLink_edge (n : Nat) (g : Link → Link) : (s.updLink n g).edge = s.edge := rfl
@[simp] theorem State.updLink_regs (n : Nat) (g : Link → Link) : (s.updLink n g).regs = s.regs := rfl
@[simp] theorem State.updLink_staged (n : Nat) (g : Link → Link) : (s.updLink n g).staged = s.staged := rfl
@[simp] theorem State.updLink_commit (n : Nat) (g : Link → Link) : (s.updLink n g).commit = s.commit := rfl
@[simp] theorem State.updLink_run (n : Nat) (g : Link → Link) : (s.updLink n g).run = s.run := rfl
@[simp] theorem State.updLink_esc (n : Nat) (g : Link → Link) : (s.updLink n g).esc = s.esc := rfl
@[simp] theorem State.updLink_job (n : Nat) (g : Link → Link) : (s.updLink n g).job = s.job := rfl
@[simp] theorem State.updLink_bt (n : Nat) (g : Link → Link) : (s.updLink n g).bt = s.bt := rfl
@[simp] theorem State.updLink_unclean (n : Nat) (g : Link → Link) : (s.updLink n g).unclean = s.unclean := rfl
@[simp] theorem State.updLink_uncleanNext (n : Nat) (g : Link → Link) : (s.updLink n g).uncleanNext = s.uncleanNext := rfl
@[simp] theorem State.updLink_counters (n : Nat) (g : Link → Link) : (s.updLink n g).counters = s.counters := rfl
@[simp] theorem State.updLink_waiters (n : Nat) (g : Link → Link) : (s.updLink n g).waiters = s.waiters := rfl
@[simp] theorem State.updLink_shadows (n : Nat) (g : Link → Link) : (s.updLink n g).shadows = s.shadows := rfl
@[simp] theorem State.updLink_tiles (n : Nat) (g : Link → Link) : (s.updLink n g).tiles = s.tiles := rfl
@[simp] theorem State.updLink_lanes (n : Nat) (g : Link → Link) : (s.updLink n g).lanes = s.lanes := rfl
@[simp] theorem State.updLink_xout (n : Nat) (g : Link → Link) : (s.updLink n g).xout = s.xout := rfl
@[simp] theorem State.updLink_net (n : Nat) (g : Link → Link) : (s.updLink n g).net = s.net := rfl
@[simp] theorem State.updLink_credits (n : Nat) (g : Link → Link) : (s.updLink n g).credits = s.credits := rfl
@[simp] theorem State.updLink_slotUse (n : Nat) (g : Link → Link) : (s.updLink n g).slotUse = s.slotUse := rfl
@[simp] theorem State.updLink_consOps (n : Nat) (g : Link → Link) : (s.updLink n g).consOps = s.consOps := rfl
@[simp] theorem State.updLink_sigOps (n : Nat) (g : Link → Link) : (s.updLink n g).sigOps = s.sigOps := rfl
@[simp] theorem State.updLink_refFrom (n : Nat) (g : Link → Link) : (s.updLink n g).refFrom = s.refFrom := rfl
@[simp] theorem State.updLink_clearEnd (n : Nat) (g : Link → Link) : (s.updLink n g).clearEnd = s.clearEnd := rfl
@[simp] theorem State.updLink_wires (n : Nat) (g : Link → Link) : (s.updLink n g).wires = s.wires := rfl
@[simp] theorem State.updLink_w1cSets (n : Nat) (g : Link → Link) : (s.updLink n g).w1cSets = s.w1cSets := rfl
@[simp] theorem State.updLink_roots (n : Nat) (g : Link → Link) : (s.updLink n g).roots = s.roots := rfl
@[simp] theorem State.updLink_dram (n : Nat) (g : Link → Link) : (s.updLink n g).dram = s.dram := rfl
@[simp] theorem State.updLink_dramBad (n : Nat) (g : Link → Link) : (s.updLink n g).dramBad = s.dramBad := rfl
@[simp] theorem State.updLink_permute (n : Nat) (g : Link → Link) : (s.updLink n g).permute = s.permute := rfl
@[simp] theorem State.updLink_armBeat (n : Nat) (g : Link → Link) : (s.updLink n g).armBeat = s.armBeat := rfl
@[simp] theorem State.updLink_stopBeat (n : Nat) (g : Link → Link) : (s.updLink n g).stopBeat = s.stopBeat := rfl
@[simp] theorem State.updLink_refTick (n : Nat) (g : Link → Link) : (s.updLink n g).refTick = s.refTick := rfl
@[simp] theorem State.updLink_errs (n : Nat) (g : Link → Link) : (s.updLink n g).errs = s.errs := rfl
@[simp] theorem State.updLink_ports (n : Nat) (g : Link → Link) : (s.updLink n g).ports = s.ports := rfl
@[simp] theorem State.updLink_qps (n : Nat) (g : Link → Link) : (s.updLink n g).qps = s.qps := rfl
@[simp] theorem State.updLink_sent (n : Nat) (g : Link → Link) : (s.updLink n g).sent = s.sent := rfl
@[simp] theorem State.updLink_crown (n : Nat) (g : Link → Link) : (s.updLink n g).crown = s.crown := rfl
@[simp] theorem State.updLink_flash (n : Nat) (g : Link → Link) : (s.updLink n g).flash = s.flash := rfl
@[simp] theorem State.updLink_seqr (n : Nat) (g : Link → Link) : (s.updLink n g).seqr = s.seqr := rfl
@[simp] theorem State.updLink_reg (n : Nat) (g : Link → Link) : (s.updLink n g).reg = s.reg := rfl
@[simp] theorem State.updLink_tap (n : Nat) (g : Link → Link) : (s.updLink n g).tap = s.tap := rfl
@[simp] theorem State.updLink_freeCtr (n : Nat) (g : Link → Link) : (s.updLink n g).freeCtr = s.freeCtr := rfl
@[simp] theorem State.updLink_fld (n : Nat) (g : Link → Link) (h : RegField) (a b : Nat) : (s.updLink n g).fld h a b = s.fld h a b := rfl
@[simp] theorem State.updLink_beat (n : Nat) (g : Link → Link) : (s.updLink n g).beat = s.beat := rfl
@[simp] theorem State.updLink_self (n : Nat) (g : Link → Link) : (s.updLink n g).self = s.self := rfl
@[simp] theorem State.updLink_profile (n : Nat) (g : Link → Link) : (s.updLink n g).profile = s.profile := rfl
@[simp] theorem State.updLink_tile (n : Nat) (g : Link → Link) (u : Nat) : (s.updLink n g).tile u = s.tile u := rfl
@[simp] theorem State.updLink_root (n : Nat) (g : Link → Link) (u : Nat) : (s.updLink n g).root u = s.root u := rfl
@[simp] theorem State.updLink_rve (n : Nat) (g : Link → Link) (u : Nat) : (s.updLink n g).rve u = s.rve u := rfl
@[simp] theorem State.updLink_ctr (n : Nat) (g : Link → Link) (u : Nat) : (s.updLink n g).ctr u = s.ctr u := rfl
@[simp] theorem State.updLink_value (n : Nat) (g : Link → Link) (u : Nat) : (s.updLink n g).value u = s.value u := rfl
@[simp] theorem State.updLink_port (n : Nat) (g : Link → Link) (u : Nat) : (s.updLink n g).port u = s.port u := rfl
@[simp] theorem State.updLink_qp (n : Nat) (g : Link → Link) (u : Nat) : (s.updLink n g).qp u = s.qp u := rfl
@[simp] theorem State.updLink_rc (n : Nat) (g : Link → Link) : (s.updLink n g).rc = s.rc := rfl
@[simp] theorem State.updLink_atRc (n : Nat) (g : Link → Link) : (s.updLink n g).atRc = s.atRc := rfl
@[simp] theorem State.updLink_cycleNow (n : Nat) (g : Link → Link) : (s.updLink n g).cycleNow = s.cycleNow := rfl
@[simp] theorem State.updLink_errCycle (n : Nat) (g : Link → Link) : (s.updLink n g).errCycle = s.errCycle := rfl
@[simp] theorem State.updLink_sigCycle (n : Nat) (g : Link → Link) : (s.updLink n g).sigCycle = s.sigCycle := rfl
@[simp] theorem State.updLink_inRun (n : Nat) (g : Link → Link) : (s.updLink n g).inRun = s.inRun := rfl
@[simp] theorem State.updLink_idleRun (n : Nat) (g : Link → Link) : (s.updLink n g).idleRun = s.idleRun := rfl
@[simp] theorem State.updLink_ticking (n : Nat) (g : Link → Link) : (s.updLink n g).ticking = s.ticking := rfl

/-! ## setCtr -/

@[simp] theorem State.setCtr_pending (k : Nat) (c : Counter) : (s.setCtr k c).pending = s.pending := rfl
@[simp] theorem State.setCtr_edge (k : Nat) (c : Counter) : (s.setCtr k c).edge = s.edge := rfl
@[simp] theorem State.setCtr_regs (k : Nat) (c : Counter) : (s.setCtr k c).regs = s.regs := rfl
@[simp] theorem State.setCtr_staged (k : Nat) (c : Counter) : (s.setCtr k c).staged = s.staged := rfl
@[simp] theorem State.setCtr_commit (k : Nat) (c : Counter) : (s.setCtr k c).commit = s.commit := rfl
@[simp] theorem State.setCtr_run (k : Nat) (c : Counter) : (s.setCtr k c).run = s.run := rfl
@[simp] theorem State.setCtr_esc (k : Nat) (c : Counter) : (s.setCtr k c).esc = s.esc := rfl
@[simp] theorem State.setCtr_job (k : Nat) (c : Counter) : (s.setCtr k c).job = s.job := rfl
@[simp] theorem State.setCtr_bt (k : Nat) (c : Counter) : (s.setCtr k c).bt = s.bt := rfl
@[simp] theorem State.setCtr_unclean (k : Nat) (c : Counter) : (s.setCtr k c).unclean = s.unclean := rfl
@[simp] theorem State.setCtr_uncleanNext (k : Nat) (c : Counter) : (s.setCtr k c).uncleanNext = s.uncleanNext := rfl
@[simp] theorem State.setCtr_waiters (k : Nat) (c : Counter) : (s.setCtr k c).waiters = s.waiters := rfl
@[simp] theorem State.setCtr_shadows (k : Nat) (c : Counter) : (s.setCtr k c).shadows = s.shadows := rfl
@[simp] theorem State.setCtr_tiles (k : Nat) (c : Counter) : (s.setCtr k c).tiles = s.tiles := rfl
@[simp] theorem State.setCtr_lanes (k : Nat) (c : Counter) : (s.setCtr k c).lanes = s.lanes := rfl
@[simp] theorem State.setCtr_xout (k : Nat) (c : Counter) : (s.setCtr k c).xout = s.xout := rfl
@[simp] theorem State.setCtr_net (k : Nat) (c : Counter) : (s.setCtr k c).net = s.net := rfl
@[simp] theorem State.setCtr_credits (k : Nat) (c : Counter) : (s.setCtr k c).credits = s.credits := rfl
@[simp] theorem State.setCtr_slotUse (k : Nat) (c : Counter) : (s.setCtr k c).slotUse = s.slotUse := rfl
@[simp] theorem State.setCtr_consOps (k : Nat) (c : Counter) : (s.setCtr k c).consOps = s.consOps := rfl
@[simp] theorem State.setCtr_sigOps (k : Nat) (c : Counter) : (s.setCtr k c).sigOps = s.sigOps := rfl
@[simp] theorem State.setCtr_refFrom (k : Nat) (c : Counter) : (s.setCtr k c).refFrom = s.refFrom := rfl
@[simp] theorem State.setCtr_clearEnd (k : Nat) (c : Counter) : (s.setCtr k c).clearEnd = s.clearEnd := rfl
@[simp] theorem State.setCtr_wires (k : Nat) (c : Counter) : (s.setCtr k c).wires = s.wires := rfl
@[simp] theorem State.setCtr_w1cSets (k : Nat) (c : Counter) : (s.setCtr k c).w1cSets = s.w1cSets := rfl
@[simp] theorem State.setCtr_roots (k : Nat) (c : Counter) : (s.setCtr k c).roots = s.roots := rfl
@[simp] theorem State.setCtr_dram (k : Nat) (c : Counter) : (s.setCtr k c).dram = s.dram := rfl
@[simp] theorem State.setCtr_dramBad (k : Nat) (c : Counter) : (s.setCtr k c).dramBad = s.dramBad := rfl
@[simp] theorem State.setCtr_permute (k : Nat) (c : Counter) : (s.setCtr k c).permute = s.permute := rfl
@[simp] theorem State.setCtr_armBeat (k : Nat) (c : Counter) : (s.setCtr k c).armBeat = s.armBeat := rfl
@[simp] theorem State.setCtr_stopBeat (k : Nat) (c : Counter) : (s.setCtr k c).stopBeat = s.stopBeat := rfl
@[simp] theorem State.setCtr_refTick (k : Nat) (c : Counter) : (s.setCtr k c).refTick = s.refTick := rfl
@[simp] theorem State.setCtr_links (k : Nat) (c : Counter) : (s.setCtr k c).links = s.links := rfl
@[simp] theorem State.setCtr_errs (k : Nat) (c : Counter) : (s.setCtr k c).errs = s.errs := rfl
@[simp] theorem State.setCtr_ports (k : Nat) (c : Counter) : (s.setCtr k c).ports = s.ports := rfl
@[simp] theorem State.setCtr_qps (k : Nat) (c : Counter) : (s.setCtr k c).qps = s.qps := rfl
@[simp] theorem State.setCtr_sent (k : Nat) (c : Counter) : (s.setCtr k c).sent = s.sent := rfl
@[simp] theorem State.setCtr_crown (k : Nat) (c : Counter) : (s.setCtr k c).crown = s.crown := rfl
@[simp] theorem State.setCtr_flash (k : Nat) (c : Counter) : (s.setCtr k c).flash = s.flash := rfl
@[simp] theorem State.setCtr_seqr (k : Nat) (c : Counter) : (s.setCtr k c).seqr = s.seqr := rfl
@[simp] theorem State.setCtr_reg (k : Nat) (c : Counter) : (s.setCtr k c).reg = s.reg := rfl
@[simp] theorem State.setCtr_tap (k : Nat) (c : Counter) : (s.setCtr k c).tap = s.tap := rfl
@[simp] theorem State.setCtr_freeCtr (k : Nat) (c : Counter) : (s.setCtr k c).freeCtr = s.freeCtr := rfl
@[simp] theorem State.setCtr_fld (k : Nat) (c : Counter) (h : RegField) (a b : Nat) : (s.setCtr k c).fld h a b = s.fld h a b := rfl
@[simp] theorem State.setCtr_beat (k : Nat) (c : Counter) : (s.setCtr k c).beat = s.beat := rfl
@[simp] theorem State.setCtr_self (k : Nat) (c : Counter) : (s.setCtr k c).self = s.self := rfl
@[simp] theorem State.setCtr_profile (k : Nat) (c : Counter) : (s.setCtr k c).profile = s.profile := rfl
@[simp] theorem State.setCtr_tile (k : Nat) (c : Counter) (u : Nat) : (s.setCtr k c).tile u = s.tile u := rfl
@[simp] theorem State.setCtr_root (k : Nat) (c : Counter) (u : Nat) : (s.setCtr k c).root u = s.root u := rfl
@[simp] theorem State.setCtr_rve (k : Nat) (c : Counter) (u : Nat) : (s.setCtr k c).rve u = s.rve u := rfl
@[simp] theorem State.setCtr_link (k : Nat) (c : Counter) (u : Nat) : (s.setCtr k c).link u = s.link u := rfl
@[simp] theorem State.setCtr_port (k : Nat) (c : Counter) (u : Nat) : (s.setCtr k c).port u = s.port u := rfl
@[simp] theorem State.setCtr_qp (k : Nat) (c : Counter) (u : Nat) : (s.setCtr k c).qp u = s.qp u := rfl
@[simp] theorem State.setCtr_rc (k : Nat) (c : Counter) : (s.setCtr k c).rc = s.rc := rfl
@[simp] theorem State.setCtr_atRc (k : Nat) (c : Counter) : (s.setCtr k c).atRc = s.atRc := rfl
@[simp] theorem State.setCtr_cycleNow (k : Nat) (c : Counter) : (s.setCtr k c).cycleNow = s.cycleNow := rfl
@[simp] theorem State.setCtr_errCycle (k : Nat) (c : Counter) : (s.setCtr k c).errCycle = s.errCycle := rfl
@[simp] theorem State.setCtr_sigCycle (k : Nat) (c : Counter) : (s.setCtr k c).sigCycle = s.sigCycle := rfl
@[simp] theorem State.setCtr_inRun (k : Nat) (c : Counter) : (s.setCtr k c).inRun = s.inRun := rfl
@[simp] theorem State.setCtr_idleRun (k : Nat) (c : Counter) : (s.setCtr k c).idleRun = s.idleRun := rfl
@[simp] theorem State.setCtr_ticking (k : Nat) (c : Counter) : (s.setCtr k c).ticking = s.ticking := rfl

/-! ## note -/

@[simp] theorem State.note_pending (e : ErrNote) : (s.note e).pending = s.pending := rfl
@[simp] theorem State.note_edge (e : ErrNote) : (s.note e).edge = s.edge := rfl
@[simp] theorem State.note_regs (e : ErrNote) : (s.note e).regs = s.regs := rfl
@[simp] theorem State.note_staged (e : ErrNote) : (s.note e).staged = s.staged := rfl
@[simp] theorem State.note_commit (e : ErrNote) : (s.note e).commit = s.commit := rfl
@[simp] theorem State.note_run (e : ErrNote) : (s.note e).run = s.run := rfl
@[simp] theorem State.note_esc (e : ErrNote) : (s.note e).esc = s.esc := rfl
@[simp] theorem State.note_job (e : ErrNote) : (s.note e).job = s.job := rfl
@[simp] theorem State.note_bt (e : ErrNote) : (s.note e).bt = s.bt := rfl
@[simp] theorem State.note_unclean (e : ErrNote) : (s.note e).unclean = s.unclean := rfl
@[simp] theorem State.note_uncleanNext (e : ErrNote) : (s.note e).uncleanNext = s.uncleanNext := rfl
@[simp] theorem State.note_counters (e : ErrNote) : (s.note e).counters = s.counters := rfl
@[simp] theorem State.note_waiters (e : ErrNote) : (s.note e).waiters = s.waiters := rfl
@[simp] theorem State.note_shadows (e : ErrNote) : (s.note e).shadows = s.shadows := rfl
@[simp] theorem State.note_tiles (e : ErrNote) : (s.note e).tiles = s.tiles := rfl
@[simp] theorem State.note_lanes (e : ErrNote) : (s.note e).lanes = s.lanes := rfl
@[simp] theorem State.note_xout (e : ErrNote) : (s.note e).xout = s.xout := rfl
@[simp] theorem State.note_net (e : ErrNote) : (s.note e).net = s.net := rfl
@[simp] theorem State.note_credits (e : ErrNote) : (s.note e).credits = s.credits := rfl
@[simp] theorem State.note_slotUse (e : ErrNote) : (s.note e).slotUse = s.slotUse := rfl
@[simp] theorem State.note_consOps (e : ErrNote) : (s.note e).consOps = s.consOps := rfl
@[simp] theorem State.note_sigOps (e : ErrNote) : (s.note e).sigOps = s.sigOps := rfl
@[simp] theorem State.note_refFrom (e : ErrNote) : (s.note e).refFrom = s.refFrom := rfl
@[simp] theorem State.note_clearEnd (e : ErrNote) : (s.note e).clearEnd = s.clearEnd := rfl
@[simp] theorem State.note_wires (e : ErrNote) : (s.note e).wires = s.wires := rfl
@[simp] theorem State.note_w1cSets (e : ErrNote) : (s.note e).w1cSets = s.w1cSets := rfl
@[simp] theorem State.note_roots (e : ErrNote) : (s.note e).roots = s.roots := rfl
@[simp] theorem State.note_dram (e : ErrNote) : (s.note e).dram = s.dram := rfl
@[simp] theorem State.note_dramBad (e : ErrNote) : (s.note e).dramBad = s.dramBad := rfl
@[simp] theorem State.note_permute (e : ErrNote) : (s.note e).permute = s.permute := rfl
@[simp] theorem State.note_armBeat (e : ErrNote) : (s.note e).armBeat = s.armBeat := rfl
@[simp] theorem State.note_stopBeat (e : ErrNote) : (s.note e).stopBeat = s.stopBeat := rfl
@[simp] theorem State.note_refTick (e : ErrNote) : (s.note e).refTick = s.refTick := rfl
@[simp] theorem State.note_links (e : ErrNote) : (s.note e).links = s.links := rfl
@[simp] theorem State.note_ports (e : ErrNote) : (s.note e).ports = s.ports := rfl
@[simp] theorem State.note_qps (e : ErrNote) : (s.note e).qps = s.qps := rfl
@[simp] theorem State.note_sent (e : ErrNote) : (s.note e).sent = s.sent := rfl
@[simp] theorem State.note_crown (e : ErrNote) : (s.note e).crown = s.crown := rfl
@[simp] theorem State.note_flash (e : ErrNote) : (s.note e).flash = s.flash := rfl
@[simp] theorem State.note_seqr (e : ErrNote) : (s.note e).seqr = s.seqr := rfl
@[simp] theorem State.note_reg (e : ErrNote) : (s.note e).reg = s.reg := rfl
@[simp] theorem State.note_tap (e : ErrNote) : (s.note e).tap = s.tap := rfl
@[simp] theorem State.note_freeCtr (e : ErrNote) : (s.note e).freeCtr = s.freeCtr := rfl
@[simp] theorem State.note_fld (e : ErrNote) (h : RegField) (a b : Nat) : (s.note e).fld h a b = s.fld h a b := rfl
@[simp] theorem State.note_beat (e : ErrNote) : (s.note e).beat = s.beat := rfl
@[simp] theorem State.note_self (e : ErrNote) : (s.note e).self = s.self := rfl
@[simp] theorem State.note_profile (e : ErrNote) : (s.note e).profile = s.profile := rfl
@[simp] theorem State.note_tile (e : ErrNote) (u : Nat) : (s.note e).tile u = s.tile u := rfl
@[simp] theorem State.note_root (e : ErrNote) (u : Nat) : (s.note e).root u = s.root u := rfl
@[simp] theorem State.note_rve (e : ErrNote) (u : Nat) : (s.note e).rve u = s.rve u := rfl
@[simp] theorem State.note_link (e : ErrNote) (u : Nat) : (s.note e).link u = s.link u := rfl
@[simp] theorem State.note_ctr (e : ErrNote) (u : Nat) : (s.note e).ctr u = s.ctr u := rfl
@[simp] theorem State.note_value (e : ErrNote) (u : Nat) : (s.note e).value u = s.value u := rfl
@[simp] theorem State.note_port (e : ErrNote) (u : Nat) : (s.note e).port u = s.port u := rfl
@[simp] theorem State.note_qp (e : ErrNote) (u : Nat) : (s.note e).qp u = s.qp u := rfl
@[simp] theorem State.note_rc (e : ErrNote) : (s.note e).rc = s.rc := rfl
@[simp] theorem State.note_atRc (e : ErrNote) : (s.note e).atRc = s.atRc := rfl
@[simp] theorem State.note_cycleNow (e : ErrNote) : (s.note e).cycleNow = s.cycleNow := rfl
@[simp] theorem State.note_errCycle (e : ErrNote) : (s.note e).errCycle = s.errCycle := rfl
@[simp] theorem State.note_sigCycle (e : ErrNote) : (s.note e).sigCycle = s.sigCycle := rfl
@[simp] theorem State.note_inRun (e : ErrNote) : (s.note e).inRun = s.inRun := rfl
@[simp] theorem State.note_idleRun (e : ErrNote) : (s.note e).idleRun = s.idleRun := rfl
@[simp] theorem State.note_ticking (e : ErrNote) : (s.note e).ticking = s.ticking := rfl

/-! ## send -/

@[simp] theorem State.send_pending (buf n : Nat) (p : Packet) : (s.send buf n p).pending = s.pending := rfl
@[simp] theorem State.send_edge (buf n : Nat) (p : Packet) : (s.send buf n p).edge = s.edge := rfl
@[simp] theorem State.send_regs (buf n : Nat) (p : Packet) : (s.send buf n p).regs = s.regs := rfl
@[simp] theorem State.send_staged (buf n : Nat) (p : Packet) : (s.send buf n p).staged = s.staged := rfl
@[simp] theorem State.send_commit (buf n : Nat) (p : Packet) : (s.send buf n p).commit = s.commit := rfl
@[simp] theorem State.send_run (buf n : Nat) (p : Packet) : (s.send buf n p).run = s.run := rfl
@[simp] theorem State.send_esc (buf n : Nat) (p : Packet) : (s.send buf n p).esc = s.esc := rfl
@[simp] theorem State.send_job (buf n : Nat) (p : Packet) : (s.send buf n p).job = s.job := rfl
@[simp] theorem State.send_bt (buf n : Nat) (p : Packet) : (s.send buf n p).bt = s.bt := rfl
@[simp] theorem State.send_unclean (buf n : Nat) (p : Packet) : (s.send buf n p).unclean = s.unclean := rfl
@[simp] theorem State.send_uncleanNext (buf n : Nat) (p : Packet) : (s.send buf n p).uncleanNext = s.uncleanNext := rfl
@[simp] theorem State.send_counters (buf n : Nat) (p : Packet) : (s.send buf n p).counters = s.counters := rfl
@[simp] theorem State.send_waiters (buf n : Nat) (p : Packet) : (s.send buf n p).waiters = s.waiters := rfl
@[simp] theorem State.send_shadows (buf n : Nat) (p : Packet) : (s.send buf n p).shadows = s.shadows := rfl
@[simp] theorem State.send_tiles (buf n : Nat) (p : Packet) : (s.send buf n p).tiles = s.tiles := rfl
@[simp] theorem State.send_lanes (buf n : Nat) (p : Packet) : (s.send buf n p).lanes = s.lanes := rfl
@[simp] theorem State.send_xout (buf n : Nat) (p : Packet) : (s.send buf n p).xout = s.xout := rfl
@[simp] theorem State.send_credits (buf n : Nat) (p : Packet) : (s.send buf n p).credits = s.credits := rfl
@[simp] theorem State.send_slotUse (buf n : Nat) (p : Packet) : (s.send buf n p).slotUse = s.slotUse := rfl
@[simp] theorem State.send_consOps (buf n : Nat) (p : Packet) : (s.send buf n p).consOps = s.consOps := rfl
@[simp] theorem State.send_sigOps (buf n : Nat) (p : Packet) : (s.send buf n p).sigOps = s.sigOps := rfl
@[simp] theorem State.send_refFrom (buf n : Nat) (p : Packet) : (s.send buf n p).refFrom = s.refFrom := rfl
@[simp] theorem State.send_clearEnd (buf n : Nat) (p : Packet) : (s.send buf n p).clearEnd = s.clearEnd := rfl
@[simp] theorem State.send_wires (buf n : Nat) (p : Packet) : (s.send buf n p).wires = s.wires := rfl
@[simp] theorem State.send_w1cSets (buf n : Nat) (p : Packet) : (s.send buf n p).w1cSets = s.w1cSets := rfl
@[simp] theorem State.send_roots (buf n : Nat) (p : Packet) : (s.send buf n p).roots = s.roots := rfl
@[simp] theorem State.send_dram (buf n : Nat) (p : Packet) : (s.send buf n p).dram = s.dram := rfl
@[simp] theorem State.send_dramBad (buf n : Nat) (p : Packet) : (s.send buf n p).dramBad = s.dramBad := rfl
@[simp] theorem State.send_permute (buf n : Nat) (p : Packet) : (s.send buf n p).permute = s.permute := rfl
@[simp] theorem State.send_armBeat (buf n : Nat) (p : Packet) : (s.send buf n p).armBeat = s.armBeat := rfl
@[simp] theorem State.send_stopBeat (buf n : Nat) (p : Packet) : (s.send buf n p).stopBeat = s.stopBeat := rfl
@[simp] theorem State.send_refTick (buf n : Nat) (p : Packet) : (s.send buf n p).refTick = s.refTick := rfl
@[simp] theorem State.send_links (buf n : Nat) (p : Packet) : (s.send buf n p).links = s.links := rfl
@[simp] theorem State.send_errs (buf n : Nat) (p : Packet) : (s.send buf n p).errs = s.errs := rfl
@[simp] theorem State.send_ports (buf n : Nat) (p : Packet) : (s.send buf n p).ports = s.ports := rfl
@[simp] theorem State.send_qps (buf n : Nat) (p : Packet) : (s.send buf n p).qps = s.qps := rfl
@[simp] theorem State.send_sent (buf n : Nat) (p : Packet) : (s.send buf n p).sent = s.sent := rfl
@[simp] theorem State.send_crown (buf n : Nat) (p : Packet) : (s.send buf n p).crown = s.crown := rfl
@[simp] theorem State.send_flash (buf n : Nat) (p : Packet) : (s.send buf n p).flash = s.flash := rfl
@[simp] theorem State.send_seqr (buf n : Nat) (p : Packet) : (s.send buf n p).seqr = s.seqr := rfl
@[simp] theorem State.send_reg (buf n : Nat) (p : Packet) : (s.send buf n p).reg = s.reg := rfl
@[simp] theorem State.send_tap (buf n : Nat) (p : Packet) : (s.send buf n p).tap = s.tap := rfl
@[simp] theorem State.send_freeCtr (buf n : Nat) (p : Packet) : (s.send buf n p).freeCtr = s.freeCtr := rfl
@[simp] theorem State.send_fld (buf n : Nat) (p : Packet) (h : RegField) (a b : Nat) : (s.send buf n p).fld h a b = s.fld h a b := rfl
@[simp] theorem State.send_beat (buf n : Nat) (p : Packet) : (s.send buf n p).beat = s.beat := rfl
@[simp] theorem State.send_self (buf n : Nat) (p : Packet) : (s.send buf n p).self = s.self := rfl
@[simp] theorem State.send_profile (buf n : Nat) (p : Packet) : (s.send buf n p).profile = s.profile := rfl
@[simp] theorem State.send_tile (buf n : Nat) (p : Packet) (u : Nat) : (s.send buf n p).tile u = s.tile u := rfl
@[simp] theorem State.send_root (buf n : Nat) (p : Packet) (u : Nat) : (s.send buf n p).root u = s.root u := rfl
@[simp] theorem State.send_rve (buf n : Nat) (p : Packet) (u : Nat) : (s.send buf n p).rve u = s.rve u := rfl
@[simp] theorem State.send_link (buf n : Nat) (p : Packet) (u : Nat) : (s.send buf n p).link u = s.link u := rfl
@[simp] theorem State.send_ctr (buf n : Nat) (p : Packet) (u : Nat) : (s.send buf n p).ctr u = s.ctr u := rfl
@[simp] theorem State.send_value (buf n : Nat) (p : Packet) (u : Nat) : (s.send buf n p).value u = s.value u := rfl
@[simp] theorem State.send_port (buf n : Nat) (p : Packet) (u : Nat) : (s.send buf n p).port u = s.port u := rfl
@[simp] theorem State.send_qp (buf n : Nat) (p : Packet) (u : Nat) : (s.send buf n p).qp u = s.qp u := rfl
@[simp] theorem State.send_rc (buf n : Nat) (p : Packet) : (s.send buf n p).rc = s.rc := rfl
@[simp] theorem State.send_atRc (buf n : Nat) (p : Packet) : (s.send buf n p).atRc = s.atRc := rfl
@[simp] theorem State.send_cycleNow (buf n : Nat) (p : Packet) : (s.send buf n p).cycleNow = s.cycleNow := rfl
@[simp] theorem State.send_errCycle (buf n : Nat) (p : Packet) : (s.send buf n p).errCycle = s.errCycle := rfl
@[simp] theorem State.send_sigCycle (buf n : Nat) (p : Packet) : (s.send buf n p).sigCycle = s.sigCycle := rfl
@[simp] theorem State.send_inRun (buf n : Nat) (p : Packet) : (s.send buf n p).inRun = s.inRun := rfl
@[simp] theorem State.send_idleRun (buf n : Nat) (p : Packet) : (s.send buf n p).idleRun = s.idleRun := rfl
@[simp] theorem State.send_ticking (buf n : Nat) (p : Packet) : (s.send buf n p).ticking = s.ticking := rfl

/-! ## take -/

@[simp] theorem State.take_pending (p : Packet) : (s.take p).pending = s.pending := rfl
@[simp] theorem State.take_edge (p : Packet) : (s.take p).edge = s.edge := rfl
@[simp] theorem State.take_regs (p : Packet) : (s.take p).regs = s.regs := rfl
@[simp] theorem State.take_staged (p : Packet) : (s.take p).staged = s.staged := rfl
@[simp] theorem State.take_commit (p : Packet) : (s.take p).commit = s.commit := rfl
@[simp] theorem State.take_run (p : Packet) : (s.take p).run = s.run := rfl
@[simp] theorem State.take_esc (p : Packet) : (s.take p).esc = s.esc := rfl
@[simp] theorem State.take_job (p : Packet) : (s.take p).job = s.job := rfl
@[simp] theorem State.take_bt (p : Packet) : (s.take p).bt = s.bt := rfl
@[simp] theorem State.take_unclean (p : Packet) : (s.take p).unclean = s.unclean := rfl
@[simp] theorem State.take_uncleanNext (p : Packet) : (s.take p).uncleanNext = s.uncleanNext := rfl
@[simp] theorem State.take_counters (p : Packet) : (s.take p).counters = s.counters := rfl
@[simp] theorem State.take_waiters (p : Packet) : (s.take p).waiters = s.waiters := rfl
@[simp] theorem State.take_shadows (p : Packet) : (s.take p).shadows = s.shadows := rfl
@[simp] theorem State.take_tiles (p : Packet) : (s.take p).tiles = s.tiles := rfl
@[simp] theorem State.take_lanes (p : Packet) : (s.take p).lanes = s.lanes := rfl
@[simp] theorem State.take_xout (p : Packet) : (s.take p).xout = s.xout := rfl
@[simp] theorem State.take_slotUse (p : Packet) : (s.take p).slotUse = s.slotUse := rfl
@[simp] theorem State.take_consOps (p : Packet) : (s.take p).consOps = s.consOps := rfl
@[simp] theorem State.take_sigOps (p : Packet) : (s.take p).sigOps = s.sigOps := rfl
@[simp] theorem State.take_refFrom (p : Packet) : (s.take p).refFrom = s.refFrom := rfl
@[simp] theorem State.take_clearEnd (p : Packet) : (s.take p).clearEnd = s.clearEnd := rfl
@[simp] theorem State.take_wires (p : Packet) : (s.take p).wires = s.wires := rfl
@[simp] theorem State.take_w1cSets (p : Packet) : (s.take p).w1cSets = s.w1cSets := rfl
@[simp] theorem State.take_roots (p : Packet) : (s.take p).roots = s.roots := rfl
@[simp] theorem State.take_dram (p : Packet) : (s.take p).dram = s.dram := rfl
@[simp] theorem State.take_dramBad (p : Packet) : (s.take p).dramBad = s.dramBad := rfl
@[simp] theorem State.take_permute (p : Packet) : (s.take p).permute = s.permute := rfl
@[simp] theorem State.take_armBeat (p : Packet) : (s.take p).armBeat = s.armBeat := rfl
@[simp] theorem State.take_stopBeat (p : Packet) : (s.take p).stopBeat = s.stopBeat := rfl
@[simp] theorem State.take_refTick (p : Packet) : (s.take p).refTick = s.refTick := rfl
@[simp] theorem State.take_links (p : Packet) : (s.take p).links = s.links := rfl
@[simp] theorem State.take_errs (p : Packet) : (s.take p).errs = s.errs := rfl
@[simp] theorem State.take_ports (p : Packet) : (s.take p).ports = s.ports := rfl
@[simp] theorem State.take_qps (p : Packet) : (s.take p).qps = s.qps := rfl
@[simp] theorem State.take_sent (p : Packet) : (s.take p).sent = s.sent := rfl
@[simp] theorem State.take_crown (p : Packet) : (s.take p).crown = s.crown := rfl
@[simp] theorem State.take_flash (p : Packet) : (s.take p).flash = s.flash := rfl
@[simp] theorem State.take_seqr (p : Packet) : (s.take p).seqr = s.seqr := rfl
@[simp] theorem State.take_reg (p : Packet) : (s.take p).reg = s.reg := rfl
@[simp] theorem State.take_tap (p : Packet) : (s.take p).tap = s.tap := rfl
@[simp] theorem State.take_freeCtr (p : Packet) : (s.take p).freeCtr = s.freeCtr := rfl
@[simp] theorem State.take_fld (p : Packet) (h : RegField) (a b : Nat) : (s.take p).fld h a b = s.fld h a b := rfl
@[simp] theorem State.take_beat (p : Packet) : (s.take p).beat = s.beat := rfl
@[simp] theorem State.take_self (p : Packet) : (s.take p).self = s.self := rfl
@[simp] theorem State.take_profile (p : Packet) : (s.take p).profile = s.profile := rfl
@[simp] theorem State.take_tile (p : Packet) (u : Nat) : (s.take p).tile u = s.tile u := rfl
@[simp] theorem State.take_root (p : Packet) (u : Nat) : (s.take p).root u = s.root u := rfl
@[simp] theorem State.take_rve (p : Packet) (u : Nat) : (s.take p).rve u = s.rve u := rfl
@[simp] theorem State.take_link (p : Packet) (u : Nat) : (s.take p).link u = s.link u := rfl
@[simp] theorem State.take_ctr (p : Packet) (u : Nat) : (s.take p).ctr u = s.ctr u := rfl
@[simp] theorem State.take_value (p : Packet) (u : Nat) : (s.take p).value u = s.value u := rfl
@[simp] theorem State.take_port (p : Packet) (u : Nat) : (s.take p).port u = s.port u := rfl
@[simp] theorem State.take_qp (p : Packet) (u : Nat) : (s.take p).qp u = s.qp u := rfl
@[simp] theorem State.take_rc (p : Packet) : (s.take p).rc = s.rc := rfl
@[simp] theorem State.take_atRc (p : Packet) : (s.take p).atRc = s.atRc := rfl
@[simp] theorem State.take_cycleNow (p : Packet) : (s.take p).cycleNow = s.cycleNow := rfl
@[simp] theorem State.take_errCycle (p : Packet) : (s.take p).errCycle = s.errCycle := rfl
@[simp] theorem State.take_sigCycle (p : Packet) : (s.take p).sigCycle = s.sigCycle := rfl
@[simp] theorem State.take_inRun (p : Packet) : (s.take p).inRun = s.inRun := rfl
@[simp] theorem State.take_idleRun (p : Packet) : (s.take p).idleRun = s.idleRun := rfl
@[simp] theorem State.take_ticking (p : Packet) : (s.take p).ticking = s.ticking := rfl

/-! ## setPort -/

@[simp] theorem State.setPort_pending (p : Nat) (x : Port) : (s.setPort p x).pending = s.pending := rfl
@[simp] theorem State.setPort_edge (p : Nat) (x : Port) : (s.setPort p x).edge = s.edge := rfl
@[simp] theorem State.setPort_regs (p : Nat) (x : Port) : (s.setPort p x).regs = s.regs := rfl
@[simp] theorem State.setPort_staged (p : Nat) (x : Port) : (s.setPort p x).staged = s.staged := rfl
@[simp] theorem State.setPort_commit (p : Nat) (x : Port) : (s.setPort p x).commit = s.commit := rfl
@[simp] theorem State.setPort_run (p : Nat) (x : Port) : (s.setPort p x).run = s.run := rfl
@[simp] theorem State.setPort_esc (p : Nat) (x : Port) : (s.setPort p x).esc = s.esc := rfl
@[simp] theorem State.setPort_job (p : Nat) (x : Port) : (s.setPort p x).job = s.job := rfl
@[simp] theorem State.setPort_bt (p : Nat) (x : Port) : (s.setPort p x).bt = s.bt := rfl
@[simp] theorem State.setPort_unclean (p : Nat) (x : Port) : (s.setPort p x).unclean = s.unclean := rfl
@[simp] theorem State.setPort_uncleanNext (p : Nat) (x : Port) : (s.setPort p x).uncleanNext = s.uncleanNext := rfl
@[simp] theorem State.setPort_counters (p : Nat) (x : Port) : (s.setPort p x).counters = s.counters := rfl
@[simp] theorem State.setPort_waiters (p : Nat) (x : Port) : (s.setPort p x).waiters = s.waiters := rfl
@[simp] theorem State.setPort_shadows (p : Nat) (x : Port) : (s.setPort p x).shadows = s.shadows := rfl
@[simp] theorem State.setPort_tiles (p : Nat) (x : Port) : (s.setPort p x).tiles = s.tiles := rfl
@[simp] theorem State.setPort_lanes (p : Nat) (x : Port) : (s.setPort p x).lanes = s.lanes := rfl
@[simp] theorem State.setPort_xout (p : Nat) (x : Port) : (s.setPort p x).xout = s.xout := rfl
@[simp] theorem State.setPort_net (p : Nat) (x : Port) : (s.setPort p x).net = s.net := rfl
@[simp] theorem State.setPort_credits (p : Nat) (x : Port) : (s.setPort p x).credits = s.credits := rfl
@[simp] theorem State.setPort_slotUse (p : Nat) (x : Port) : (s.setPort p x).slotUse = s.slotUse := rfl
@[simp] theorem State.setPort_consOps (p : Nat) (x : Port) : (s.setPort p x).consOps = s.consOps := rfl
@[simp] theorem State.setPort_sigOps (p : Nat) (x : Port) : (s.setPort p x).sigOps = s.sigOps := rfl
@[simp] theorem State.setPort_refFrom (p : Nat) (x : Port) : (s.setPort p x).refFrom = s.refFrom := rfl
@[simp] theorem State.setPort_clearEnd (p : Nat) (x : Port) : (s.setPort p x).clearEnd = s.clearEnd := rfl
@[simp] theorem State.setPort_wires (p : Nat) (x : Port) : (s.setPort p x).wires = s.wires := rfl
@[simp] theorem State.setPort_w1cSets (p : Nat) (x : Port) : (s.setPort p x).w1cSets = s.w1cSets := rfl
@[simp] theorem State.setPort_roots (p : Nat) (x : Port) : (s.setPort p x).roots = s.roots := rfl
@[simp] theorem State.setPort_dram (p : Nat) (x : Port) : (s.setPort p x).dram = s.dram := rfl
@[simp] theorem State.setPort_dramBad (p : Nat) (x : Port) : (s.setPort p x).dramBad = s.dramBad := rfl
@[simp] theorem State.setPort_permute (p : Nat) (x : Port) : (s.setPort p x).permute = s.permute := rfl
@[simp] theorem State.setPort_armBeat (p : Nat) (x : Port) : (s.setPort p x).armBeat = s.armBeat := rfl
@[simp] theorem State.setPort_stopBeat (p : Nat) (x : Port) : (s.setPort p x).stopBeat = s.stopBeat := rfl
@[simp] theorem State.setPort_refTick (p : Nat) (x : Port) : (s.setPort p x).refTick = s.refTick := rfl
@[simp] theorem State.setPort_links (p : Nat) (x : Port) : (s.setPort p x).links = s.links := rfl
@[simp] theorem State.setPort_errs (p : Nat) (x : Port) : (s.setPort p x).errs = s.errs := rfl
@[simp] theorem State.setPort_qps (p : Nat) (x : Port) : (s.setPort p x).qps = s.qps := rfl
@[simp] theorem State.setPort_sent (p : Nat) (x : Port) : (s.setPort p x).sent = s.sent := rfl
@[simp] theorem State.setPort_crown (p : Nat) (x : Port) : (s.setPort p x).crown = s.crown := rfl
@[simp] theorem State.setPort_flash (p : Nat) (x : Port) : (s.setPort p x).flash = s.flash := rfl
@[simp] theorem State.setPort_seqr (p : Nat) (x : Port) : (s.setPort p x).seqr = s.seqr := rfl
@[simp] theorem State.setPort_reg (p : Nat) (x : Port) : (s.setPort p x).reg = s.reg := rfl
@[simp] theorem State.setPort_tap (p : Nat) (x : Port) : (s.setPort p x).tap = s.tap := rfl
@[simp] theorem State.setPort_freeCtr (p : Nat) (x : Port) : (s.setPort p x).freeCtr = s.freeCtr := rfl
@[simp] theorem State.setPort_fld (p : Nat) (x : Port) (h : RegField) (a b : Nat) : (s.setPort p x).fld h a b = s.fld h a b := rfl
@[simp] theorem State.setPort_beat (p : Nat) (x : Port) : (s.setPort p x).beat = s.beat := rfl
@[simp] theorem State.setPort_self (p : Nat) (x : Port) : (s.setPort p x).self = s.self := rfl
@[simp] theorem State.setPort_profile (p : Nat) (x : Port) : (s.setPort p x).profile = s.profile := rfl
@[simp] theorem State.setPort_tile (p : Nat) (x : Port) (u : Nat) : (s.setPort p x).tile u = s.tile u := rfl
@[simp] theorem State.setPort_root (p : Nat) (x : Port) (u : Nat) : (s.setPort p x).root u = s.root u := rfl
@[simp] theorem State.setPort_rve (p : Nat) (x : Port) (u : Nat) : (s.setPort p x).rve u = s.rve u := rfl
@[simp] theorem State.setPort_link (p : Nat) (x : Port) (u : Nat) : (s.setPort p x).link u = s.link u := rfl
@[simp] theorem State.setPort_ctr (p : Nat) (x : Port) (u : Nat) : (s.setPort p x).ctr u = s.ctr u := rfl
@[simp] theorem State.setPort_value (p : Nat) (x : Port) (u : Nat) : (s.setPort p x).value u = s.value u := rfl
@[simp] theorem State.setPort_qp (p : Nat) (x : Port) (u : Nat) : (s.setPort p x).qp u = s.qp u := rfl
@[simp] theorem State.setPort_rc (p : Nat) (x : Port) : (s.setPort p x).rc = s.rc := rfl
@[simp] theorem State.setPort_atRc (p : Nat) (x : Port) : (s.setPort p x).atRc = s.atRc := rfl
@[simp] theorem State.setPort_cycleNow (p : Nat) (x : Port) : (s.setPort p x).cycleNow = s.cycleNow := rfl
@[simp] theorem State.setPort_errCycle (p : Nat) (x : Port) : (s.setPort p x).errCycle = s.errCycle := rfl
@[simp] theorem State.setPort_sigCycle (p : Nat) (x : Port) : (s.setPort p x).sigCycle = s.sigCycle := rfl
@[simp] theorem State.setPort_inRun (p : Nat) (x : Port) : (s.setPort p x).inRun = s.inRun := rfl
@[simp] theorem State.setPort_idleRun (p : Nat) (x : Port) : (s.setPort p x).idleRun = s.idleRun := rfl
@[simp] theorem State.setPort_ticking (p : Nat) (x : Port) : (s.setPort p x).ticking = s.ticking := rfl

/-! ## updPort -/

@[simp] theorem State.updPort_pending (p : Nat) (g : Port → Port) : (s.updPort p g).pending = s.pending := rfl
@[simp] theorem State.updPort_edge (p : Nat) (g : Port → Port) : (s.updPort p g).edge = s.edge := rfl
@[simp] theorem State.updPort_regs (p : Nat) (g : Port → Port) : (s.updPort p g).regs = s.regs := rfl
@[simp] theorem State.updPort_staged (p : Nat) (g : Port → Port) : (s.updPort p g).staged = s.staged := rfl
@[simp] theorem State.updPort_commit (p : Nat) (g : Port → Port) : (s.updPort p g).commit = s.commit := rfl
@[simp] theorem State.updPort_run (p : Nat) (g : Port → Port) : (s.updPort p g).run = s.run := rfl
@[simp] theorem State.updPort_esc (p : Nat) (g : Port → Port) : (s.updPort p g).esc = s.esc := rfl
@[simp] theorem State.updPort_job (p : Nat) (g : Port → Port) : (s.updPort p g).job = s.job := rfl
@[simp] theorem State.updPort_bt (p : Nat) (g : Port → Port) : (s.updPort p g).bt = s.bt := rfl
@[simp] theorem State.updPort_unclean (p : Nat) (g : Port → Port) : (s.updPort p g).unclean = s.unclean := rfl
@[simp] theorem State.updPort_uncleanNext (p : Nat) (g : Port → Port) : (s.updPort p g).uncleanNext = s.uncleanNext := rfl
@[simp] theorem State.updPort_counters (p : Nat) (g : Port → Port) : (s.updPort p g).counters = s.counters := rfl
@[simp] theorem State.updPort_waiters (p : Nat) (g : Port → Port) : (s.updPort p g).waiters = s.waiters := rfl
@[simp] theorem State.updPort_shadows (p : Nat) (g : Port → Port) : (s.updPort p g).shadows = s.shadows := rfl
@[simp] theorem State.updPort_tiles (p : Nat) (g : Port → Port) : (s.updPort p g).tiles = s.tiles := rfl
@[simp] theorem State.updPort_lanes (p : Nat) (g : Port → Port) : (s.updPort p g).lanes = s.lanes := rfl
@[simp] theorem State.updPort_xout (p : Nat) (g : Port → Port) : (s.updPort p g).xout = s.xout := rfl
@[simp] theorem State.updPort_net (p : Nat) (g : Port → Port) : (s.updPort p g).net = s.net := rfl
@[simp] theorem State.updPort_credits (p : Nat) (g : Port → Port) : (s.updPort p g).credits = s.credits := rfl
@[simp] theorem State.updPort_slotUse (p : Nat) (g : Port → Port) : (s.updPort p g).slotUse = s.slotUse := rfl
@[simp] theorem State.updPort_consOps (p : Nat) (g : Port → Port) : (s.updPort p g).consOps = s.consOps := rfl
@[simp] theorem State.updPort_sigOps (p : Nat) (g : Port → Port) : (s.updPort p g).sigOps = s.sigOps := rfl
@[simp] theorem State.updPort_refFrom (p : Nat) (g : Port → Port) : (s.updPort p g).refFrom = s.refFrom := rfl
@[simp] theorem State.updPort_clearEnd (p : Nat) (g : Port → Port) : (s.updPort p g).clearEnd = s.clearEnd := rfl
@[simp] theorem State.updPort_wires (p : Nat) (g : Port → Port) : (s.updPort p g).wires = s.wires := rfl
@[simp] theorem State.updPort_w1cSets (p : Nat) (g : Port → Port) : (s.updPort p g).w1cSets = s.w1cSets := rfl
@[simp] theorem State.updPort_roots (p : Nat) (g : Port → Port) : (s.updPort p g).roots = s.roots := rfl
@[simp] theorem State.updPort_dram (p : Nat) (g : Port → Port) : (s.updPort p g).dram = s.dram := rfl
@[simp] theorem State.updPort_dramBad (p : Nat) (g : Port → Port) : (s.updPort p g).dramBad = s.dramBad := rfl
@[simp] theorem State.updPort_permute (p : Nat) (g : Port → Port) : (s.updPort p g).permute = s.permute := rfl
@[simp] theorem State.updPort_armBeat (p : Nat) (g : Port → Port) : (s.updPort p g).armBeat = s.armBeat := rfl
@[simp] theorem State.updPort_stopBeat (p : Nat) (g : Port → Port) : (s.updPort p g).stopBeat = s.stopBeat := rfl
@[simp] theorem State.updPort_refTick (p : Nat) (g : Port → Port) : (s.updPort p g).refTick = s.refTick := rfl
@[simp] theorem State.updPort_links (p : Nat) (g : Port → Port) : (s.updPort p g).links = s.links := rfl
@[simp] theorem State.updPort_errs (p : Nat) (g : Port → Port) : (s.updPort p g).errs = s.errs := rfl
@[simp] theorem State.updPort_qps (p : Nat) (g : Port → Port) : (s.updPort p g).qps = s.qps := rfl
@[simp] theorem State.updPort_sent (p : Nat) (g : Port → Port) : (s.updPort p g).sent = s.sent := rfl
@[simp] theorem State.updPort_crown (p : Nat) (g : Port → Port) : (s.updPort p g).crown = s.crown := rfl
@[simp] theorem State.updPort_flash (p : Nat) (g : Port → Port) : (s.updPort p g).flash = s.flash := rfl
@[simp] theorem State.updPort_seqr (p : Nat) (g : Port → Port) : (s.updPort p g).seqr = s.seqr := rfl
@[simp] theorem State.updPort_reg (p : Nat) (g : Port → Port) : (s.updPort p g).reg = s.reg := rfl
@[simp] theorem State.updPort_tap (p : Nat) (g : Port → Port) : (s.updPort p g).tap = s.tap := rfl
@[simp] theorem State.updPort_freeCtr (p : Nat) (g : Port → Port) : (s.updPort p g).freeCtr = s.freeCtr := rfl
@[simp] theorem State.updPort_fld (p : Nat) (g : Port → Port) (h : RegField) (a b : Nat) : (s.updPort p g).fld h a b = s.fld h a b := rfl
@[simp] theorem State.updPort_beat (p : Nat) (g : Port → Port) : (s.updPort p g).beat = s.beat := rfl
@[simp] theorem State.updPort_self (p : Nat) (g : Port → Port) : (s.updPort p g).self = s.self := rfl
@[simp] theorem State.updPort_profile (p : Nat) (g : Port → Port) : (s.updPort p g).profile = s.profile := rfl
@[simp] theorem State.updPort_tile (p : Nat) (g : Port → Port) (u : Nat) : (s.updPort p g).tile u = s.tile u := rfl
@[simp] theorem State.updPort_root (p : Nat) (g : Port → Port) (u : Nat) : (s.updPort p g).root u = s.root u := rfl
@[simp] theorem State.updPort_rve (p : Nat) (g : Port → Port) (u : Nat) : (s.updPort p g).rve u = s.rve u := rfl
@[simp] theorem State.updPort_link (p : Nat) (g : Port → Port) (u : Nat) : (s.updPort p g).link u = s.link u := rfl
@[simp] theorem State.updPort_ctr (p : Nat) (g : Port → Port) (u : Nat) : (s.updPort p g).ctr u = s.ctr u := rfl
@[simp] theorem State.updPort_value (p : Nat) (g : Port → Port) (u : Nat) : (s.updPort p g).value u = s.value u := rfl
@[simp] theorem State.updPort_qp (p : Nat) (g : Port → Port) (u : Nat) : (s.updPort p g).qp u = s.qp u := rfl
@[simp] theorem State.updPort_rc (p : Nat) (g : Port → Port) : (s.updPort p g).rc = s.rc := rfl
@[simp] theorem State.updPort_atRc (p : Nat) (g : Port → Port) : (s.updPort p g).atRc = s.atRc := rfl
@[simp] theorem State.updPort_cycleNow (p : Nat) (g : Port → Port) : (s.updPort p g).cycleNow = s.cycleNow := rfl
@[simp] theorem State.updPort_errCycle (p : Nat) (g : Port → Port) : (s.updPort p g).errCycle = s.errCycle := rfl
@[simp] theorem State.updPort_sigCycle (p : Nat) (g : Port → Port) : (s.updPort p g).sigCycle = s.sigCycle := rfl
@[simp] theorem State.updPort_inRun (p : Nat) (g : Port → Port) : (s.updPort p g).inRun = s.inRun := rfl
@[simp] theorem State.updPort_idleRun (p : Nat) (g : Port → Port) : (s.updPort p g).idleRun = s.idleRun := rfl
@[simp] theorem State.updPort_ticking (p : Nat) (g : Port → Port) : (s.updPort p g).ticking = s.ticking := rfl

/-! ## setQp -/

@[simp] theorem State.setQp_pending (q : Nat) (x : Qp) : (s.setQp q x).pending = s.pending := rfl
@[simp] theorem State.setQp_edge (q : Nat) (x : Qp) : (s.setQp q x).edge = s.edge := rfl
@[simp] theorem State.setQp_regs (q : Nat) (x : Qp) : (s.setQp q x).regs = s.regs := rfl
@[simp] theorem State.setQp_staged (q : Nat) (x : Qp) : (s.setQp q x).staged = s.staged := rfl
@[simp] theorem State.setQp_commit (q : Nat) (x : Qp) : (s.setQp q x).commit = s.commit := rfl
@[simp] theorem State.setQp_run (q : Nat) (x : Qp) : (s.setQp q x).run = s.run := rfl
@[simp] theorem State.setQp_esc (q : Nat) (x : Qp) : (s.setQp q x).esc = s.esc := rfl
@[simp] theorem State.setQp_job (q : Nat) (x : Qp) : (s.setQp q x).job = s.job := rfl
@[simp] theorem State.setQp_bt (q : Nat) (x : Qp) : (s.setQp q x).bt = s.bt := rfl
@[simp] theorem State.setQp_unclean (q : Nat) (x : Qp) : (s.setQp q x).unclean = s.unclean := rfl
@[simp] theorem State.setQp_uncleanNext (q : Nat) (x : Qp) : (s.setQp q x).uncleanNext = s.uncleanNext := rfl
@[simp] theorem State.setQp_counters (q : Nat) (x : Qp) : (s.setQp q x).counters = s.counters := rfl
@[simp] theorem State.setQp_waiters (q : Nat) (x : Qp) : (s.setQp q x).waiters = s.waiters := rfl
@[simp] theorem State.setQp_shadows (q : Nat) (x : Qp) : (s.setQp q x).shadows = s.shadows := rfl
@[simp] theorem State.setQp_tiles (q : Nat) (x : Qp) : (s.setQp q x).tiles = s.tiles := rfl
@[simp] theorem State.setQp_lanes (q : Nat) (x : Qp) : (s.setQp q x).lanes = s.lanes := rfl
@[simp] theorem State.setQp_xout (q : Nat) (x : Qp) : (s.setQp q x).xout = s.xout := rfl
@[simp] theorem State.setQp_net (q : Nat) (x : Qp) : (s.setQp q x).net = s.net := rfl
@[simp] theorem State.setQp_credits (q : Nat) (x : Qp) : (s.setQp q x).credits = s.credits := rfl
@[simp] theorem State.setQp_slotUse (q : Nat) (x : Qp) : (s.setQp q x).slotUse = s.slotUse := rfl
@[simp] theorem State.setQp_consOps (q : Nat) (x : Qp) : (s.setQp q x).consOps = s.consOps := rfl
@[simp] theorem State.setQp_sigOps (q : Nat) (x : Qp) : (s.setQp q x).sigOps = s.sigOps := rfl
@[simp] theorem State.setQp_refFrom (q : Nat) (x : Qp) : (s.setQp q x).refFrom = s.refFrom := rfl
@[simp] theorem State.setQp_clearEnd (q : Nat) (x : Qp) : (s.setQp q x).clearEnd = s.clearEnd := rfl
@[simp] theorem State.setQp_wires (q : Nat) (x : Qp) : (s.setQp q x).wires = s.wires := rfl
@[simp] theorem State.setQp_w1cSets (q : Nat) (x : Qp) : (s.setQp q x).w1cSets = s.w1cSets := rfl
@[simp] theorem State.setQp_roots (q : Nat) (x : Qp) : (s.setQp q x).roots = s.roots := rfl
@[simp] theorem State.setQp_dram (q : Nat) (x : Qp) : (s.setQp q x).dram = s.dram := rfl
@[simp] theorem State.setQp_dramBad (q : Nat) (x : Qp) : (s.setQp q x).dramBad = s.dramBad := rfl
@[simp] theorem State.setQp_permute (q : Nat) (x : Qp) : (s.setQp q x).permute = s.permute := rfl
@[simp] theorem State.setQp_armBeat (q : Nat) (x : Qp) : (s.setQp q x).armBeat = s.armBeat := rfl
@[simp] theorem State.setQp_stopBeat (q : Nat) (x : Qp) : (s.setQp q x).stopBeat = s.stopBeat := rfl
@[simp] theorem State.setQp_refTick (q : Nat) (x : Qp) : (s.setQp q x).refTick = s.refTick := rfl
@[simp] theorem State.setQp_links (q : Nat) (x : Qp) : (s.setQp q x).links = s.links := rfl
@[simp] theorem State.setQp_errs (q : Nat) (x : Qp) : (s.setQp q x).errs = s.errs := rfl
@[simp] theorem State.setQp_ports (q : Nat) (x : Qp) : (s.setQp q x).ports = s.ports := rfl
@[simp] theorem State.setQp_sent (q : Nat) (x : Qp) : (s.setQp q x).sent = s.sent := rfl
@[simp] theorem State.setQp_crown (q : Nat) (x : Qp) : (s.setQp q x).crown = s.crown := rfl
@[simp] theorem State.setQp_flash (q : Nat) (x : Qp) : (s.setQp q x).flash = s.flash := rfl
@[simp] theorem State.setQp_seqr (q : Nat) (x : Qp) : (s.setQp q x).seqr = s.seqr := rfl
@[simp] theorem State.setQp_reg (q : Nat) (x : Qp) : (s.setQp q x).reg = s.reg := rfl
@[simp] theorem State.setQp_tap (q : Nat) (x : Qp) : (s.setQp q x).tap = s.tap := rfl
@[simp] theorem State.setQp_freeCtr (q : Nat) (x : Qp) : (s.setQp q x).freeCtr = s.freeCtr := rfl
@[simp] theorem State.setQp_fld (q : Nat) (x : Qp) (h : RegField) (a b : Nat) : (s.setQp q x).fld h a b = s.fld h a b := rfl
@[simp] theorem State.setQp_beat (q : Nat) (x : Qp) : (s.setQp q x).beat = s.beat := rfl
@[simp] theorem State.setQp_self (q : Nat) (x : Qp) : (s.setQp q x).self = s.self := rfl
@[simp] theorem State.setQp_profile (q : Nat) (x : Qp) : (s.setQp q x).profile = s.profile := rfl
@[simp] theorem State.setQp_tile (q : Nat) (x : Qp) (u : Nat) : (s.setQp q x).tile u = s.tile u := rfl
@[simp] theorem State.setQp_root (q : Nat) (x : Qp) (u : Nat) : (s.setQp q x).root u = s.root u := rfl
@[simp] theorem State.setQp_rve (q : Nat) (x : Qp) (u : Nat) : (s.setQp q x).rve u = s.rve u := rfl
@[simp] theorem State.setQp_link (q : Nat) (x : Qp) (u : Nat) : (s.setQp q x).link u = s.link u := rfl
@[simp] theorem State.setQp_ctr (q : Nat) (x : Qp) (u : Nat) : (s.setQp q x).ctr u = s.ctr u := rfl
@[simp] theorem State.setQp_value (q : Nat) (x : Qp) (u : Nat) : (s.setQp q x).value u = s.value u := rfl
@[simp] theorem State.setQp_port (q : Nat) (x : Qp) (u : Nat) : (s.setQp q x).port u = s.port u := rfl
@[simp] theorem State.setQp_rc (q : Nat) (x : Qp) : (s.setQp q x).rc = s.rc := rfl
@[simp] theorem State.setQp_atRc (q : Nat) (x : Qp) : (s.setQp q x).atRc = s.atRc := rfl
@[simp] theorem State.setQp_cycleNow (q : Nat) (x : Qp) : (s.setQp q x).cycleNow = s.cycleNow := rfl
@[simp] theorem State.setQp_errCycle (q : Nat) (x : Qp) : (s.setQp q x).errCycle = s.errCycle := rfl
@[simp] theorem State.setQp_sigCycle (q : Nat) (x : Qp) : (s.setQp q x).sigCycle = s.sigCycle := rfl
@[simp] theorem State.setQp_inRun (q : Nat) (x : Qp) : (s.setQp q x).inRun = s.inRun := rfl
@[simp] theorem State.setQp_idleRun (q : Nat) (x : Qp) : (s.setQp q x).idleRun = s.idleRun := rfl
@[simp] theorem State.setQp_ticking (q : Nat) (x : Qp) : (s.setQp q x).ticking = s.ticking := rfl

/-! ## updQp -/

@[simp] theorem State.updQp_pending (q : Nat) (g : Qp → Qp) : (s.updQp q g).pending = s.pending := rfl
@[simp] theorem State.updQp_edge (q : Nat) (g : Qp → Qp) : (s.updQp q g).edge = s.edge := rfl
@[simp] theorem State.updQp_regs (q : Nat) (g : Qp → Qp) : (s.updQp q g).regs = s.regs := rfl
@[simp] theorem State.updQp_staged (q : Nat) (g : Qp → Qp) : (s.updQp q g).staged = s.staged := rfl
@[simp] theorem State.updQp_commit (q : Nat) (g : Qp → Qp) : (s.updQp q g).commit = s.commit := rfl
@[simp] theorem State.updQp_run (q : Nat) (g : Qp → Qp) : (s.updQp q g).run = s.run := rfl
@[simp] theorem State.updQp_esc (q : Nat) (g : Qp → Qp) : (s.updQp q g).esc = s.esc := rfl
@[simp] theorem State.updQp_job (q : Nat) (g : Qp → Qp) : (s.updQp q g).job = s.job := rfl
@[simp] theorem State.updQp_bt (q : Nat) (g : Qp → Qp) : (s.updQp q g).bt = s.bt := rfl
@[simp] theorem State.updQp_unclean (q : Nat) (g : Qp → Qp) : (s.updQp q g).unclean = s.unclean := rfl
@[simp] theorem State.updQp_uncleanNext (q : Nat) (g : Qp → Qp) : (s.updQp q g).uncleanNext = s.uncleanNext := rfl
@[simp] theorem State.updQp_counters (q : Nat) (g : Qp → Qp) : (s.updQp q g).counters = s.counters := rfl
@[simp] theorem State.updQp_waiters (q : Nat) (g : Qp → Qp) : (s.updQp q g).waiters = s.waiters := rfl
@[simp] theorem State.updQp_shadows (q : Nat) (g : Qp → Qp) : (s.updQp q g).shadows = s.shadows := rfl
@[simp] theorem State.updQp_tiles (q : Nat) (g : Qp → Qp) : (s.updQp q g).tiles = s.tiles := rfl
@[simp] theorem State.updQp_lanes (q : Nat) (g : Qp → Qp) : (s.updQp q g).lanes = s.lanes := rfl
@[simp] theorem State.updQp_xout (q : Nat) (g : Qp → Qp) : (s.updQp q g).xout = s.xout := rfl
@[simp] theorem State.updQp_net (q : Nat) (g : Qp → Qp) : (s.updQp q g).net = s.net := rfl
@[simp] theorem State.updQp_credits (q : Nat) (g : Qp → Qp) : (s.updQp q g).credits = s.credits := rfl
@[simp] theorem State.updQp_slotUse (q : Nat) (g : Qp → Qp) : (s.updQp q g).slotUse = s.slotUse := rfl
@[simp] theorem State.updQp_consOps (q : Nat) (g : Qp → Qp) : (s.updQp q g).consOps = s.consOps := rfl
@[simp] theorem State.updQp_sigOps (q : Nat) (g : Qp → Qp) : (s.updQp q g).sigOps = s.sigOps := rfl
@[simp] theorem State.updQp_refFrom (q : Nat) (g : Qp → Qp) : (s.updQp q g).refFrom = s.refFrom := rfl
@[simp] theorem State.updQp_clearEnd (q : Nat) (g : Qp → Qp) : (s.updQp q g).clearEnd = s.clearEnd := rfl
@[simp] theorem State.updQp_wires (q : Nat) (g : Qp → Qp) : (s.updQp q g).wires = s.wires := rfl
@[simp] theorem State.updQp_w1cSets (q : Nat) (g : Qp → Qp) : (s.updQp q g).w1cSets = s.w1cSets := rfl
@[simp] theorem State.updQp_roots (q : Nat) (g : Qp → Qp) : (s.updQp q g).roots = s.roots := rfl
@[simp] theorem State.updQp_dram (q : Nat) (g : Qp → Qp) : (s.updQp q g).dram = s.dram := rfl
@[simp] theorem State.updQp_dramBad (q : Nat) (g : Qp → Qp) : (s.updQp q g).dramBad = s.dramBad := rfl
@[simp] theorem State.updQp_permute (q : Nat) (g : Qp → Qp) : (s.updQp q g).permute = s.permute := rfl
@[simp] theorem State.updQp_armBeat (q : Nat) (g : Qp → Qp) : (s.updQp q g).armBeat = s.armBeat := rfl
@[simp] theorem State.updQp_stopBeat (q : Nat) (g : Qp → Qp) : (s.updQp q g).stopBeat = s.stopBeat := rfl
@[simp] theorem State.updQp_refTick (q : Nat) (g : Qp → Qp) : (s.updQp q g).refTick = s.refTick := rfl
@[simp] theorem State.updQp_links (q : Nat) (g : Qp → Qp) : (s.updQp q g).links = s.links := rfl
@[simp] theorem State.updQp_errs (q : Nat) (g : Qp → Qp) : (s.updQp q g).errs = s.errs := rfl
@[simp] theorem State.updQp_ports (q : Nat) (g : Qp → Qp) : (s.updQp q g).ports = s.ports := rfl
@[simp] theorem State.updQp_sent (q : Nat) (g : Qp → Qp) : (s.updQp q g).sent = s.sent := rfl
@[simp] theorem State.updQp_crown (q : Nat) (g : Qp → Qp) : (s.updQp q g).crown = s.crown := rfl
@[simp] theorem State.updQp_flash (q : Nat) (g : Qp → Qp) : (s.updQp q g).flash = s.flash := rfl
@[simp] theorem State.updQp_seqr (q : Nat) (g : Qp → Qp) : (s.updQp q g).seqr = s.seqr := rfl
@[simp] theorem State.updQp_reg (q : Nat) (g : Qp → Qp) : (s.updQp q g).reg = s.reg := rfl
@[simp] theorem State.updQp_tap (q : Nat) (g : Qp → Qp) : (s.updQp q g).tap = s.tap := rfl
@[simp] theorem State.updQp_freeCtr (q : Nat) (g : Qp → Qp) : (s.updQp q g).freeCtr = s.freeCtr := rfl
@[simp] theorem State.updQp_fld (q : Nat) (g : Qp → Qp) (h : RegField) (a b : Nat) : (s.updQp q g).fld h a b = s.fld h a b := rfl
@[simp] theorem State.updQp_beat (q : Nat) (g : Qp → Qp) : (s.updQp q g).beat = s.beat := rfl
@[simp] theorem State.updQp_self (q : Nat) (g : Qp → Qp) : (s.updQp q g).self = s.self := rfl
@[simp] theorem State.updQp_profile (q : Nat) (g : Qp → Qp) : (s.updQp q g).profile = s.profile := rfl
@[simp] theorem State.updQp_tile (q : Nat) (g : Qp → Qp) (u : Nat) : (s.updQp q g).tile u = s.tile u := rfl
@[simp] theorem State.updQp_root (q : Nat) (g : Qp → Qp) (u : Nat) : (s.updQp q g).root u = s.root u := rfl
@[simp] theorem State.updQp_rve (q : Nat) (g : Qp → Qp) (u : Nat) : (s.updQp q g).rve u = s.rve u := rfl
@[simp] theorem State.updQp_link (q : Nat) (g : Qp → Qp) (u : Nat) : (s.updQp q g).link u = s.link u := rfl
@[simp] theorem State.updQp_ctr (q : Nat) (g : Qp → Qp) (u : Nat) : (s.updQp q g).ctr u = s.ctr u := rfl
@[simp] theorem State.updQp_value (q : Nat) (g : Qp → Qp) (u : Nat) : (s.updQp q g).value u = s.value u := rfl
@[simp] theorem State.updQp_port (q : Nat) (g : Qp → Qp) (u : Nat) : (s.updQp q g).port u = s.port u := rfl
@[simp] theorem State.updQp_rc (q : Nat) (g : Qp → Qp) : (s.updQp q g).rc = s.rc := rfl
@[simp] theorem State.updQp_atRc (q : Nat) (g : Qp → Qp) : (s.updQp q g).atRc = s.atRc := rfl
@[simp] theorem State.updQp_cycleNow (q : Nat) (g : Qp → Qp) : (s.updQp q g).cycleNow = s.cycleNow := rfl
@[simp] theorem State.updQp_errCycle (q : Nat) (g : Qp → Qp) : (s.updQp q g).errCycle = s.errCycle := rfl
@[simp] theorem State.updQp_sigCycle (q : Nat) (g : Qp → Qp) : (s.updQp q g).sigCycle = s.sigCycle := rfl
@[simp] theorem State.updQp_inRun (q : Nat) (g : Qp → Qp) : (s.updQp q g).inRun = s.inRun := rfl
@[simp] theorem State.updQp_idleRun (q : Nat) (g : Qp → Qp) : (s.updQp q g).idleRun = s.idleRun := rfl
@[simp] theorem State.updQp_ticking (q : Nat) (g : Qp → Qp) : (s.updQp q g).ticking = s.ticking := rfl

/-! ## emit -/

@[simp] theorem State.emit_pending (x : Sent) : (s.emit x).pending = s.pending := rfl
@[simp] theorem State.emit_edge (x : Sent) : (s.emit x).edge = s.edge := rfl
@[simp] theorem State.emit_regs (x : Sent) : (s.emit x).regs = s.regs := rfl
@[simp] theorem State.emit_staged (x : Sent) : (s.emit x).staged = s.staged := rfl
@[simp] theorem State.emit_commit (x : Sent) : (s.emit x).commit = s.commit := rfl
@[simp] theorem State.emit_run (x : Sent) : (s.emit x).run = s.run := rfl
@[simp] theorem State.emit_esc (x : Sent) : (s.emit x).esc = s.esc := rfl
@[simp] theorem State.emit_job (x : Sent) : (s.emit x).job = s.job := rfl
@[simp] theorem State.emit_bt (x : Sent) : (s.emit x).bt = s.bt := rfl
@[simp] theorem State.emit_unclean (x : Sent) : (s.emit x).unclean = s.unclean := rfl
@[simp] theorem State.emit_uncleanNext (x : Sent) : (s.emit x).uncleanNext = s.uncleanNext := rfl
@[simp] theorem State.emit_counters (x : Sent) : (s.emit x).counters = s.counters := rfl
@[simp] theorem State.emit_waiters (x : Sent) : (s.emit x).waiters = s.waiters := rfl
@[simp] theorem State.emit_shadows (x : Sent) : (s.emit x).shadows = s.shadows := rfl
@[simp] theorem State.emit_tiles (x : Sent) : (s.emit x).tiles = s.tiles := rfl
@[simp] theorem State.emit_lanes (x : Sent) : (s.emit x).lanes = s.lanes := rfl
@[simp] theorem State.emit_xout (x : Sent) : (s.emit x).xout = s.xout := rfl
@[simp] theorem State.emit_net (x : Sent) : (s.emit x).net = s.net := rfl
@[simp] theorem State.emit_credits (x : Sent) : (s.emit x).credits = s.credits := rfl
@[simp] theorem State.emit_slotUse (x : Sent) : (s.emit x).slotUse = s.slotUse := rfl
@[simp] theorem State.emit_consOps (x : Sent) : (s.emit x).consOps = s.consOps := rfl
@[simp] theorem State.emit_sigOps (x : Sent) : (s.emit x).sigOps = s.sigOps := rfl
@[simp] theorem State.emit_refFrom (x : Sent) : (s.emit x).refFrom = s.refFrom := rfl
@[simp] theorem State.emit_clearEnd (x : Sent) : (s.emit x).clearEnd = s.clearEnd := rfl
@[simp] theorem State.emit_w1cSets (x : Sent) : (s.emit x).w1cSets = s.w1cSets := rfl
@[simp] theorem State.emit_roots (x : Sent) : (s.emit x).roots = s.roots := rfl
@[simp] theorem State.emit_dram (x : Sent) : (s.emit x).dram = s.dram := rfl
@[simp] theorem State.emit_dramBad (x : Sent) : (s.emit x).dramBad = s.dramBad := rfl
@[simp] theorem State.emit_permute (x : Sent) : (s.emit x).permute = s.permute := rfl
@[simp] theorem State.emit_armBeat (x : Sent) : (s.emit x).armBeat = s.armBeat := rfl
@[simp] theorem State.emit_stopBeat (x : Sent) : (s.emit x).stopBeat = s.stopBeat := rfl
@[simp] theorem State.emit_refTick (x : Sent) : (s.emit x).refTick = s.refTick := rfl
@[simp] theorem State.emit_links (x : Sent) : (s.emit x).links = s.links := rfl
@[simp] theorem State.emit_errs (x : Sent) : (s.emit x).errs = s.errs := rfl
@[simp] theorem State.emit_ports (x : Sent) : (s.emit x).ports = s.ports := rfl
@[simp] theorem State.emit_qps (x : Sent) : (s.emit x).qps = s.qps := rfl
@[simp] theorem State.emit_crown (x : Sent) : (s.emit x).crown = s.crown := rfl
@[simp] theorem State.emit_flash (x : Sent) : (s.emit x).flash = s.flash := rfl
@[simp] theorem State.emit_seqr (x : Sent) : (s.emit x).seqr = s.seqr := rfl
@[simp] theorem State.emit_reg (x : Sent) : (s.emit x).reg = s.reg := rfl
@[simp] theorem State.emit_tap (x : Sent) : (s.emit x).tap = s.tap := rfl
@[simp] theorem State.emit_freeCtr (x : Sent) : (s.emit x).freeCtr = s.freeCtr := rfl
@[simp] theorem State.emit_fld (x : Sent) (h : RegField) (a b : Nat) : (s.emit x).fld h a b = s.fld h a b := rfl
@[simp] theorem State.emit_beat (x : Sent) : (s.emit x).beat = s.beat := rfl
@[simp] theorem State.emit_self (x : Sent) : (s.emit x).self = s.self := rfl
@[simp] theorem State.emit_profile (x : Sent) : (s.emit x).profile = s.profile := rfl
@[simp] theorem State.emit_tile (x : Sent) (u : Nat) : (s.emit x).tile u = s.tile u := rfl
@[simp] theorem State.emit_root (x : Sent) (u : Nat) : (s.emit x).root u = s.root u := rfl
@[simp] theorem State.emit_rve (x : Sent) (u : Nat) : (s.emit x).rve u = s.rve u := rfl
@[simp] theorem State.emit_link (x : Sent) (u : Nat) : (s.emit x).link u = s.link u := rfl
@[simp] theorem State.emit_ctr (x : Sent) (u : Nat) : (s.emit x).ctr u = s.ctr u := rfl
@[simp] theorem State.emit_value (x : Sent) (u : Nat) : (s.emit x).value u = s.value u := rfl
@[simp] theorem State.emit_port (x : Sent) (u : Nat) : (s.emit x).port u = s.port u := rfl
@[simp] theorem State.emit_qp (x : Sent) (u : Nat) : (s.emit x).qp u = s.qp u := rfl
@[simp] theorem State.emit_rc (x : Sent) : (s.emit x).rc = s.rc := rfl
@[simp] theorem State.emit_atRc (x : Sent) : (s.emit x).atRc = s.atRc := rfl
@[simp] theorem State.emit_cycleNow (x : Sent) : (s.emit x).cycleNow = s.cycleNow := rfl
@[simp] theorem State.emit_errCycle (x : Sent) : (s.emit x).errCycle = s.errCycle := rfl
@[simp] theorem State.emit_sigCycle (x : Sent) : (s.emit x).sigCycle = s.sigCycle := rfl
@[simp] theorem State.emit_inRun (x : Sent) : (s.emit x).inRun = s.inRun := rfl
@[simp] theorem State.emit_idleRun (x : Sent) : (s.emit x).idleRun = s.idleRun := rfl
@[simp] theorem State.emit_ticking (x : Sent) : (s.emit x).ticking = s.ticking := rfl

/-! ## updCrown -/

@[simp] theorem State.updCrown_pending (g : Crown → Crown) : (s.updCrown g).pending = s.pending := rfl
@[simp] theorem State.updCrown_edge (g : Crown → Crown) : (s.updCrown g).edge = s.edge := rfl
@[simp] theorem State.updCrown_regs (g : Crown → Crown) : (s.updCrown g).regs = s.regs := rfl
@[simp] theorem State.updCrown_staged (g : Crown → Crown) : (s.updCrown g).staged = s.staged := rfl
@[simp] theorem State.updCrown_commit (g : Crown → Crown) : (s.updCrown g).commit = s.commit := rfl
@[simp] theorem State.updCrown_run (g : Crown → Crown) : (s.updCrown g).run = s.run := rfl
@[simp] theorem State.updCrown_esc (g : Crown → Crown) : (s.updCrown g).esc = s.esc := rfl
@[simp] theorem State.updCrown_job (g : Crown → Crown) : (s.updCrown g).job = s.job := rfl
@[simp] theorem State.updCrown_bt (g : Crown → Crown) : (s.updCrown g).bt = s.bt := rfl
@[simp] theorem State.updCrown_unclean (g : Crown → Crown) : (s.updCrown g).unclean = s.unclean := rfl
@[simp] theorem State.updCrown_uncleanNext (g : Crown → Crown) : (s.updCrown g).uncleanNext = s.uncleanNext := rfl
@[simp] theorem State.updCrown_counters (g : Crown → Crown) : (s.updCrown g).counters = s.counters := rfl
@[simp] theorem State.updCrown_waiters (g : Crown → Crown) : (s.updCrown g).waiters = s.waiters := rfl
@[simp] theorem State.updCrown_shadows (g : Crown → Crown) : (s.updCrown g).shadows = s.shadows := rfl
@[simp] theorem State.updCrown_tiles (g : Crown → Crown) : (s.updCrown g).tiles = s.tiles := rfl
@[simp] theorem State.updCrown_lanes (g : Crown → Crown) : (s.updCrown g).lanes = s.lanes := rfl
@[simp] theorem State.updCrown_xout (g : Crown → Crown) : (s.updCrown g).xout = s.xout := rfl
@[simp] theorem State.updCrown_net (g : Crown → Crown) : (s.updCrown g).net = s.net := rfl
@[simp] theorem State.updCrown_credits (g : Crown → Crown) : (s.updCrown g).credits = s.credits := rfl
@[simp] theorem State.updCrown_slotUse (g : Crown → Crown) : (s.updCrown g).slotUse = s.slotUse := rfl
@[simp] theorem State.updCrown_consOps (g : Crown → Crown) : (s.updCrown g).consOps = s.consOps := rfl
@[simp] theorem State.updCrown_sigOps (g : Crown → Crown) : (s.updCrown g).sigOps = s.sigOps := rfl
@[simp] theorem State.updCrown_refFrom (g : Crown → Crown) : (s.updCrown g).refFrom = s.refFrom := rfl
@[simp] theorem State.updCrown_clearEnd (g : Crown → Crown) : (s.updCrown g).clearEnd = s.clearEnd := rfl
@[simp] theorem State.updCrown_wires (g : Crown → Crown) : (s.updCrown g).wires = s.wires := rfl
@[simp] theorem State.updCrown_w1cSets (g : Crown → Crown) : (s.updCrown g).w1cSets = s.w1cSets := rfl
@[simp] theorem State.updCrown_roots (g : Crown → Crown) : (s.updCrown g).roots = s.roots := rfl
@[simp] theorem State.updCrown_dram (g : Crown → Crown) : (s.updCrown g).dram = s.dram := rfl
@[simp] theorem State.updCrown_dramBad (g : Crown → Crown) : (s.updCrown g).dramBad = s.dramBad := rfl
@[simp] theorem State.updCrown_permute (g : Crown → Crown) : (s.updCrown g).permute = s.permute := rfl
@[simp] theorem State.updCrown_armBeat (g : Crown → Crown) : (s.updCrown g).armBeat = s.armBeat := rfl
@[simp] theorem State.updCrown_stopBeat (g : Crown → Crown) : (s.updCrown g).stopBeat = s.stopBeat := rfl
@[simp] theorem State.updCrown_refTick (g : Crown → Crown) : (s.updCrown g).refTick = s.refTick := rfl
@[simp] theorem State.updCrown_links (g : Crown → Crown) : (s.updCrown g).links = s.links := rfl
@[simp] theorem State.updCrown_errs (g : Crown → Crown) : (s.updCrown g).errs = s.errs := rfl
@[simp] theorem State.updCrown_ports (g : Crown → Crown) : (s.updCrown g).ports = s.ports := rfl
@[simp] theorem State.updCrown_qps (g : Crown → Crown) : (s.updCrown g).qps = s.qps := rfl
@[simp] theorem State.updCrown_sent (g : Crown → Crown) : (s.updCrown g).sent = s.sent := rfl
@[simp] theorem State.updCrown_flash (g : Crown → Crown) : (s.updCrown g).flash = s.flash := rfl
@[simp] theorem State.updCrown_seqr (g : Crown → Crown) : (s.updCrown g).seqr = s.seqr := rfl
@[simp] theorem State.updCrown_reg (g : Crown → Crown) : (s.updCrown g).reg = s.reg := rfl
@[simp] theorem State.updCrown_tap (g : Crown → Crown) : (s.updCrown g).tap = s.tap := rfl
@[simp] theorem State.updCrown_freeCtr (g : Crown → Crown) : (s.updCrown g).freeCtr = s.freeCtr := rfl
@[simp] theorem State.updCrown_fld (g : Crown → Crown) (h : RegField) (a b : Nat) : (s.updCrown g).fld h a b = s.fld h a b := rfl
@[simp] theorem State.updCrown_beat (g : Crown → Crown) : (s.updCrown g).beat = s.beat := rfl
@[simp] theorem State.updCrown_self (g : Crown → Crown) : (s.updCrown g).self = s.self := rfl
@[simp] theorem State.updCrown_profile (g : Crown → Crown) : (s.updCrown g).profile = s.profile := rfl
@[simp] theorem State.updCrown_tile (g : Crown → Crown) (u : Nat) : (s.updCrown g).tile u = s.tile u := rfl
@[simp] theorem State.updCrown_root (g : Crown → Crown) (u : Nat) : (s.updCrown g).root u = s.root u := rfl
@[simp] theorem State.updCrown_rve (g : Crown → Crown) (u : Nat) : (s.updCrown g).rve u = s.rve u := rfl
@[simp] theorem State.updCrown_link (g : Crown → Crown) (u : Nat) : (s.updCrown g).link u = s.link u := rfl
@[simp] theorem State.updCrown_ctr (g : Crown → Crown) (u : Nat) : (s.updCrown g).ctr u = s.ctr u := rfl
@[simp] theorem State.updCrown_value (g : Crown → Crown) (u : Nat) : (s.updCrown g).value u = s.value u := rfl
@[simp] theorem State.updCrown_port (g : Crown → Crown) (u : Nat) : (s.updCrown g).port u = s.port u := rfl
@[simp] theorem State.updCrown_qp (g : Crown → Crown) (u : Nat) : (s.updCrown g).qp u = s.qp u := rfl
@[simp] theorem State.updCrown_rc (g : Crown → Crown) : (s.updCrown g).rc = s.rc := rfl
@[simp] theorem State.updCrown_atRc (g : Crown → Crown) : (s.updCrown g).atRc = s.atRc := rfl
@[simp] theorem State.updCrown_cycleNow (g : Crown → Crown) : (s.updCrown g).cycleNow = s.cycleNow := rfl
@[simp] theorem State.updCrown_errCycle (g : Crown → Crown) : (s.updCrown g).errCycle = s.errCycle := rfl
@[simp] theorem State.updCrown_sigCycle (g : Crown → Crown) : (s.updCrown g).sigCycle = s.sigCycle := rfl
@[simp] theorem State.updCrown_inRun (g : Crown → Crown) : (s.updCrown g).inRun = s.inRun := rfl
@[simp] theorem State.updCrown_idleRun (g : Crown → Crown) : (s.updCrown g).idleRun = s.idleRun := rfl
@[simp] theorem State.updCrown_ticking (g : Crown → Crown) : (s.updCrown g).ticking = s.ticking := rfl

/-! ## updSeq -/

@[simp] theorem State.updSeq_pending (g : Sequencer → Sequencer) : (s.updSeq g).pending = s.pending := rfl
@[simp] theorem State.updSeq_edge (g : Sequencer → Sequencer) : (s.updSeq g).edge = s.edge := rfl
@[simp] theorem State.updSeq_regs (g : Sequencer → Sequencer) : (s.updSeq g).regs = s.regs := rfl
@[simp] theorem State.updSeq_staged (g : Sequencer → Sequencer) : (s.updSeq g).staged = s.staged := rfl
@[simp] theorem State.updSeq_commit (g : Sequencer → Sequencer) : (s.updSeq g).commit = s.commit := rfl
@[simp] theorem State.updSeq_run (g : Sequencer → Sequencer) : (s.updSeq g).run = s.run := rfl
@[simp] theorem State.updSeq_esc (g : Sequencer → Sequencer) : (s.updSeq g).esc = s.esc := rfl
@[simp] theorem State.updSeq_job (g : Sequencer → Sequencer) : (s.updSeq g).job = s.job := rfl
@[simp] theorem State.updSeq_bt (g : Sequencer → Sequencer) : (s.updSeq g).bt = s.bt := rfl
@[simp] theorem State.updSeq_unclean (g : Sequencer → Sequencer) : (s.updSeq g).unclean = s.unclean := rfl
@[simp] theorem State.updSeq_uncleanNext (g : Sequencer → Sequencer) : (s.updSeq g).uncleanNext = s.uncleanNext := rfl
@[simp] theorem State.updSeq_counters (g : Sequencer → Sequencer) : (s.updSeq g).counters = s.counters := rfl
@[simp] theorem State.updSeq_waiters (g : Sequencer → Sequencer) : (s.updSeq g).waiters = s.waiters := rfl
@[simp] theorem State.updSeq_shadows (g : Sequencer → Sequencer) : (s.updSeq g).shadows = s.shadows := rfl
@[simp] theorem State.updSeq_tiles (g : Sequencer → Sequencer) : (s.updSeq g).tiles = s.tiles := rfl
@[simp] theorem State.updSeq_lanes (g : Sequencer → Sequencer) : (s.updSeq g).lanes = s.lanes := rfl
@[simp] theorem State.updSeq_xout (g : Sequencer → Sequencer) : (s.updSeq g).xout = s.xout := rfl
@[simp] theorem State.updSeq_net (g : Sequencer → Sequencer) : (s.updSeq g).net = s.net := rfl
@[simp] theorem State.updSeq_credits (g : Sequencer → Sequencer) : (s.updSeq g).credits = s.credits := rfl
@[simp] theorem State.updSeq_slotUse (g : Sequencer → Sequencer) : (s.updSeq g).slotUse = s.slotUse := rfl
@[simp] theorem State.updSeq_consOps (g : Sequencer → Sequencer) : (s.updSeq g).consOps = s.consOps := rfl
@[simp] theorem State.updSeq_sigOps (g : Sequencer → Sequencer) : (s.updSeq g).sigOps = s.sigOps := rfl
@[simp] theorem State.updSeq_refFrom (g : Sequencer → Sequencer) : (s.updSeq g).refFrom = s.refFrom := rfl
@[simp] theorem State.updSeq_clearEnd (g : Sequencer → Sequencer) : (s.updSeq g).clearEnd = s.clearEnd := rfl
@[simp] theorem State.updSeq_wires (g : Sequencer → Sequencer) : (s.updSeq g).wires = s.wires := rfl
@[simp] theorem State.updSeq_w1cSets (g : Sequencer → Sequencer) : (s.updSeq g).w1cSets = s.w1cSets := rfl
@[simp] theorem State.updSeq_roots (g : Sequencer → Sequencer) : (s.updSeq g).roots = s.roots := rfl
@[simp] theorem State.updSeq_dram (g : Sequencer → Sequencer) : (s.updSeq g).dram = s.dram := rfl
@[simp] theorem State.updSeq_dramBad (g : Sequencer → Sequencer) : (s.updSeq g).dramBad = s.dramBad := rfl
@[simp] theorem State.updSeq_permute (g : Sequencer → Sequencer) : (s.updSeq g).permute = s.permute := rfl
@[simp] theorem State.updSeq_armBeat (g : Sequencer → Sequencer) : (s.updSeq g).armBeat = s.armBeat := rfl
@[simp] theorem State.updSeq_stopBeat (g : Sequencer → Sequencer) : (s.updSeq g).stopBeat = s.stopBeat := rfl
@[simp] theorem State.updSeq_refTick (g : Sequencer → Sequencer) : (s.updSeq g).refTick = s.refTick := rfl
@[simp] theorem State.updSeq_links (g : Sequencer → Sequencer) : (s.updSeq g).links = s.links := rfl
@[simp] theorem State.updSeq_errs (g : Sequencer → Sequencer) : (s.updSeq g).errs = s.errs := rfl
@[simp] theorem State.updSeq_ports (g : Sequencer → Sequencer) : (s.updSeq g).ports = s.ports := rfl
@[simp] theorem State.updSeq_qps (g : Sequencer → Sequencer) : (s.updSeq g).qps = s.qps := rfl
@[simp] theorem State.updSeq_sent (g : Sequencer → Sequencer) : (s.updSeq g).sent = s.sent := rfl
@[simp] theorem State.updSeq_crown (g : Sequencer → Sequencer) : (s.updSeq g).crown = s.crown := rfl
@[simp] theorem State.updSeq_flash (g : Sequencer → Sequencer) : (s.updSeq g).flash = s.flash := rfl
@[simp] theorem State.updSeq_reg (g : Sequencer → Sequencer) : (s.updSeq g).reg = s.reg := rfl
@[simp] theorem State.updSeq_tap (g : Sequencer → Sequencer) : (s.updSeq g).tap = s.tap := rfl
@[simp] theorem State.updSeq_freeCtr (g : Sequencer → Sequencer) : (s.updSeq g).freeCtr = s.freeCtr := rfl
@[simp] theorem State.updSeq_fld (g : Sequencer → Sequencer) (h : RegField) (a b : Nat) : (s.updSeq g).fld h a b = s.fld h a b := rfl
@[simp] theorem State.updSeq_beat (g : Sequencer → Sequencer) : (s.updSeq g).beat = s.beat := rfl
@[simp] theorem State.updSeq_self (g : Sequencer → Sequencer) : (s.updSeq g).self = s.self := rfl
@[simp] theorem State.updSeq_profile (g : Sequencer → Sequencer) : (s.updSeq g).profile = s.profile := rfl
@[simp] theorem State.updSeq_tile (g : Sequencer → Sequencer) (u : Nat) : (s.updSeq g).tile u = s.tile u := rfl
@[simp] theorem State.updSeq_root (g : Sequencer → Sequencer) (u : Nat) : (s.updSeq g).root u = s.root u := rfl
@[simp] theorem State.updSeq_rve (g : Sequencer → Sequencer) (u : Nat) : (s.updSeq g).rve u = s.rve u := rfl
@[simp] theorem State.updSeq_link (g : Sequencer → Sequencer) (u : Nat) : (s.updSeq g).link u = s.link u := rfl
@[simp] theorem State.updSeq_ctr (g : Sequencer → Sequencer) (u : Nat) : (s.updSeq g).ctr u = s.ctr u := rfl
@[simp] theorem State.updSeq_value (g : Sequencer → Sequencer) (u : Nat) : (s.updSeq g).value u = s.value u := rfl
@[simp] theorem State.updSeq_port (g : Sequencer → Sequencer) (u : Nat) : (s.updSeq g).port u = s.port u := rfl
@[simp] theorem State.updSeq_qp (g : Sequencer → Sequencer) (u : Nat) : (s.updSeq g).qp u = s.qp u := rfl
@[simp] theorem State.updSeq_rc (g : Sequencer → Sequencer) : (s.updSeq g).rc = s.rc := rfl
@[simp] theorem State.updSeq_atRc (g : Sequencer → Sequencer) : (s.updSeq g).atRc = s.atRc := rfl
@[simp] theorem State.updSeq_cycleNow (g : Sequencer → Sequencer) : (s.updSeq g).cycleNow = s.cycleNow := rfl
@[simp] theorem State.updSeq_errCycle (g : Sequencer → Sequencer) : (s.updSeq g).errCycle = s.errCycle := rfl
@[simp] theorem State.updSeq_sigCycle (g : Sequencer → Sequencer) : (s.updSeq g).sigCycle = s.sigCycle := rfl
@[simp] theorem State.updSeq_inRun (g : Sequencer → Sequencer) : (s.updSeq g).inRun = s.inRun := rfl
@[simp] theorem State.updSeq_idleRun (g : Sequencer → Sequencer) : (s.updSeq g).idleRun = s.idleRun := rfl
@[simp] theorem State.updSeq_ticking (g : Sequencer → Sequencer) : (s.updSeq g).ticking = s.ticking := rfl

/-! ## flashWaiting -/

@[simp] theorem State.flashWaiting_pending : s.flashWaiting.pending = s.pending := rfl
@[simp] theorem State.flashWaiting_edge : s.flashWaiting.edge = s.edge := rfl
@[simp] theorem State.flashWaiting_regs : s.flashWaiting.regs = s.regs := rfl
@[simp] theorem State.flashWaiting_staged : s.flashWaiting.staged = s.staged := rfl
@[simp] theorem State.flashWaiting_commit : s.flashWaiting.commit = s.commit := rfl
@[simp] theorem State.flashWaiting_run : s.flashWaiting.run = s.run := rfl
@[simp] theorem State.flashWaiting_esc : s.flashWaiting.esc = s.esc := rfl
@[simp] theorem State.flashWaiting_job : s.flashWaiting.job = s.job := rfl
@[simp] theorem State.flashWaiting_bt : s.flashWaiting.bt = s.bt := rfl
@[simp] theorem State.flashWaiting_unclean : s.flashWaiting.unclean = s.unclean := rfl
@[simp] theorem State.flashWaiting_uncleanNext : s.flashWaiting.uncleanNext = s.uncleanNext := rfl
@[simp] theorem State.flashWaiting_counters : s.flashWaiting.counters = s.counters := rfl
@[simp] theorem State.flashWaiting_waiters : s.flashWaiting.waiters = s.waiters := rfl
@[simp] theorem State.flashWaiting_shadows : s.flashWaiting.shadows = s.shadows := rfl
@[simp] theorem State.flashWaiting_tiles : s.flashWaiting.tiles = s.tiles := rfl
@[simp] theorem State.flashWaiting_lanes : s.flashWaiting.lanes = s.lanes := rfl
@[simp] theorem State.flashWaiting_xout : s.flashWaiting.xout = s.xout := rfl
@[simp] theorem State.flashWaiting_net : s.flashWaiting.net = s.net := rfl
@[simp] theorem State.flashWaiting_credits : s.flashWaiting.credits = s.credits := rfl
@[simp] theorem State.flashWaiting_slotUse : s.flashWaiting.slotUse = s.slotUse := rfl
@[simp] theorem State.flashWaiting_consOps : s.flashWaiting.consOps = s.consOps := rfl
@[simp] theorem State.flashWaiting_sigOps : s.flashWaiting.sigOps = s.sigOps := rfl
@[simp] theorem State.flashWaiting_refFrom : s.flashWaiting.refFrom = s.refFrom := rfl
@[simp] theorem State.flashWaiting_clearEnd : s.flashWaiting.clearEnd = s.clearEnd := rfl
@[simp] theorem State.flashWaiting_wires : s.flashWaiting.wires = s.wires := rfl
@[simp] theorem State.flashWaiting_w1cSets : s.flashWaiting.w1cSets = s.w1cSets := rfl
@[simp] theorem State.flashWaiting_roots : s.flashWaiting.roots = s.roots := rfl
@[simp] theorem State.flashWaiting_dram : s.flashWaiting.dram = s.dram := rfl
@[simp] theorem State.flashWaiting_dramBad : s.flashWaiting.dramBad = s.dramBad := rfl
@[simp] theorem State.flashWaiting_permute : s.flashWaiting.permute = s.permute := rfl
@[simp] theorem State.flashWaiting_armBeat : s.flashWaiting.armBeat = s.armBeat := rfl
@[simp] theorem State.flashWaiting_stopBeat : s.flashWaiting.stopBeat = s.stopBeat := rfl
@[simp] theorem State.flashWaiting_refTick : s.flashWaiting.refTick = s.refTick := rfl
@[simp] theorem State.flashWaiting_links : s.flashWaiting.links = s.links := rfl
@[simp] theorem State.flashWaiting_errs : s.flashWaiting.errs = s.errs := rfl
@[simp] theorem State.flashWaiting_ports : s.flashWaiting.ports = s.ports := rfl
@[simp] theorem State.flashWaiting_qps : s.flashWaiting.qps = s.qps := rfl
@[simp] theorem State.flashWaiting_sent : s.flashWaiting.sent = s.sent := rfl
@[simp] theorem State.flashWaiting_reg : s.flashWaiting.reg = s.reg := rfl
@[simp] theorem State.flashWaiting_tap : s.flashWaiting.tap = s.tap := rfl
@[simp] theorem State.flashWaiting_freeCtr : s.flashWaiting.freeCtr = s.freeCtr := rfl
@[simp] theorem State.flashWaiting_beat : s.flashWaiting.beat = s.beat := rfl
@[simp] theorem State.flashWaiting_self : s.flashWaiting.self = s.self := rfl
@[simp] theorem State.flashWaiting_profile : s.flashWaiting.profile = s.profile := rfl
@[simp] theorem State.flashWaiting_tile (u : Nat) : s.flashWaiting.tile u = s.tile u := rfl
@[simp] theorem State.flashWaiting_root (u : Nat) : s.flashWaiting.root u = s.root u := rfl
@[simp] theorem State.flashWaiting_rve (u : Nat) : s.flashWaiting.rve u = s.rve u := rfl
@[simp] theorem State.flashWaiting_link (u : Nat) : s.flashWaiting.link u = s.link u := rfl
@[simp] theorem State.flashWaiting_ctr (u : Nat) : s.flashWaiting.ctr u = s.ctr u := rfl
@[simp] theorem State.flashWaiting_value (u : Nat) : s.flashWaiting.value u = s.value u := rfl
@[simp] theorem State.flashWaiting_port (u : Nat) : s.flashWaiting.port u = s.port u := rfl
@[simp] theorem State.flashWaiting_qp (u : Nat) : s.flashWaiting.qp u = s.qp u := rfl
@[simp] theorem State.flashWaiting_rc : s.flashWaiting.rc = s.rc := rfl
@[simp] theorem State.flashWaiting_atRc : s.flashWaiting.atRc = s.atRc := rfl
@[simp] theorem State.flashWaiting_cycleNow : s.flashWaiting.cycleNow = s.cycleNow := rfl
@[simp] theorem State.flashWaiting_errCycle : s.flashWaiting.errCycle = s.errCycle := rfl
@[simp] theorem State.flashWaiting_sigCycle : s.flashWaiting.sigCycle = s.sigCycle := rfl
@[simp] theorem State.flashWaiting_inRun : s.flashWaiting.inRun = s.inRun := rfl
@[simp] theorem State.flashWaiting_idleRun : s.flashWaiting.idleRun = s.idleRun := rfl
@[simp] theorem State.flashWaiting_ticking : s.flashWaiting.ticking = s.ticking := rfl
@[simp] theorem State.flashWaiting_seqr : s.flashWaiting.seqr = s.seqr := rfl
@[simp] theorem State.flashWaiting_fld (f : RegField) (i j : Nat) : s.flashWaiting.fld f i j = s.fld f i j := rfl
@[simp] theorem State.flashWaiting_flash : s.flashWaiting.flash = s.crown.flashWait.foldl Flash.put s.flash := rfl
@[simp] theorem State.flashWaiting_flashWait : s.flashWaiting.crown.flashWait = [] := rfl

/-- A flash write of the Crown: deferred behind those that wait while MARGIN_LOW, else done after them (R390). -/
theorem State.flashDo_cases (w : FlashWait) :
    (s.marginLow = true ∧ s.flashDo w = s.updCrown (fun c => { c with flashWait := c.flashWait ++ [w] })) ∨
      (s.marginLow = false ∧ s.flashDo w = { s.flashWaiting with flash := s.flashWaiting.flash.put w }) := by
  unfold State.flashDo
  split
  · exact .inl ⟨‹_›, rfl⟩
  · exact .inr ⟨Bool.eq_false_iff.mpr ‹_›, rfl⟩

/-- Accesses to ranges of DRAM wait where a line of one waits, and nowhere when no path and no access waits (R202, R204, R208). -/
theorem State.rangesHeld_cases (l : List (Nat × Nat)) :
    s.rangesHeld l = true ↔ s.dramIdle = false ∧ ∃ p ∈ l, s.lineHeld p.1 p.2 = true := by
  simp [State.rangesHeld]

/-! ## The unit written reads back, and the others read as before -/

theorem State.tile_setTile (t u : Nat) (x : Tile) : (s.setTile t x).tile u = if t = u then x else s.tile u := SMap.read_write
@[simp] theorem State.tile_setTile_self (t : Nat) (x : Tile) : (s.setTile t x).tile t = x := by simp [tile_setTile]
theorem State.tile_setTile_ne {t u : Nat} (x : Tile) (h : t ≠ u) : (s.setTile t x).tile u = s.tile u := by
  simp [tile_setTile, h]
theorem State.tile_updTile (t u : Nat) (g : Tile → Tile) :
    (s.updTile t g).tile u = if t = u then g (s.tile t) else s.tile u := SMap.read_write
@[simp] theorem State.tile_updTile_self (t : Nat) (g : Tile → Tile) : (s.updTile t g).tile t = g (s.tile t) := by
  simp [tile_updTile]

theorem State.root_setRoot (r u : Nat) (x : Root) : (s.setRoot r x).root u = if r = u then x else s.root u := SMap.read_write
@[simp] theorem State.root_setRoot_self (r : Nat) (x : Root) : (s.setRoot r x).root r = x := by simp [root_setRoot]
theorem State.root_updRoot (r u : Nat) (g : Root → Root) :
    (s.updRoot r g).root u = if r = u then g (s.root r) else s.root u := SMap.read_write
@[simp] theorem State.root_updRoot_self (r : Nat) (g : Root → Root) : (s.updRoot r g).root r = g (s.root r) := by
  simp [root_updRoot]
theorem State.rve_updRve (r u : Nat) (g : Rve → Rve) :
    (s.updRve r g).rve u = if r = u then g (s.rve r) else s.rve u := by
  unfold rve updRve
  rw [root_updRoot]
  split <;> rfl
@[simp] theorem State.rve_updRve_self (r : Nat) (g : Rve → Rve) : (s.updRve r g).rve r = g (s.rve r) := by
  simp [rve_updRve]

theorem State.link_setLink (n u : Nat) (x : Link) : (s.setLink n x).link u = if n = u then x else s.link u := SMap.read_write
@[simp] theorem State.link_setLink_self (n : Nat) (x : Link) : (s.setLink n x).link n = x := by simp [link_setLink]
theorem State.link_updLink (n u : Nat) (g : Link → Link) :
    (s.updLink n g).link u = if n = u then g (s.link n) else s.link u := SMap.read_write
@[simp] theorem State.link_updLink_self (n : Nat) (g : Link → Link) : (s.updLink n g).link n = g (s.link n) := by
  simp [link_updLink]

theorem State.ctr_setCtr (k u : Nat) (c : Counter) : (s.setCtr k c).ctr u = if k = u then c else s.ctr u := SMap.read_write
@[simp] theorem State.ctr_setCtr_self (k : Nat) (c : Counter) : (s.setCtr k c).ctr k = c := by simp [ctr_setCtr]

theorem State.port_setPort (p u : Nat) (x : Port) : (s.setPort p x).port u = if p = u then x else s.port u := SMap.read_write
@[simp] theorem State.port_setPort_self (p : Nat) (x : Port) : (s.setPort p x).port p = x := by simp [port_setPort]
@[simp] theorem State.port_updPort_self (p : Nat) (g : Port → Port) : (s.updPort p g).port p = g (s.port p) := by
  simp [updPort]

theorem State.qp_setQp (q u : Nat) (x : Qp) : (s.setQp q x).qp u = if q = u then x else s.qp u := SMap.read_write
@[simp] theorem State.qp_setQp_self (q : Nat) (x : Qp) : (s.setQp q x).qp q = x := by simp [qp_setQp]
@[simp] theorem State.qp_updQp_self (q : Nat) (g : Qp → Qp) : (s.updQp q g).qp q = g (s.qp q) := by simp [updQp]

@[simp] theorem State.errs_note (e : ErrNote) : (s.note e).errs = s.errs ++ [e] := rfl
@[simp] theorem State.sent_emit (x : Sent) : (s.emit x).sent = s.sent ++ [x] := rfl
@[simp] theorem State.crown_updCrown (g : Crown → Crown) : (s.updCrown g).crown = g s.crown := rfl
@[simp] theorem State.seqr_updSeq (g : Sequencer → Sequencer) : (s.updSeq g).seqr = g s.seqr := rfl

/-! ## Register fields -/

/-- A field written reads back its low bits; a field at another key reads as before. -/
theorem State.fld_setFld (f g : RegField) (i j a b v : Nat) (h : f.key i j ≠ g.key a b) :
    (s.setFld f i j v).fld g a b = s.fld g a b := SMap.read_write_other h
@[simp] theorem State.fld_setFld_self (f : RegField) (i j v : Nat) : (s.setFld f i j v).fld f i j = v % 2 ^ f.width :=
  SMap.read_write_self
theorem State.fld_putFld (f g : RegField) (i j a b v : Nat) (h : f.key i j ≠ g.key a b) :
    (s.putFld f i j v).fld g a b = s.fld g a b := SMap.read_write_other h
@[simp] theorem State.fld_putFld_self (f : RegField) (i j v : Nat) : (s.putFld f i j v).fld f i j = v % 2 ^ f.width :=
  SMap.read_write_self
@[simp] theorem State.fld_addFld_self (f : RegField) (i j n : Nat) :
    (s.addFld f i j n).fld f i j = (s.fld f i j + n) % 2 ^ f.width := SMap.read_write_self
theorem State.fld_addFld (f g : RegField) (i j a b n : Nat) (h : f.key i j ≠ g.key a b) :
    (s.addFld f i j n).fld g a b = s.fld g a b := SMap.read_write_other h
@[simp] theorem State.fld_satFld_self (f : RegField) (i j n : Nat) :
    (s.satFld f i j n).fld f i j = satAdd f.width (s.fld f i j) n % 2 ^ f.width := SMap.read_write_self

end Sys2Proof.Machine
end

