-- ==== Sys2Proof/Laws/Issue.lean ====
section
/-! SUPPORT. What the issue of a tile's word does, said once for every slot A operation. -/

set_option Elab.async false

namespace Sys2Proof.Machine

/-! ## Registers of a tile -/

@[simp] theorem Tile.s_zero (q : Tile) : q.s 0 = 0 := by simp [Tile.s]

theorem Tile.s_putA (q : Tile) (rd r : Nat) (v : W64) (c : Nat) :
    (q.putA rd v c).s r = if r = rd ∧ r ≠ 0 then v else q.s r := by
  unfold Tile.putA Tile.s
  by_cases h : rd = 0
  · subst h; simp
  · by_cases h2 : r = 0
    · subst h2; simp
    · simp only [h, if_false, SMap.read_write, h2]
      by_cases h3 : rd = r
      · simp [h3, h2]
      · simp [h3, Ne.symm h3]

theorem Tile.sready_putA (q : Tile) {rd : Nat} (v : W64) (c : Nat) (h : rd ≠ 0) :
    (q.putA rd v c).sready.read 0 rd = c := by simp [Tile.putA, h]

/-! ## offer -/

/-- The tile of a word that issues: nothing replaced yet (R81). -/
def Tile.offered (q : Tile) : Tile := { q with overlay := [] }

/-- The tile after an issue in cycle `x` whose slot A has left `q`. -/
def Tile.after (q : Tile) (x pc : Nat) (w : W64) (f : Flow) : Tile :=
  { q with
    pc := wrap 18 (q.loopNext f.pc).1, loop := (q.loopNext f.pc).2
    loopRows := if (q.loopNext f.pc).2.isSome then q.bodyRows else []
    fetchRows := if f.jump then [] else q.fetchRows, fetchAt := if f.jump then x + 1 else q.fetchAt
    cyc := f.cyc, bWord := some w, bCyc := x, bPc := pc, bTold := false, wait := none }

@[simp] theorem Tile.offered_core (q : Tile) : q.offered.core = q.core := rfl
@[simp] theorem Tile.offered_pc (q : Tile) : q.offered.pc = q.pc := rfl
@[simp] theorem Tile.offered_sstep (q : Tile) : q.offered.sstep = q.sstep := rfl
@[simp] theorem Tile.offered_loop (q : Tile) : q.offered.loop = q.loop := rfl
@[simp] theorem Tile.offered_sreg (q : Tile) : q.offered.sreg = q.sreg := rfl
@[simp] theorem Tile.offered_vreg (q : Tile) : q.offered.vreg = q.vreg := rfl
@[simp] theorem Tile.offered_sready (q : Tile) : q.offered.sready = q.sready := rfl
@[simp] theorem Tile.offered_vready (q : Tile) : q.offered.vready = q.vready := rfl
@[simp] theorem Tile.offered_mem (q : Tile) : q.offered.mem = q.mem := rfl
@[simp] theorem Tile.offered_matrix (q : Tile) : q.offered.matrix = q.matrix := rfl
@[simp] theorem Tile.offered_fetch (q : Tile) : q.offered.fetch = q.fetch := rfl
@[simp] theorem Tile.offered_order (q : Tile) : q.offered.order = q.order := rfl
@[simp] theorem Tile.offered_bWord (q : Tile) : q.offered.bWord = q.bWord := rfl
@[simp] theorem Tile.offered_bCyc (q : Tile) : q.offered.bCyc = q.bCyc := rfl
@[simp] theorem Tile.offered_badPar (q : Tile) : q.offered.badPar = q.badPar := rfl
@[simp] theorem Tile.offered_banks (q : Tile) : q.offered.banks = q.banks := rfl
@[simp] theorem Tile.offered_memops (q : Tile) : q.offered.memops = q.memops := rfl
@[simp] theorem Tile.offered_groups (q : Tile) : q.offered.groups = q.groups := rfl
@[simp] theorem Tile.after_core (q : Tile) (x pc : Nat) (w : W64) (f : Flow) : (q.after x pc w f).core = q.core := rfl
@[simp] theorem Tile.after_sstep (q : Tile) (x pc : Nat) (w : W64) (f : Flow) : (q.after x pc w f).sstep = q.sstep := rfl
@[simp] theorem Tile.after_sreg (q : Tile) (x pc : Nat) (w : W64) (f : Flow) : (q.after x pc w f).sreg = q.sreg := rfl
@[simp] theorem Tile.after_vreg (q : Tile) (x pc : Nat) (w : W64) (f : Flow) : (q.after x pc w f).vreg = q.vreg := rfl
@[simp] theorem Tile.after_sready (q : Tile) (x pc : Nat) (w : W64) (f : Flow) : (q.after x pc w f).sready = q.sready := rfl
@[simp] theorem Tile.after_vready (q : Tile) (x pc : Nat) (w : W64) (f : Flow) : (q.after x pc w f).vready = q.vready := rfl
@[simp] theorem Tile.after_mem (q : Tile) (x pc : Nat) (w : W64) (f : Flow) : (q.after x pc w f).mem = q.mem := rfl
@[simp] theorem Tile.after_matrix (q : Tile) (x pc : Nat) (w : W64) (f : Flow) : (q.after x pc w f).matrix = q.matrix := rfl
@[simp] theorem Tile.after_fetch (q : Tile) (x pc : Nat) (w : W64) (f : Flow) : (q.after x pc w f).fetch = q.fetch := rfl
@[simp] theorem Tile.after_order (q : Tile) (x pc : Nat) (w : W64) (f : Flow) : (q.after x pc w f).order = q.order := rfl
@[simp] theorem Tile.after_badPar (q : Tile) (x pc : Nat) (w : W64) (f : Flow) : (q.after x pc w f).badPar = q.badPar := rfl
@[simp] theorem Tile.after_banks (q : Tile) (x pc : Nat) (w : W64) (f : Flow) : (q.after x pc w f).banks = q.banks := rfl
@[simp] theorem Tile.after_memops (q : Tile) (x pc : Nat) (w : W64) (f : Flow) : (q.after x pc w f).memops = q.memops := rfl
@[simp] theorem Tile.after_groups (q : Tile) (x pc : Nat) (w : W64) (f : Flow) : (q.after x pc w f).groups = q.groups := rfl
@[simp] theorem Tile.after_overlay (q : Tile) (x pc : Nat) (w : W64) (f : Flow) : (q.after x pc w f).overlay = q.overlay := rfl
@[simp] theorem Tile.putA_core (q : Tile) (r : Nat) (v : W64) (c : Nat) : (q.putA r v c).core = q.core := by
  unfold Tile.putA; split <;> rfl
@[simp] theorem Tile.putA_pc (q : Tile) (r : Nat) (v : W64) (c : Nat) : (q.putA r v c).pc = q.pc := by
  unfold Tile.putA; split <;> rfl
@[simp] theorem Tile.putA_sstep (q : Tile) (r : Nat) (v : W64) (c : Nat) : (q.putA r v c).sstep = q.sstep := by
  unfold Tile.putA; split <;> rfl
@[simp] theorem Tile.putA_loop (q : Tile) (r : Nat) (v : W64) (c : Nat) : (q.putA r v c).loop = q.loop := by
  unfold Tile.putA; split <;> rfl
@[simp] theorem Tile.putA_vreg (q : Tile) (r : Nat) (v : W64) (c : Nat) : (q.putA r v c).vreg = q.vreg := by
  unfold Tile.putA; split <;> rfl
@[simp] theorem Tile.putA_vready (q : Tile) (r : Nat) (v : W64) (c : Nat) : (q.putA r v c).vready = q.vready := by
  unfold Tile.putA; split <;> rfl
@[simp] theorem Tile.putA_mem (q : Tile) (r : Nat) (v : W64) (c : Nat) : (q.putA r v c).mem = q.mem := by
  unfold Tile.putA; split <;> rfl
@[simp] theorem Tile.putA_matrix (q : Tile) (r : Nat) (v : W64) (c : Nat) : (q.putA r v c).matrix = q.matrix := by
  unfold Tile.putA; split <;> rfl
@[simp] theorem Tile.putA_fetch (q : Tile) (r : Nat) (v : W64) (c : Nat) : (q.putA r v c).fetch = q.fetch := by
  unfold Tile.putA; split <;> rfl
@[simp] theorem Tile.putA_order (q : Tile) (r : Nat) (v : W64) (c : Nat) : (q.putA r v c).order = q.order := by
  unfold Tile.putA; split <;> rfl
@[simp] theorem Tile.putA_badPar (q : Tile) (r : Nat) (v : W64) (c : Nat) : (q.putA r v c).badPar = q.badPar := by
  unfold Tile.putA; split <;> rfl
@[simp] theorem Tile.putA_banks (q : Tile) (r : Nat) (v : W64) (c : Nat) : (q.putA r v c).banks = q.banks := by
  unfold Tile.putA; split <;> rfl
@[simp] theorem Tile.putA_memops (q : Tile) (r : Nat) (v : W64) (c : Nat) : (q.putA r v c).memops = q.memops := by
  unfold Tile.putA; split <;> rfl
@[simp] theorem Tile.putA_groups (q : Tile) (r : Nat) (v : W64) (c : Nat) : (q.putA r v c).groups = q.groups := by
  unfold Tile.putA; split <;> rfl
@[simp] theorem Tile.putA_cyc (q : Tile) (r : Nat) (v : W64) (c : Nat) : (q.putA r v c).cyc = q.cyc := by
  unfold Tile.putA; split <;> rfl
@[simp] theorem Tile.s_offered (q : Tile) (r : Nat) : q.offered.s r = q.s r := rfl
@[simp] theorem Tile.s_after (q : Tile) (x pc r : Nat) (w : W64) (f : Flow) : (q.after x pc w f).s r = q.s r := rfl
@[simp] theorem Tile.loopNext_offered (q : Tile) (n : Int) : q.offered.loopNext n = q.loopNext n := rfl
@[simp] theorem Tile.loopNext_putA (q : Tile) (r : Nat) (v : W64) (c : Nat) (n : Int) :
    (q.putA r v c).loopNext n = q.loopNext n := by simp [Tile.loopNext]

variable {s : State} {t x : Nat} {w : W64}

/-- What holds where a word issues, and the state it issues in: only the values that slot A replaces are put aside. -/
theorem State.offer_true (h : (s.offer t w).2 = true) :
    (s.offer t w).1 = s.updTile t (·.offered) ∧ s.takesWord t = true ∧ (s.tile t).pc < 0x30000 := by
  unfold State.offer at h ⊢
  by_cases h1 : s.takesWord t = true
  · by_cases h2 : (s.tile t).pc ≥ 0x30000
    · simp [h1, h2] at h
    · cases h3 : s.wordErrs t w with
      | cons e es => simp [h1, h2, h3] at h
      | nil =>
        simp only [h1, h2, h3, Bool.not_true, Bool.false_eq_true, if_false] at h ⊢
        split at h
        · cases h
        · rename_i h4
          simp only [h4, if_false] at h ⊢
          split at h
          · cases h
          · rename_i h5
            simp only [h5]
            exact ⟨rfl, trivial, by omega⟩
  · simp [h1] at h

/-- A tile that can take a word: its core is in RUN, a cycle is delivered, its last word is done and its turn has come. -/
theorem State.takesWord_core (h : s.takesWord t = true) :
    (s.tile t).core = .run ∧ s.ticking = true ∧ (s.tile t).wait = none ∧ (s.tile t).bWord = none ∧
      (s.tile t).cyc ≤ s.esc.tc := by
  unfold State.takesWord at h
  simp only [Bool.and_eq_true, beq_iff_eq, decide_eq_true_eq, Option.isNone_iff_eq_none] at h
  exact ⟨h.1.1.1.1, h.1.1.1.2, h.1.1.2, h.1.2, h.2⟩

theorem State.issue_eq (h : (s.offer t w).2 = true) (act : State → Nat → State × Flow) :
    s.issue t w act =
      (act (s.offer t w).1 s.esc.tc).1.advance t s.esc.tc (s.tile t).pc (some w) (act (s.offer t w).1 s.esc.tc).2 := by
  have h1 := (State.offer_true h).1
  unfold State.issue
  rcases hp : s.offer t w with ⟨s1, o⟩
  rw [hp] at h h1
  simp only at h h1
  subst h h1
  simp

/-- A word without errors records none. -/
@[simp] theorem State.coreErrs_nil (s : State) (t pc cyc : Nat) : s.coreErrs t pc cyc [] = s := rfl

/-- An issue without errors whose PC stays within program space. -/
theorem State.advance_eq {s : State} {pc : Nat} {f : Flow} (he : f.errs = [])
    (hj : f.jump = true → 0 ≤ ((s.tile t).loopNext f.pc).1 ∧ ((s.tile t).loopNext f.pc).1 < 0x30000) :
    s.advance t x pc (some w) f =
      (s.setTile t ((s.tile t).after x pc w f)).addFld F.TL_PERF_ISSUE_COUNT t 0 1 := by
  have ho : (f.jump && decide (((s.tile t).loopNext f.pc).1 < 0 ∨ ((s.tile t).loopNext f.pc).1 ≥ 0x30000)
      && (s.tile t).core != .boundWait) = false := by
    cases hf : f.jump
    · rfl
    · have := hj hf
      simp only [Bool.true_and, Bool.and_eq_false_iff, decide_eq_false_iff_not]
      exact .inl (by omega)
  unfold State.advance
  simp only [he, ho, List.isEmpty_nil, Bool.not_true, Bool.or_false, Bool.false_eq_true, if_false, List.append_nil,
    State.coreErrs_nil, Tile.after]

/-- The core of a tile whose word issues is in RUN. -/
theorem State.issues_run (h : s.Issues t w x) : (s.tile t).core = .run :=
  (State.takesWord_core (State.offer_true h.2.1).2.1).1

/-- The offered state reads as the state before it but for the tile's replaced values. -/
theorem State.offer_tile (h : s.Issues t w x) : (s.offer t w).1.tile t = (s.tile t).offered := by
  simp [(State.offer_true h.2.1).1]

theorem State.offer_fld (h : s.Issues t w x) (k : RegField) (i j : Nat) : (s.offer t w).1.fld k i j = s.fld k i j := by
  simp [(State.offer_true h.2.1).1]

theorem State.offer_rest (h : s.Issues t w x) :
    (s.offer t w).1 = { s with tiles := (s.offer t w).1.tiles } := by
  simp [(State.offer_true h.2.1).1, State.setTile, State.updTile]

theorem State.offer_profile (h : s.Issues t w x) : (s.offer t w).1.profile = s.profile := by
  simp [(State.offer_true h.2.1).1]

/-- What the issue of a word does whose slot A leaves the state `s2` and the flow `f`, without an error. -/
theorem State.issue_gen (h : s.Issues t w x) {act : State → Nat → State × Flow} {s2 : State} {f : Flow}
    (ha : act (s.offer t w).1 x = (s2, f)) (he : f.errs = [])
    (hj : f.jump = true → InProgram (s2.pcAfter t f.pc)) :
    ((s.issue t w act).tile t = (s2.tile t).after x (s.tile t).pc w f) ∧
    (∀ u, u ≠ t → (s.issue t w act).tile u = s2.tile u) ∧
    (∀ k i j, k.key i j ≠ F.TL_PERF_ISSUE_COUNT.key t 0 → (s.issue t w act).fld k i j = s2.fld k i j) ∧
    (s.issue t w act).fld F.TL_PERF_ISSUE_COUNT t 0 =
      (s2.fld F.TL_PERF_ISSUE_COUNT t 0 + 1) % 2 ^ F.TL_PERF_ISSUE_COUNT.width ∧
    s.issue t w act = { s2 with regs := (s.issue t w act).regs, tiles := (s.issue t w act).tiles } := by
  obtain ⟨-, h2, rfl⟩ := h
  rw [State.issue_eq h2, ha, State.advance_eq he hj]
  refine ⟨by simp, ?_, ?_, ?_, ?_⟩
  · intro u hu
    simp [State.tile_setTile, Ne.symm hu]
  · intro f i j hk
    rw [State.fld_addFld _ _ _ _ _ _ _ _ (Ne.symm hk), State.setTile_fld]
  · simp [State.addFld]
  · simp [State.setTile, State.addFld, State.putFld]

/-- Issue of a word whose slot A touches nothing but the tile's scalar registers, loop, superstep and core state. -/
theorem State.issued (h : s.Issues t w x) {act : State → Nat → State × Flow} {s2 : State} {f : Flow}
    (ha : act (s.offer t w).1 x = (s2, f)) (he : f.errs = []) (hj : f.jump = true → InProgram (s2.pcAfter t f.pc))
    (hr : s2 = { s with tiles := s2.tiles }) (hu : ∀ u, u ≠ t → s2.tile u = s.tile u)
    (hq : s2.tile t = { s.tile t with
      core := (s2.tile t).core, sstep := (s2.tile t).sstep, loop := (s2.tile t).loop, sreg := (s2.tile t).sreg
      sready := (s2.tile t).sready, overlay := (s2.tile t).overlay, loopRows := (s2.tile t).loopRows }) :
    Issued s (s.issue t w act) t w x ∧ (s.issue t w act).tile t = (s2.tile t).after x (s.tile t).pc w f := by
  obtain ⟨h1, h2, h3, h4, h5⟩ := State.issue_gen h ha he hj
  have hf (k : RegField) (i j : Nat) : s2.fld k i j = s.fld k i j := by rw [hr]; rfl
  refine ⟨⟨?_, ?_, ?_, ?_, ?_⟩, h1⟩
  · rw [h5, hr]
  · intro u hu'
    rw [h2 u hu', hu u hu']
  · intro k i j hk
    rw [h3 k i j hk, hf]
  · rw [h4, hf]
  · rw [h1, hq]
    simp [Tile.after]

/-! ## A slot A operation that writes one scalar register -/

/-- The issue of a word whose slot A writes RD. -/
theorem State.issues_scalar (h : s.Issues t w x) (lat : Nat) (f : Tile → W64) (hf : ∀ q : Tile, f q.offered = f q) :
    Scalar s (s.scalar t w lat f) t w x (fRd (slotA w)) lat (f (s.tile t)) := by
  have ht := State.offer_tile h
  have hs := (State.offer_true h.2.1).1
  obtain ⟨h1, h2⟩ := State.issued (act := fun s x => s.result t x (fRd (slotA w)) (f (s.tile t)) lat)
    (f := (s.tile t).offered.fall x)
    (s2 := (s.offer t w).1.updTile t (fun q => q.putA (fRd (slotA w)) (f (s.tile t)) (x + lat))) h
    (by simp [State.result, hs, hf]) rfl (by simp [Tile.fall]) (by simp [hs, State.setTile, State.updTile])
    (fun u hu => by simp [hs, State.tile_updTile, Ne.symm hu])
    (by simp [hs, Tile.offered, Tile.putA]; split <;> simp)
  refine ⟨h1, ?_, ?_, ?_⟩
  · intro r
    unfold State.scalar
    rw [h2]
    simp [Tile.s_putA, ht]
  · unfold State.scalar
    constructor <;> rw [h2] <;> simp [Tile.after, Tile.fall, ht]
  · intro hr
    unfold State.scalar
    rw [h2]
    simp [Tile.after, Tile.sready_putA, hr]

end Sys2Proof.Machine
end

