-- ==== Sys2Proof/Laws/PerInstr.lean ====
section
/-! SUPPORT. Per-instruction statements: a well-formed command names only units that the device has. -/

namespace Sys2Proof.Laws

/-- A well-formed command names only units that the device has (Tables 1.6, 2.6, 6.1). -/
def Units.Statement (i : Instr) : Prop := i.wf = true → i.units.all UnitRef.present = true

theorem all_one {u : UnitRef} (h : u.present = true) : [u].all UnitRef.present = true := by simp [h]

theorem all_two {u v : UnitRef} (h : u.present = true) (k : v.present = true) : [u, v].all UnitRef.present = true := by
  simp [h, k]

theorem and_left {a b : Bool} (h : (a && b) = true) : a = true := by simp_all

theorem and_right {a b : Bool} (h : (a && b) = true) : b = true := by simp_all

/-- Of a conjunction of two checks. -/
theorem both {u v : UnitRef} (h : (u.present && v.present) = true) : [u, v].all UnitRef.present = true :=
  all_two (and_left h) (and_right h)

theorem Units.stagingWrite (addr : Nat) (v : W64) : Units.Statement (.stagingWrite addr v) := fun _ => rfl
theorem Units.registerWrite (addr : Nat) (v : W64) : Units.Statement (.registerWrite addr v) := fun _ => rfl
theorem Units.commitReq (v : W64) : Units.Statement (.commitReq v) := fun _ => rfl
theorem Units.commitAbort (v : W64) : Units.Statement (.commitAbort v) := fun _ => rfl
theorem Units.commitApply : Units.Statement (.commitApply) := fun _ => rfl
theorem Units.tileImageCopyDone : Units.Statement (.tileImageCopyDone) := fun _ => rfl
theorem Units.refEdge (src : EdgeSource) : Units.Statement (.refEdge src) := fun _ => rfl
theorem Units.refTimeout : Units.Statement (.refTimeout) := fun _ => rfl
theorem Units.runStopped : Units.Statement (.runStopped) := fun _ => rfl
theorem Units.permuteRoundDone (r : Nat) : Units.Statement (.permuteRoundDone r) := fun h => all_one h
theorem Units.segmentStart : Units.Statement (.segmentStart) := fun _ => rfl
theorem Units.dueCheck (d : Nat) : Units.Statement (.dueCheck d) := fun _ => rfl
theorem Units.freeze : Units.Statement (.freeze) := fun _ => rfl
theorem Units.release : Units.Statement (.release) := fun _ => rfl
theorem Units.forcedRelease : Units.Statement (.forcedRelease) := fun _ => rfl
theorem Units.boundaryCheck (b : Nat) : Units.Statement (.boundaryCheck b) := fun _ => rfl
theorem Units.clearingPointDecision (b : Nat) : Units.Statement (.clearingPointDecision b) := fun _ => rfl
theorem Units.clearingTilesCheck : Units.Statement (.clearingTilesCheck) := fun _ => rfl
theorem Units.clearing : Units.Statement (.clearing) := fun _ => rfl
theorem Units.clearingWaitLimit : Units.Statement (.clearingWaitLimit) := fun _ => rfl
theorem Units.segmentEnd : Units.Statement (.segmentEnd) := fun _ => rfl
theorem Units.localReady : Units.Statement (.localReady) := fun _ => rfl
theorem Units.waitRelease (cref : W32) : Units.Statement (.waitRelease cref) := fun _ => rfl
theorem Units.waitcGrant (cref : W32) : Units.Statement (.waitcGrant cref) := fun _ => rfl
theorem Units.instructionFetch (t : Nat) : Units.Statement (.instructionFetch t) := fun h => all_one h
theorem Units.nop (t : Nat) (w : W64) : Units.Statement (.nop t w) := fun h => all_one (and_left h)
theorem Units.br (t : Nat) (w : W64) : Units.Statement (.br t w) := fun h => all_one (and_left h)
theorem Units.bcc (t : Nat) (w : W64) : Units.Statement (.bcc t w) := fun h => all_one (and_left h)
theorem Units.jr (t : Nat) (w : W64) : Units.Statement (.jr t w) := fun h => all_one (and_left h)
theorem Units.call (t : Nat) (w : W64) : Units.Statement (.call t w) := fun h => all_one (and_left h)
theorem Units.loop (t : Nat) (w : W64) : Units.Statement (.loop t w) := fun h => all_one (and_left h)
theorem Units.bound (t : Nat) (w : W64) : Units.Statement (.bound t w) := fun h => all_one (and_left h)
theorem Units.alu (t : Nat) (w : W64) : Units.Statement (.alu t w) := fun h => all_one (and_left h)
theorem Units.addi (t : Nat) (w : W64) : Units.Statement (.addi t w) := fun h => all_one (and_left h)
theorem Units.andi (t : Nat) (w : W64) : Units.Statement (.andi t w) := fun h => all_one (and_left h)
theorem Units.ori (t : Nat) (w : W64) : Units.Statement (.ori t w) := fun h => all_one (and_left h)
theorem Units.xori (t : Nat) (w : W64) : Units.Statement (.xori t w) := fun h => all_one (and_left h)
theorem Units.shi (t : Nat) (w : W64) : Units.Statement (.shi t w) := fun h => all_one (and_left h)
theorem Units.mul (t : Nat) (w : W64) : Units.Statement (.mul t w) := fun h => all_one (and_left h)
theorem Units.div (t : Nat) (w : W64) : Units.Statement (.div t w) := fun h => all_one (and_left h)
theorem Units.seti (t : Nat) (w : W64) : Units.Statement (.seti t w) := fun h => all_one (and_left h)
theorem Units.movk (t : Nat) (w : W64) : Units.Statement (.movk t w) := fun h => all_one (and_left h)
theorem Units.crr (t : Nat) (w : W64) : Units.Statement (.crr t w) := fun h => all_one (and_left h)
theorem Units.crw (t : Nat) (w : W64) : Units.Statement (.crw t w) := fun h => all_one (and_left h)
theorem Units.sig (t : Nat) (w : W64) : Units.Statement (.sig t w) := fun h => all_one (and_left h)
theorem Units.sigR (t : Nat) (w : W64) : Units.Statement (.sigR t w) := fun h => all_one (and_left h)
theorem Units.wait (t : Nat) (w : W64) : Units.Statement (.wait t w) := fun h => all_one (and_left h)
theorem Units.cons (t : Nat) (w : W64) : Units.Statement (.cons t w) := fun h => all_one (and_left h)
theorem Units.waitc (t : Nat) (w : W64) : Units.Statement (.waitc t w) := fun h => all_one (and_left h)
theorem Units.read (t : Nat) (w : W64) : Units.Statement (.read t w) := fun h => all_one (and_left h)
theorem Units.sigi (t : Nat) (w : W64) : Units.Statement (.sigi t w) := fun h => all_one (and_left h)
theorem Units.fenceW (t : Nat) (w : W64) : Units.Statement (.fenceW t w) := fun h => all_one (and_left h)
theorem Units.fetch (t : Nat) (w : W64) : Units.Statement (.fetch t w) := fun h => all_one (and_left h)
theorem Units.fqstat (t : Nat) (w : W64) : Units.Statement (.fqstat t w) := fun h => all_one (and_left h)
theorem Units.slotBNop (t : Nat) (w : W64) : Units.Statement (.slotBNop t w) := fun h => all_one (and_left h)
theorem Units.lds (t : Nat) (w : W64) : Units.Statement (.lds t w) := fun h => all_one (and_left h)
theorem Units.sts (t : Nat) (w : W64) : Units.Statement (.sts t w) := fun h => all_one (and_left h)
theorem Units.ldv (t : Nat) (w : W64) : Units.Statement (.ldv t w) := fun h => all_one (and_left h)
theorem Units.stv (t : Nat) (w : W64) : Units.Statement (.stv t w) := fun h => all_one (and_left h)
theorem Units.fill (t : Nat) (w : W64) : Units.Statement (.fill t w) := fun h => all_one (and_left h)
theorem Units.copy (t : Nat) (w : W64) : Units.Statement (.copy t w) := fun h => all_one (and_left h)
theorem Units.accw (t : Nat) (w : W64) : Units.Statement (.accw t w) := fun h => all_one (and_left h)
theorem Units.varith (t : Nat) (w : W64) : Units.Statement (.varith t w) := fun h => all_one (and_left h)
theorem Units.vfma (t : Nat) (w : W64) : Units.Statement (.vfma t w) := fun h => all_one (and_left h)
theorem Units.vcmp (t : Nat) (w : W64) : Units.Statement (.vcmp t w) := fun h => all_one (and_left h)
theorem Units.vlogic (t : Nat) (w : W64) : Units.Statement (.vlogic t w) := fun h => all_one (and_left h)
theorem Units.vsel (t : Nat) (w : W64) : Units.Statement (.vsel t w) := fun h => all_one (and_left h)
theorem Units.vcvt (t : Nat) (w : W64) : Units.Statement (.vcvt t w) := fun h => all_one (and_left h)
theorem Units.vred (t : Nat) (w : W64) : Units.Statement (.vred t w) := fun h => all_one (and_left h)
theorem Units.vperm (t : Nat) (w : W64) : Units.Statement (.vperm t w) := fun h => all_one (and_left h)
theorem Units.vbcast (t : Nat) (w : W64) : Units.Statement (.vbcast t w) := fun h => all_one (and_left h)
theorem Units.vmovs (t : Nat) (w : W64) : Units.Statement (.vmovs t w) := fun h => all_one (and_left h)
theorem Units.mld (t : Nat) (w : W64) : Units.Statement (.mld t w) := fun h => all_one (and_left h)
theorem Units.mma (t : Nat) (w : W64) : Units.Statement (.mma t w) := fun h => all_one (and_left h)
theorem Units.mdrain (t : Nat) (w : W64) : Units.Statement (.mdrain t w) := fun h => all_one (and_left h)
theorem Units.mfq (t : Nat) (w : W64) : Units.Statement (.mfq t w) := fun h => all_one (and_left h)
theorem Units.storeGroupWrite (t : Nat) (row : Nat) : Units.Statement (.storeGroupWrite t row) := fun h => both h
theorem Units.memopComplete (t : Nat) : Units.Statement (.memopComplete t) := fun h => all_one h
theorem Units.bankOff (t : Nat) (b : Nat) : Units.Statement (.bankOff t b) := fun h => both h
theorem Units.bankWakeDone (t : Nat) (b : Nat) : Units.Statement (.bankWakeDone t b) := fun h => both h
theorem Units.fillerPassBegin (t : Nat) : Units.Statement (.fillerPassBegin t) := fun h => all_one h
theorem Units.fillerEntryComplete (t : Nat) : Units.Statement (.fillerEntryComplete t) := fun h => all_one h
theorem Units.exchangeTransfer (t : Nat) (e : Nat) (i : Nat) : Units.Statement (.exchangeTransfer t e i) := fun h => both h
theorem Units.switchTransfer (d : Nat) (e : Nat) (i : Nat) : Units.Statement (.switchTransfer d e i) := fun h => both h
theorem Units.writePacket (d : Nat) (port : Nat) (p : Packet) : Units.Statement (.writePacket d port p) := fun h => both (and_left (and_left h))
theorem Units.writeAccPacket (d : Nat) (port : Nat) (p : Packet) : Units.Statement (.writeAccPacket d port p) := fun h => both (and_left (and_left h))
theorem Units.readReqPacket (d : Nat) (port : Nat) (p : Packet) : Units.Statement (.readReqPacket d port p) := fun h => both (and_left (and_left h))
theorem Units.readRspPacket (d : Nat) (port : Nat) (p : Packet) : Units.Statement (.readRspPacket d port p) := fun h => both (and_left (and_left h))
theorem Units.signalPacket (d : Nat) (port : Nat) (p : Packet) : Units.Statement (.signalPacket d port p) := fun h => both (and_left (and_left h))
theorem Units.accumPacket (d : Nat) (port : Nat) (p : Packet) : Units.Statement (.accumPacket d port p) := fun h => both (and_left (and_left h))
theorem Units.ackPacket (d : Nat) (port : Nat) (p : Packet) : Units.Statement (.ackPacket d port p) := fun h => both (and_left (and_left h))
theorem Units.reservePacket (d : Nat) (port : Nat) (p : Packet) : Units.Statement (.reservePacket d port p) := fun h => both (and_left (and_left h))
theorem Units.grantPacket (d : Nat) (port : Nat) (p : Packet) : Units.Statement (.grantPacket d port p) := fun h => both (and_left (and_left h))
theorem Units.creditReturn (buf : Nat) (inst : Nat) (vc : Bool) : Units.Statement (.creditReturn buf inst vc) := fun h => all_one (and_left (and_left (and_left h)))
theorem Units.landingBufferWrite (t : Nat) : Units.Statement (.landingBufferWrite t) := fun h => all_one h
theorem Units.fetchDescriptorStart (t : Nat) : Units.Statement (.fetchDescriptorStart t) := fun h => all_one h
theorem Units.fetchReadIssue (t : Nat) : Units.Statement (.fetchReadIssue t) := fun h => all_one h
theorem Units.fetchDescriptorComplete (t : Nat) : Units.Statement (.fetchDescriptorComplete t) := fun h => all_one h
theorem Units.readTimeout (t : Nat) (tag : Nat) : Units.Statement (.readTimeout t tag) := fun h => all_one h
theorem Units.fenceRelease (u : Issuer) : Units.Statement (.fenceRelease u) := fun h => all_one h
theorem Units.sigRDepart (u : Issuer) : Units.Statement (.sigRDepart u) := fun h => all_one h
theorem Units.refreshTick : Units.Statement (.refreshTick) := fun _ => rfl
theorem Units.refresh (r : Nat) (path : Nat) : Units.Statement (.refresh r path) := fun h => both h
theorem Units.regionCheckEntry (r : Nat) (i : Nat) : Units.Statement (.regionCheckEntry r i) := fun h => both h
theorem Units.regionClose (r : Nat) (i : Nat) : Units.Statement (.regionClose r i) := fun h => both h
theorem Units.regionReleaseComplete (r : Nat) (i : Nat) : Units.Statement (.regionReleaseComplete r i) := fun h => both h
theorem Units.regionForceClose (r : Nat) (i : Nat) : Units.Statement (.regionForceClose r i) := fun h => both h
theorem Units.rveNop (r : Nat) (w : W64) : Units.Statement (.rveNop r w) := fun h => all_one (and_left h)
theorem Units.rveBr (r : Nat) (w : W64) : Units.Statement (.rveBr r w) := fun h => all_one (and_left h)
theorem Units.rveBcc (r : Nat) (w : W64) : Units.Statement (.rveBcc r w) := fun h => all_one (and_left h)
theorem Units.rveEnd (r : Nat) (w : W64) : Units.Statement (.rveEnd r w) := fun h => all_one (and_left h)
theorem Units.endWaitEntry (r : Nat) : Units.Statement (.endWaitEntry r) := fun h => all_one h
theorem Units.skip (r : Nat) (w : W64) : Units.Statement (.skip r w) := fun h => all_one (and_left h)
theorem Units.xop (r : Nat) (w : W64) : Units.Statement (.xop r w) := fun h => all_one (and_left h)
theorem Units.xaddi (r : Nat) (w : W64) : Units.Statement (.xaddi r w) := fun h => all_one (and_left h)
theorem Units.xseti (r : Nat) (w : W64) : Units.Statement (.xseti r w) := fun h => all_one (and_left h)
theorem Units.xseth (r : Nat) (w : W64) : Units.Statement (.xseth r w) := fun h => all_one (and_left h)
theorem Units.xld (r : Nat) (w : W64) : Units.Statement (.xld r w) := fun h => all_one (and_left h)
theorem Units.xst (r : Nat) (w : W64) : Units.Statement (.xst r w) := fun h => all_one (and_left h)
theorem Units.xfop (r : Nat) (w : W64) : Units.Statement (.xfop r w) := fun h => all_one (and_left h)
theorem Units.zop (r : Nat) (w : W64) : Units.Statement (.zop r w) := fun h => all_one (and_left h)
theorem Units.zfma (r : Nat) (w : W64) : Units.Statement (.zfma r w) := fun h => all_one (and_left h)
theorem Units.zun (r : Nat) (w : W64) : Units.Statement (.zun r w) := fun h => all_one (and_left h)
theorem Units.zbc (r : Nat) (w : W64) : Units.Statement (.zbc r w) := fun h => all_one (and_left h)
theorem Units.zcmp (r : Nat) (w : W64) : Units.Statement (.zcmp r w) := fun h => all_one (and_left h)
theorem Units.zsel (r : Nat) (w : W64) : Units.Statement (.zsel r w) := fun h => all_one (and_left h)
theorem Units.zred (r : Nat) (w : W64) : Units.Statement (.zred r w) := fun h => all_one (and_left h)
theorem Units.zld (r : Nat) (w : W64) : Units.Statement (.zld r w) := fun h => all_one (and_left h)
theorem Units.zst (r : Nat) (w : W64) : Units.Statement (.zst r w) := fun h => all_one (and_left h)
theorem Units.zldr (r : Nat) (w : W64) : Units.Statement (.zldr r w) := fun h => all_one (and_left h)
theorem Units.rsend (r : Nat) (w : W64) : Units.Statement (.rsend r w) := fun h => all_one (and_left h)
theorem Units.rveSig (r : Nat) (w : W64) : Units.Statement (.rveSig r w) := fun h => all_one (and_left h)
theorem Units.rveWait (r : Nat) (w : W64) : Units.Statement (.rveWait r w) := fun h => all_one (and_left h)
theorem Units.rveWaitc (r : Nat) (w : W64) : Units.Statement (.rveWaitc r w) := fun h => all_one (and_left h)
theorem Units.rveCons (r : Nat) (w : W64) : Units.Statement (.rveCons r w) := fun h => all_one (and_left h)
theorem Units.readc (r : Nat) (w : W64) : Units.Statement (.readc r w) := fun h => all_one (and_left h)
theorem Units.openRegion (r : Nat) (w : W64) : Units.Statement (.openRegion r w) := fun h => all_one (and_left h)
theorem Units.rveFence (r : Nat) (w : W64) : Units.Statement (.rveFence r w) := fun h => all_one (and_left h)
theorem Units.linkDataFlit (n : Nat) (f : LinkFlit) : Units.Statement (.linkDataFlit n f) := fun h =>
  all_one (and_left (and_left (and_left (and_left h))))
theorem Units.linkIdleFlit (n : Nat) (f : LinkFlit) : Units.Statement (.linkIdleFlit n f) := fun h =>
  all_one (and_left (and_left (and_left (and_left h))))
theorem Units.replayReq (n : Nat) (f : LinkFlit) : Units.Statement (.replayReq n f) := fun h =>
  all_one (and_left (and_left (and_left (and_left h))))
theorem Units.replayReqResend (n : Nat) : Units.Statement (.replayReqResend n) := fun h => all_one h
theorem Units.laneLossOfLock (n : Nat) (pos : Nat) : Units.Statement (.laneLossOfLock n pos) := fun h => both h
theorem Units.trainingComplete (n : Nat) (x : TrainResult) : Units.Statement (.trainingComplete n x) := fun h => all_one h
theorem Units.retrainComplete (n : Nat) (x : TrainResult) : Units.Statement (.retrainComplete n x) := fun h => all_one h
theorem Units.laneSerWindow (n : Nat) (counts : List Nat) : Units.Statement (.laneSerWindow n counts) := fun h => all_one (and_left h)
theorem Units.checkpointComplete (r : Nat) : Units.Statement (.checkpointComplete r) := fun h => all_one h
theorem Units.markUnclean : Units.Statement (.markUnclean) := fun _ => rfl
theorem Units.crownPollRound : Units.Statement (.crownPollRound) := fun _ => rfl
theorem Units.ethFrameReceive (p : Nat) (f : EthFrame) : Units.Statement (.ethFrameReceive p f) := fun h => all_one h
theorem Units.arpRequest (p : Nat) (target : W32) (sender : W32) : Units.Statement (.arpRequest p target sender) := fun h => all_one h
theorem Units.neighborSolicitation (p : Nat) (target : BitVec 128) (sender : BitVec 128) : Units.Statement (.neighborSolicitation p target sender) := fun h => all_one h
theorem Units.icmpEcho (p : Nat) (v6 : Bool) (src : Nat) (ident : Nat) (data : List Byte) : Units.Statement (.icmpEcho p v6 src ident data) := fun h => all_one h
theorem Units.ptpMessage (p : Nat) (source : Nat) (domain : Nat) (secs : BitVec 48) (nanos : W32) (locked : Bool) : Units.Statement (.ptpMessage p source domain secs nanos locked) := fun h => all_one h
theorem Units.rdmaWrite (p : Nat) (q : Nat) (psn : BitVec 24) (first : Bool) (last : Bool) (ce : Bool) (rkey : W32) (va : Nat) (dmaLen : Nat) (data : List Byte) : Units.Statement (.rdmaWrite p q psn first last ce rkey va dmaLen data) := fun h => both (and_left h)
theorem Units.rdmaRead (p : Nat) (q : Nat) (psn : BitVec 24) (ce : Bool) (rkey : W32) (va : Nat) (len : Nat) : Units.Statement (.rdmaRead p q psn ce rkey va len) := fun h => both h
theorem Units.roceSend (p : Nat) (q : Nat) (psn : BitVec 24) (ce : Bool) (msg : List Byte) : Units.Statement (.roceSend p q psn ce msg) := fun h => both h
theorem Units.roceAckReceive (q : Nat) (psn : BitVec 24) (nak : AckIn) : Units.Statement (.roceAckReceive q psn nak) := fun h => all_one h
theorem Units.rdmaReadResponse (q : Nat) (psn : BitVec 24) (data : DataIn) : Units.Statement (.rdmaReadResponse q psn data) := fun h => all_one h
theorem Units.cnpReceive (q : CnpIn) : Units.Statement (.cnpReceive q) := fun h => all_one h
theorem Units.rateRaiseTimer (q : Nat) : Units.Statement (.rateRaiseTimer q) := fun h => all_one h
theorem Units.intakeLanding (p : Nat) : Units.Statement (.intakeLanding p) := fun h => all_one h
theorem Units.getInfo (c : IcpCmd) : Units.Statement (.getInfo c) := fun _ => rfl
theorem Units.getCapability (c : IcpCmd) : Units.Statement (.getCapability c) := fun _ => rfl
theorem Units.getState (c : IcpCmd) : Units.Statement (.getState c) := fun _ => rfl
theorem Units.getTime (c : IcpCmd) : Units.Statement (.getTime c) := fun _ => rfl
theorem Units.load (c : IcpCmd) (area : Nat) (len : Nat) (flags : W64) : Units.Statement (.load c area len flags) := fun _ => rfl
theorem Units.arm (c : IcpCmd) (bs : W64) : Units.Statement (.arm c bs) := fun _ => rfl
theorem Units.stop (c : IcpCmd) (bx : W64) : Units.Statement (.stop c bx) := fun _ => rfl
theorem Units.abort (c : IcpCmd) : Units.Statement (.abort c) := fun _ => rfl
theorem Units.unload (c : IcpCmd) : Units.Statement (.unload c) := fun _ => rfl
theorem Units.deviceReset (c : IcpCmd) : Units.Statement (.deviceReset c) := fun _ => rfl
theorem Units.chimeSet (c : IcpCmd) (flags : W32) (dst : BitVec 128) (udp : W16) (outPort : Byte) (n : W32) (base : W64) : Units.Statement (.chimeSet c flags dst udp outPort n base) := fun _ => rfl
theorem Units.memRead (c : IcpCmd) (addr : Nat) (len : Nat) : Units.Statement (.memRead c addr len) := fun _ => rfl
theorem Units.memWrite (c : IcpCmd) (addr : Nat) (data : List Byte) : Units.Statement (.memWrite c addr data) := fun _ => rfl
theorem Units.qpConnect (c : IcpCmd) (q : Nat) (port : Nat) (rqpn : W32) (raddr : BitVec 128) (sendPsn : W32) (expPsn : W32) : Units.Statement (.qpConnect c q port rqpn raddr sendPsn expPsn) := fun _ => rfl
theorem Units.qpReset (c : IcpCmd) (q : Nat) : Units.Statement (.qpReset c q) := fun _ => rfl
theorem Units.logRead (c : IcpCmd) (which : Byte) (first : W32) (count : Byte) : Units.Statement (.logRead c which first count) := fun _ => rfl
theorem Units.health (c : IcpCmd) : Units.Statement (.health c) := fun _ => rfl
theorem Units.counterView (c : IcpCmd) (cref : W32) : Units.Statement (.counterView c cref) := fun _ => rfl
theorem Units.physRead (c : IcpCmd) (die : Byte) (row : Byte) (pos : Byte) (block : Byte) (off : W32) : Units.Statement (.physRead c die row pos block off) := fun _ => rfl
theorem Units.fwStageBegin (c : IcpCmd) (len : W32) : Units.Statement (.fwStageBegin c len) := fun _ => rfl
theorem Units.fwStageData (c : IcpCmd) (off : W32) (data : List Byte) : Units.Statement (.fwStageData c off data) := fun _ => rfl
theorem Units.fwVerify (c : IcpCmd) : Units.Statement (.fwVerify c) := fun _ => rfl
theorem Units.fwSchedule (c : IcpCmd) (beat : W64) : Units.Statement (.fwSchedule c beat) := fun _ => rfl
theorem Units.fwAbandon (c : IcpCmd) : Units.Statement (.fwAbandon c) := fun _ => rfl
theorem Units.fwStatus (c : IcpCmd) : Units.Statement (.fwStatus c) := fun _ => rfl
theorem Units.ownerEnrol (c : IcpCmd) (qO : List Byte) (qE : List Byte) (sigNew : List Byte) (sigCur : List Byte) : Units.Statement (.ownerEnrol c qO qE sigNew sigCur) := fun _ => rfl
theorem Units.ownerLock (c : IcpCmd) : Units.Statement (.ownerLock c) := fun _ => rfl
theorem Units.ownerRelease (c : IcpCmd) (mode : Byte) (sig : List Byte) : Units.Statement (.ownerRelease c mode sig) := fun _ => rfl
theorem Units.netSet (c : IcpCmd) (p : Nat) (ipv4 : W32) (ipv6 : BitVec 128) (vlan : W16) : Units.Statement (.netSet c p ipv4 ipv6 vlan) := fun _ => rfl
theorem Units.powerGet (c : IcpCmd) : Units.Statement (.powerGet c) := fun _ => rfl
theorem Units.budgetSet (c : IcpCmd) (budget : W32) : Units.Statement (.budgetSet c budget) := fun _ => rfl
theorem Units.ceilingSet (c : IcpCmd) (tileCeil : W16) (tempCeil : W16) : Units.Statement (.ceilingSet c tileCeil tempCeil) := fun _ => rfl
theorem Units.floorSet (c : IcpCmd) (floor : W16) : Units.Statement (.floorSet c floor) := fun _ => rfl
theorem Units.permute (c : IcpCmd) (table : W64) (entries : W32) (rounds : W16) (b0 : W64) : Units.Statement (.permute c table entries rounds b0) := fun _ => rfl
theorem Units.restore (c : IcpCmd) (source : Byte) (lost : Byte) (holder : W16) (step : W64) : Units.Statement (.restore c source lost holder step) := fun _ => rfl
theorem Units.returnToService (c : IcpCmd) (kind : Byte) (inst : W32) : Units.Statement (.returnToService c kind inst) := fun _ => rfl
theorem Units.blockReset (c : IcpCmd) (block : Byte) (inst : W16) : Units.Statement (.blockReset c block inst) := fun _ => rfl
theorem Units.spdmGetVersion (c : IcpCmd) : Units.Statement (.spdmGetVersion c) := fun _ => rfl
theorem Units.spdmGetCapabilities (c : IcpCmd) : Units.Statement (.spdmGetCapabilities c) := fun _ => rfl
theorem Units.spdmNegotiateAlgorithms (c : IcpCmd) (asym : W32) (hash : W32) : Units.Statement (.spdmNegotiateAlgorithms c asym hash) := fun _ => rfl
theorem Units.spdmGetDigests (c : IcpCmd) : Units.Statement (.spdmGetDigests c) := fun _ => rfl
theorem Units.spdmGetCertificate (c : IcpCmd) (slot : Byte) (off : W16) (len : W16) : Units.Statement (.spdmGetCertificate c slot off len) := fun _ => rfl
theorem Units.spdmChallenge (c : IcpCmd) (slot : Byte) (nonce : BitVec 256) : Units.Statement (.spdmChallenge c slot nonce) := fun _ => rfl
theorem Units.spdmGetMeasurements (c : IcpCmd) (index : Byte) (signed : Bool) (nonce : BitVec 256) : Units.Statement (.spdmGetMeasurements c index signed nonce) := fun _ => rfl
theorem Units.setEndpointId (eid : Byte) : Units.Statement (.setEndpointId eid) := fun _ => rfl
theorem Units.getEndpointId : Units.Statement (.getEndpointId) := fun _ => rfl
theorem Units.getMctpVersionSupport (msgType : Byte) : Units.Statement (.getMctpVersionSupport msgType) := fun _ => rfl
theorem Units.getMessageTypeSupport : Units.Statement (.getMessageTypeSupport) := fun _ => rfl
theorem Units.powerOnReset (x : PowerUp) : Units.Statement (.powerOnReset x) := fun _ => rfl
theorem Units.resetPin (lowRc : Nat) : Units.Statement (.resetPin lowRc) := fun _ => rfl
theorem Units.criticalStateReset (block : Nat) (inst : Nat) : Units.Statement (.criticalStateReset block inst) := fun _ => rfl
theorem Units.commandReset : Units.Statement (.commandReset) := fun _ => rfl
theorem Units.watchdogReset : Units.Statement (.watchdogReset) := fun _ => rfl
theorem Units.domainRelease (row : Nat) (locked : Bool) : Units.Statement (.domainRelease row locked) := fun h => all_one h
theorem Units.pllLockTimeout (row : Nat) : Units.Statement (.pllLockTimeout row) := fun h => all_one h
theorem Units.resetStretchEnd : Units.Statement (.resetStretchEnd) := fun _ => rfl
theorem Units.firstStageVerify : Units.Statement (.firstStageVerify) := fun _ => rfl
theorem Units.bootSettings : Units.Statement (.bootSettings) := fun _ => rfl
theorem Units.bootMaps : Units.Statement (.bootMaps) := fun _ => rfl
theorem Units.bootNet : Units.Statement (.bootNet) := fun _ => rfl
theorem Units.understoryCompare (x : UsInputs) : Units.Statement (.understoryCompare x) := fun _ => rfl
theorem Units.standbyEnter (v : W64) : Units.Statement (.standbyEnter v) := fun _ => rfl
theorem Units.standbyPowerOff : Units.Statement (.standbyPowerOff) := fun _ => rfl
theorem Units.wakePin (lowCrystal : Nat) : Units.Statement (.wakePin lowCrystal) := fun _ => rfl
theorem Units.tripClear (lowCrystal : Nat) : Units.Statement (.tripClear lowCrystal) := fun _ => rfl
theorem Units.rtcAlarm : Units.Statement (.rtcAlarm) := fun _ => rfl
theorem Units.rtcSet (v : W64) : Units.Statement (.rtcSet v) := fun _ => rfl
theorem Units.regulatorSample (powerBu : Nat) (coreTemps ringTemps : List Int) : Units.Statement (.regulatorSample powerBu coreTemps ringTemps) := fun _ => rfl
theorem Units.droop (src : Nat) : Units.Statement (.droop src) := fun h => all_one h
theorem Units.droopHoldExpire (src : Nat) : Units.Statement (.droopHoldExpire src) := fun h => all_one h
theorem Units.fwActivation : Units.Statement (.fwActivation) := fun _ => rfl
theorem Units.linkFlitSend (n : Nat) : Units.Statement (.linkFlitSend n) := fun h => all_one h
theorem Units.holdAccounting : Units.Statement (.holdAccounting) := fun _ => rfl
theorem Units.farEndRetrain (n : Nat) : Units.Statement (.farEndRetrain n) := fun h => all_one h
theorem Units.pcsLockChange (p : Nat) (locked : Bool) : Units.Statement (.pcsLockChange p locked) := fun h => all_one h
theorem Units.auxPowerGood : Units.Statement (.auxPowerGood) := fun _ => rfl
theorem Units.resetNRelease (highRc : Nat) : Units.Statement (.resetNRelease highRc) := fun _ => rfl
theorem Units.periodicInterfaceTraining (r : Nat) (path : Nat) (ok : Bool) : Units.Statement (.periodicInterfaceTraining r path ok) := fun h => both h
theorem Units.ieee1149Access (op : JtagOp) : Units.Statement (.ieee1149Access op) := fun _ => rfl

end Sys2Proof.Laws
end

