-- ==== Sys2Proof/Tests/Slice0.lean ====
section
/-! SUPPORT. Tests of the model's own: for the hypotheses of each statement small states that meet them together. -/

namespace Sys2Proof.Tests

open Sys2Proof.Machine

/-! ## Small states -/

/-- No domain is in reset. -/
def up : State :=
  { State.reset with seqr := { Sequencer.powerOn with held := [], t0 := none }, crown := { State.reset.crown with loaded := true } }

/-- Cycle 10 of a segment of 1,000 cycles is delivered. -/
def esc : Esc := { Esc.fresh with segOn := true, live := true, tc := 10, next := 11, len := 1000 }

/-- Tile 0 is `q` in that cycle. -/
def onTile (q : Tile) : State := { up with run := .running, edge := 600, tiles := [(0, q)], esc := esc }

/-- A core that runs, with s1 = `a` and s2 = `b`. -/
def core (a b : Nat) : Tile :=
  { Tile.fresh with core := .run, pc := 8, cyc := 10, sreg := [(1, BitVec.ofNat 64 a), (2, BitVec.ofNat 64 b)] }

/-- A word with `a` in slot A and `b` in slot B. -/
def word (a b : Nat) : W64 := BitVec.ofNat 64 (b * 2 ^ 32 + a)

/-- A slot: operation, RD, RA, RB and the low 11 bits. -/
def slot (op rd ra rb fn : Nat) : Nat := op * 2 ^ 26 + rd * 2 ^ 21 + ra * 2 ^ 16 + rb * 2 ^ 11 + fn

/-- A tile whose slot B word `b` is next, issued in cycle 9. -/
def atB (q : Tile) (b : Nat) : Tile := { q with bWord := some (word 0 b), bCyc := 9, bPc := 7 }

/-- A class of one segment of 1,000 cycles whose boundary is cycle 20. -/
def job : Job :=
  { profile := 1, classId := 0, rows16 := 0, roots := 0, eth := 0, links := 0, minBudget := 0, seq := [0]
    classes := [⟨0, 1000, [20, 40], [true, false], [], []⟩], period := 0, holdBudget := 0, depth := 0, hopMax := 0
    rootCycles := [], alloc := 100000, tiles := [], rootSecs := [], opens := [], openOffs := [], offClass := 0, offTiming := 0
    offPower := 0, intake := [], hash := [] }

/-- A device in state `r` at an rc edge, its escapement `e`. -/
def inRun (r : RunState) (e : Esc) : State := { up with run := r, edge := 6000, job := some job, esc := e }

/-- Live values of register fields. -/
def set (s : State) (l : List (RegField × Nat × Nat × Nat)) : State :=
  l.foldl (fun s x => s.putFld x.1 x.2.1 x.2.2.1 x.2.2.2) s

/-- The live address of a field's register. -/
def addr (f : RegField) (i : Nat) : Nat := f.block.base + i * f.block.stride + f.off

/-- A refresh occupies path 0 of root die 0. -/
def occupied (s : State) : State := { s with roots := [(0, { Root.fresh with refEnd := [(0, 1000)] })] }

/-- A packet at its destination, with all its flits there. -/
def here (p : Packet) : Transit := ⟨p, [], p.flits, [], none⟩

/-- A packet for device 0 from unit `u`. -/
def pkt (kind a u len : Nat) (data : List Byte) : Packet :=
  mkPacket { dest := a, unit := u, dev := 0, kind := kind, len := len, payload := data, n := 0 }

/-- The Crown is ready, in run state `r`, and port 0 takes frames. -/
def ready (r : RunState) : State :=
  { set up [(F.RS_BOOT_PHASE, 0, 0, 5), (F.RS_STRAPS_SMB_ADDR, 0, 0, 0x20)] with
    run := r, job := some job, ports := [(0, { Port.fresh with up := true, ipv4 := 1 })]
    crown := { up.crown with ready := true } }

/-- A header over port `via`, for every device. -/
def cmd (via : Nat) : IcpCmd := { src := 1, via := via, dev := 0xFFFF, seq := 7, tag := none, vendor := 0 }

/-! ## What small states have in common -/

theorem sread_mem {α : Type} (d : α) (m : SMap α) (k : Nat) : SMap.read d m k = d ∨ ∃ e ∈ m, SMap.read d m k = e.2 := by
  induction m with
  | nil => exact .inl rfl
  | cons e m ih =>
    obtain ⟨j, v⟩ := e
    simp only [SMap.read]
    split
    · exact .inr ⟨(j, v), by simp, rfl⟩
    · rcases ih with h | ⟨e, he, h⟩
      · exact .inl h
      · exact .inr ⟨e, by simp [he], h⟩

theorem banksOn_of (s : State) (t : Nat) (h : (s.tile t).banks = []) : s.BanksOn t := by
  intro g _
  simp [State.rowOn, h, SMap.read]

theorem rowsApart_of (s : State) (t : Nat) (hm : s.fld F.SP_CFG_MODE t 0 = 0)
    (hr : ∀ b, b < 48 → s.rowmap (s.physTile t) b = List.replicate 8 0) : s.RowsApart t := by
  have hk (g : Nat) : s.spKey t g = rowKey ((g + 7 * (g / 48)) % 48) (g / 48) := by
    have hb : (g + 7 * (g / 48)) % 48 < 48 := Nat.mod_lt _ (by omega)
    simp [State.spKey, State.bankOf, spMap, hm, State.physRow, hr _ hb, List.replicate, spareFor, bit]
  intro g h hg hh he
  rw [hk, hk] at he
  simp only [rowKey] at he
  have h1 : (g + 7 * (g / 48)) % 48 = (h + 7 * (h / 48)) % 48 ∧ g / 48 = h / 48 := by
    have hg' : g / 48 < 1024 := by omega
    have hh' : h / 48 < 1024 := by omega
    generalize (g + 7 * (g / 48)) % 48 = x at *
    generalize (h + 7 * (h / 48)) % 48 = y at *
    omega
  obtain ⟨h1, h2⟩ := h1
  rw [h2] at h1
  omega

theorem pathsSound_of (s : State) (h : ∀ e ∈ s.roots, e.2.crcBad = [] ∧ e.2.crcRun = []) : s.PathsSound := by
  intro r p
  simp only [State.root]
  rcases sread_mem Root.fresh s.roots r with e | ⟨e, he, e'⟩
  · rw [e]; exact ⟨rfl, rfl⟩
  · rw [e', (h e he).1, (h e he).2]; exact ⟨rfl, rfl⟩

theorem recGood_of (s : State) (h : ∀ e ∈ s.roots, e.2.storeBad = []) (r x k : Nat) : s.recCheck r x k = 0 := by
  simp only [State.recCheck, State.root]
  rcases sread_mem Root.fresh s.roots r with e | ⟨e, he, e'⟩
  · rw [e]; rfl
  · rw [e', h e he]; rfl

theorem pathFree_of (s : State) (h : ∀ e ∈ s.roots, e.2.refEnd = [] ∧ e.2.crcBad = [] ∧ e.2.forced = []) (a : Nat) :
    s.pathBusy a = false := by
  have hr (r p : Nat) : (s.root r).refEnd.read 0 p = 0 ∧ (s.root r).crcBad.read 0 p = 0 ∧ (s.root r).forced = [] := by
    simp only [State.root]
    rcases sread_mem Root.fresh s.roots r with e | ⟨e, he, e'⟩
    · rw [e]; exact ⟨rfl, rfl, rfl⟩
    · rw [e', (h e he).1, (h e he).2.1, (h e he).2.2]; exact ⟨rfl, rfl, rfl⟩
  have hf (r : Nat) : (s.root r).forced = [] := (hr r 0).2.2
  simp [State.pathBusy, hr, hf]

theorem lineFree_of (s : State) (h : ∀ e ∈ s.roots, e.2.refEnd = [] ∧ e.2.crcBad = [] ∧ e.2.forced = [] ∧ e.2.reqs = []) (a n : Nat) :
    s.lineHeld a n = false := by
  have hp (b : Nat) : s.pathBusy b = false := pathFree_of s (fun e he => ⟨(h e he).1, (h e he).2.1, (h e he).2.2.1⟩) b
  have hq : s.roots.any (fun e => e.2.reqs.any (fun q => sameLine a n q.addr q.len)) = false := by
    simp only [List.any_eq_false]
    intro e he
    simp [(h e he).2.2.2]
  simp [State.lineHeld, hp, hq]

/-- With every bank taken in the present cycle no exchange slot is open. -/
theorem noSlot_of (s : State) (t : Nat) (hm : s.fld F.SP_CFG_MODE t 0 = 0) (h : ∀ b, b < 48 → b ∈ (s.tile t).xUse) (g : Nat) (wr : Bool) :
    s.slotOpen t g wr = false := by
  have hb : (g + 7 * (g / 48)) % 48 ∈ (s.tile t).xUse := h _ (Nat.mod_lt _ (by omega))
  simp [State.slotOpen, State.bankOf, spMap, hm, hb]

theorem crcByte_lt (poly c : Nat) (b : Byte) (hp : poly < 2 ^ 32) (hc : c < 2 ^ 32) : crcByte poly c b < 2 ^ 32 := by
  have hb (c : Nat) (h : c < 2 ^ 32) : crcBit poly c < 2 ^ 32 := by
    unfold crcBit
    split
    · exact Nat.xor_lt_two_pow (by omega) hp
    · omega
  have h0 : c ^^^ b.toNat < 2 ^ 32 := Nat.xor_lt_two_pow hc (Nat.lt_trans b.isLt (by decide))
  unfold crcByte
  repeat' first | exact h0 | apply hb

theorem crc32_lt (l : List Byte) : crc32 l < 2 ^ 32 := by
  have h : ∀ (l : List Byte) (c : Nat), c < 2 ^ 32 → l.foldl (crcByte 0xEDB88320) c < 2 ^ 32 := by
    intro l
    induction l with
    | nil => exact fun c h => h
    | cons b l ih => exact fun c h => ih _ (crcByte_lt _ c b (by decide) h)
  exact Nat.xor_lt_two_pow (h l _ (by decide)) (by decide)

/-- A flit as it is formed passes its CRC. -/
theorem flitGood_mkFlit (beat : W32) (ty seq ack st fill cs ct : Nat) (d : List Byte) :
    flitGood (mkFlit beat ty seq ack st fill cs ct d) = true := by
  simp only [flitGood, mkFlit, List.all_nil, Bool.true_and, BitVec.toNat_ofNat, Nat.mod_eq_of_lt (crc32_lt _), beq_self_eq_true]

theorem apart (q : Tile) : (onTile q).RowsApart 0 := rowsApart_of _ _ rfl (fun _ _ => rfl)

/-! ## The block as a whole -/

theorem test_StepIdles :
    let s := { State.reset with pending := [] }
    s.pending = [] ∧ s.seqr.held.contains 9 = true ∧ s.esc.hold = none ∧ s.esc.frozen = none ∧ s.esc.due0 = false ∧
      s.seqr.arm = none ∧ s.busyTiles = [] ∧ s.net = [] ∧ s.seqr.restart = false ∧ s.bt.pinEdge = false ∧
      crystalEdges (s.edge + 1) = crystalEdges s.edge ∧ s.swallowedAt (s.edge + 1) = false := by decide +kernel

theorem test_StepIdles_swallow : (State.reset.setFld F.PW_STATUS_K_BUDGET 0 0 128).swallowedAt 1 = true := by decide +kernel

theorem test_reset_memory : Memory.wf State.reset.dram = true := by decide

/-! ## Tile core, scratchpad and matrix unit -/

/-- Every function of ALU issues, and so do the other scalar operations. -/
theorem test_ScalarArithmetic : ∀ fn, fn < 14 → (onTile (core 5 3)).Issues 0 (word (slot 0x10 4 1 2 fn) 0) 10 := by
  unfold State.Issues; decide +kernel

/-- A taken and an untaken branch, a LOOP of no turn and of one, and a BOUND before and after its boundary. -/
theorem test_TileControl :
    let s (b : Nat) := { onTile (core b b) with job := some job }
    let w (op rd ra fn : Nat) := word (slot op rd ra 0 fn) 0
    (∀ b, b < 2 → (s b).Issues 0 (w 2 1 0 1) 10) ∧ InProgram ((s 0).pcAfter 0 9) ∧
      (∀ b, b < 2 → (s b).Issues 0 (w 5 1 0 64) 10) ∧ (s 0).Issues 0 (w 6 0 0 0) 10 ∧
      (s 0).boundary ((s 0).tile 0).sstep = some 20 ∧ (s 0).cycleNow ≤ 20 ∧
      { s 0 with esc := { esc with next := 22 } }.Issues 0 (w 6 0 0 0) 10 ∧
      20 < { s 0 with esc := { esc with next := 22 } }.cycleNow ∧
      (let q := (onTile { core 0 0 with core := .boundWait }).tile 0
       q.core = .boundWait ∧ q.wait = none ∧ q.xSig = []) := by
  unfold State.Issues InProgram; decide +kernel

theorem test_ControlRegisters :
    let s := onTile (core 0 1)
    let w (r op : Nat) := word (slot op 4 2 0 r) 0
    (∀ r, r < 40 → s.Issues 0 (w r 0x1A &&& ~~~ 0x1F0000) 10) ∧
      ((upFrom 0 40).filter (fun r => ((s.offer 0 (w r 0x1A &&& ~~~ 0x1F0000)).1.regAt (0xF000000000 + 8 * r)).any
        (fun x => x.info.name == .TL_PC || x.info.name == .TL_CYCLE))).length = 2 ∧
      (upFrom 0 40).any (fun r => ((s.offer 0 (word (slot 0x1B 0 2 0 r) 0)).1.regAt (0xF000000000 + 8 * r)).any RegAt.writable)
        = true := by
  unfold State.Issues; decide +kernel

/-- A descriptor at offset 0 and one at the last place of the scratchpad; the row of the PC is fetched in cycle 12. -/
theorem test_FetchAndInstructionFetch :
    let q := { core 0 0x17FFE0 with mem := [(12, 0xC0), (296940, 0xC0)] }
    let s := onTile q
    (∀ ra, ra ∈ [0, 2] → let w := word (slot 0x30 0 ra 0 0) 0
      let o := (q.s ra).toNat
      let s1 := (s.offer 0 w).1
      let wd (i : Nat) : Nat := ofBytes (((s1.coreLoad 0 10 o 32).1.drop (8 * i)).take 8)
      s.Issues 0 w 10 ∧ q.fetch.queued < 8 ∧ o % 32 = 0 ∧ o + 32 ≤ 0x180000 ∧ (s1.coreLoad 0 10 o 32).2.1 = [] ∧
        s1.descErr 0 (wd 2) (wd 3) (bits (wd 0) 63 63 + bits (wd 1) 63 63)
          (decodeDesc (wd 0) (wd 1) (wd 2) (wd 3) o 10 10 0 0) = none) ∧
    (let s := { s with esc := { esc with tc := 12, next := 13 } }
     q.core = .run ∧ q.pc < 0x30000 ∧ s.ticking = true ∧ q.fetchAt ≤ s.esc.tc ∧ (s.esc.tc - q.fetchAt) % 4 = 0 ∧
      2 ∉ q.did ∧ q.fetchRows = [] ∧ q.loop = none ∧ s.rowOn 0 2 = true ∧
      ∀ a, a < 96 → 64 ≤ a → (s.spAt 0 a).2 = false) := by
  unfold State.Issues; decide +kernel

/-- A full queue, the cycle counted or not; offsets misaligned and past the end; a descriptor that fails a check. -/
theorem test_FetchAndInstructionFetch_refused :
    let d : Desc := decodeDesc 0 0 0 0 0 9 9 0 0
    let w := word (slot 0x30 0 2 0 0) 0
    (∀ l ∈ [[], [0]], let q := { core 0 0 with did := l, fetch := { Tile.fresh.fetch with queue := List.replicate 8 d } }
      (onTile q).Issues 0 w 10 ∧ 8 ≤ q.fetch.queued ∧ (0 ∈ q.did ↔ l = [0])) ∧
    (∀ a ∈ [1, 0x180000], let q := core 0 a
      (onTile q).Issues 0 w 10 ∧ q.fetch.queued < 8 ∧ ((q.s 2).toNat % 32 ≠ 0 ∨ 0x180000 < (q.s 2).toNat + 32)) ∧
    (let s := onTile (core 0 32)
     let s1 := (s.offer 0 w).1
     s.Issues 0 w 10 ∧ (s1.coreLoad 0 10 32 32).2.1 = [] ∧ s1.descErr 0 0 0 0 (decodeDesc 0 0 0 0 32 10 10 0 0) = some (7, 0) ∧
       s.fld F.XC_FE_ERR_VALID 0 0 = 0) := by
  unfold State.Issues; decide +kernel

/-- A signal of the largest amount of SIGI, one that another follows in the same cycle, a signal to the device, to another
tile and, from s3, to device 5. -/
theorem test_TileSignals :
    let q := { core 0 0 with sreg := [(1, 0x20000003), (2, 7), (3, 5), (4, 0x40000000), (5, 0x10000)] }
    let s := { onTile q with counters := [(3, ⟨1, 0, true, 1, 1, 0, 0, 601⟩)] }
    let c := s.ctr 3
    s.Issues 0 (word (0x26 * 2 ^ 26 + 3 * 2 ^ 20 + 0xFFFF) 0) 10 ∧
    (∀ op, op ∈ [0x20, 0x21] → s.Issues 0 (word (slot op 1 2 0 0) 0) 10) ∧
    q.order.epoch ≤ q.order.done ∧ c.s + 0xFFFF < 2 ^ 48 ∧ crefKey (some 0) 0x20000003 = some 3 ∧
    s.pendWrites (.tile 0) = [] ∧ c.edge = s.edge + 1 ∧ 0 < c.unit ∧
    (∀ r, r ∈ [4, 5] → s.Issues 0 (word (slot 0x21 r 2 0 0) 0) 10 ∧ s.Issues 0 (word (slot 0x21 r 2 3 0x400) 0) 10) ∧
    crefKey (some 0) 0x40000000 = some 0x20000 ∧ crefKey (some 0) 0x10000 = some 64 ∧ (5 : Nat) ≠ s.self := by
  unfold State.Issues; decide +kernel

/-- A tile with a FILL outstanding. -/
def filling (o : Order) : Tile := { core 0 1 with
  memops := [{ kind := .fill 4, dst := 0, src := 0, len := 32, pattern := 0xA5, csig := true, cidx := 0, epoch := 0, seq := 0
               cyc := 0, row := 0, half := none }]
  order := o }

/-- A FENCE.W with and without a write before it, one whose writes are delivered, and a SIG.R that may leave. -/
theorem test_FencesAndCounts :
    let w := word (slot 0x27 0 0 0 0) 0
    let s (q : Tile) := onTile q
    (s (core 0 0)).Issues 0 w 10 ∧ (s (core 0 0)).pendWrites (.tile 0) = [] ∧
    (s (filling ⟨0, 0, 1, []⟩)).Issues 0 w 10 ∧ (∃ p ∈ (s (filling ⟨0, 0, 1, []⟩)).pendWrites (.tile 0), p.epoch ≤ 0) ∧
    (s { core 0 0 with order := ⟨1, 0, 1, []⟩ }).pendWrites (.tile 0) = [] ∧ (s (core 0 0)).esc.live = true ∧ up.esc.live = false ∧
    (∀ x ∈ [(0x20000003, 0, 3), (0x40000000, 0, 0x20000), (0x20000003, 5, 3)],
     let h : HeldSig := ⟨0, 0, true, BitVec.ofNat 32 x.1, 1, x.2.1⟩
     h.rel = true ∧ (s { core 0 0 with order := ⟨0, 0, 1, [h]⟩ }).canLeave (.tile 0) h = true ∧ crefKey (some 0) h.cref.toNat = some x.2.2 ∧
       0 < h.n ∧ ((s (core 0 0)).ctr x.2.2).s + h.n < 2 ^ 48 ∧ (s (core 0 0)).self = 0) := by
  unfold State.Issues; and_intros <;> decide +kernel

/-- CONS and READ with RB = 2 and, of a counter that is the last of the device, with RB = 30; a CONS that S allows and one
that it does not. -/
theorem test_FencesAndCounts_cons :
    let q := { core 0 0 with sreg := [(1, 0x20000000), (2, 1), (3, 0x400000FF)] }
    let s := onTile q
    s.Issues 0 (word (slot 0x24 1 2 0 0) 0) 10 ∧ s.Issues 0 (word (slot 0x25 1 0 2 0) 0) 10 ∧
    s.Issues 0 (word (slot 0x25 3 0 30 0) 0) 10 ∧ crefKey (some 0) 0x20000000 = some 0 ∧
    crefKey (some 0) 0x400000FF = some 0x200FF ∧
    (∀ n, n ∈ [1, 2] → ({ s with consOps := [⟨0, n, 0, 0⟩], counters := [(0, ⟨1, 0, true, 0, 0, 0, 0, 0⟩)] } : State).consOps
      = [⟨0, n, 0, 0⟩]) := by
  unfold State.Issues; decide +kernel

/-- A WAIT on a counter that has reached its amount, by exactly that amount, and one that has not; a WAITC of 0 and of 1; a
word whose latency is over; a tile and a root vector engine that wait. -/
theorem test_WaitsAndWaiters :
    let q := { core 0 0 with sreg := [(1, 0x20000000), (2, 1)] }
    let s (n : Nat) : State := { onTile q with counters := [(0, ⟨n, 0, true, 0, 0, 0, 0, 0⟩)] }
    let p : WaitWord := ⟨word (slot 0x22 1 2 0 0) 0, 0, false, 1, 5, some 10⟩
    (∀ n, n < 2 → (s n).Issues 0 (word (slot 0x22 1 2 0 0) 0) 10 ∧ (s n).Issues 0 (word (slot 0x23 1 2 0 0) 0) 10) ∧
    (s 0).Issues 0 (word (slot 0x23 1 0 0 0) 0) 10 ∧ crefKey (some 0) 0x20000000 = some 0 ∧ 1 ≤ ((s 1).ctr 0).s ∧
    ((s 0).ctr 0).s < 1 ∧ (s 1).cycleNow + ctrLatency 0 0 ≤ (s 1).esc.len ∧ 0 ∉ q.did ∧
    (let s := onTile { q with wait := some p }
     p.ready = some 10 ∧ 10 ≤ s.esc.tc ∧ s.acceptB 0 (slotB p.word) (s.tile 0).s = true) ∧
    (∀ c, let s := { s 1 with waiters := [⟨0, 0, c, 2⟩, ⟨0, 0, c, 1⟩, ⟨3 * 4096, 0, c, 1⟩], tiles := [(0, { q with wait := some p })] }
      crefKey none 0 = some 0 ∧ s.consOps = [] ∧ s.sigOps = [] ∧ ¬ 2 ≤ (s.ctr 0).s ∧ 1 ≤ (s.ctr 0).s - (s.ctr 0).c ∧ (s.tile 0).wait = some p ∧
        s.cycleNow + ctrLatency 0 0 ≤ s.esc.len) := by
  unfold State.Issues; decide +kernel

/-- Every function and type of the vector operations, and both slots of a conversion. -/
theorem test_VectorArithmetic : ∀ ty fn, ty < 8 → fn < 11 →
    (onTile (atB (core 0 0) (slot 0x10 1 2 3 (ty * 256 + fn)))).SlotBNext 0 (word 0 (slot 0x10 1 2 3 (ty * 256 + fn))) :=
  fun _ _ _ _ => ⟨rfl, rfl⟩

theorem test_VectorMovesAndConversions :
    let b := slot 0x19 1 2 0 (5 * 256 + 15)
    (onTile (atB (core 0 0) b)).SlotBNext 0 (word 0 b) ∧ 32 * ((word 0 b).extractLsb' 32 6).toNat < 512 := by
  unfold State.SlotBNext; decide +kernel

/-- The word `b` in slot B, its base register at `a`. -/
def atMem (b : Nat) (a : W64) : State := onTile (atB { core 0 0 with sreg := [(2, a)] } b)

/-- An aligned access at the last place of the scratchpad, one just past it and one misaligned. -/
theorem test_LoadsAndStores :
    (∀ op ∈ [1, 2], (atMem (slot op 1 2 0 0 + 2 * 2 ^ 13) 0x17FFFC).SlotBNext 0 (word 0 (slot op 1 2 0 0 + 2 * 2 ^ 13)) ∧
      ((word 0 (slot op 1 2 0 0 + 2 * 2 ^ 13)).extractLsb' 58 6).toNat = op ∧
      2 ^ (((word 0 (slot op 1 2 0 0 + 2 * 2 ^ 13)).extractLsb' 45 3).toNat % 4) = 4) ∧
    (∀ op ∈ [3, 4], ∀ a ∈ [0x17FFC0, 0x180000, 1], (atMem (slot op 1 2 0 0) (BitVec.ofNat 64 a)).SlotBNext 0 (word 0 (slot op 1 2 0 0)) ∧
      ((word 0 (slot op 1 2 0 0)).extractLsb' 58 6).toNat = op) ∧
    (atMem 0 0).fld F.TL_ERR_STATUS_VALID 0 0 = 0 ∧ ((atMem 0 0).tile 0).bTold = false := by
  unfold State.SlotBNext; and_intros <;> decide +kernel

/-- A load of 64 bytes that ends at the last byte, for the last word that writes its register and for one that a later word has
passed, a store of 64 bytes there, and a group of the last row that is due. -/
theorem test_LoadsAndStores_access :
    (onTile (core 0 0)).BanksOn 0 ∧ (onTile (core 0 0)).RowsApart 0 ∧
      (∀ i, i < 64 → ((onTile (core 0 0)).spAt 0 (0x17FFC0 + i)).2 = false) ∧
      (∀ k ∈ [0, 1], ({ core 0 0 with sready := [(4, 15 + k)], vready := [(4, 15 + k)] } : Tile).sready.read 0 4 = 9 + latB (slot 1 4 2 0 0) 0 + k ∧
        ({ core 0 0 with sready := [(4, 15 + k)], vready := [(4, 15 + k)] } : Tile).vready.read 0 4 = 9 + latB (slot 3 4 2 0 0) 0 + k) ∧
      (let g : StoreGroup := ⟨49151, 6, [⟨⟨7, 9, 0⟩, 6, 0x17FFFC, [1, 2, 3, 4]⟩], false⟩
       let s := onTile { core 0 0 with groups := [g] }
       s.esc.live = true ∧ (s.tile 0).groups = [] ++ g :: [] ∧ ((s.exchangeFirst 0).tile 0).groups = (s.tile 0).groups ∧
         g.row = 49151 ∧ g.opened + 4 = s.esc.tc ∧ g.done = false ∧ (s.exchangeFirst 0).RowsApart 0) := by
  refine ⟨banksOn_of _ _ rfl, apart _, by decide +kernel, by decide +kernel, rfl, rfl, by decide +kernel, rfl, rfl, rfl,
    rowsApart_of _ _ (by decide +kernel) (by decide +kernel)⟩

/-- FILL, COPY and ACCW of length 0 and of the last row; the last row of an operation; a bank to turn off, and one that has
waked. -/
theorem test_MemoryOperationsAndBanks :
    (∀ op, op ∈ [6, 7, 8] → let w := word 0 (slot op 1 2 3 0)
      (onTile (atB { core 0 0 with sreg := [(1, 0x17FFE0), (2, 32), (3, 32)] } (slot op 1 2 3 0))).SlotBNext 0 w ∧
        (w.extractLsb' 58 6).toNat = op) ∧
    (∀ n ∈ [0, 32], ∀ k ∈ [.fill 4, .copy, .accw 0 true, .accw 1 false, .accw 2 false], ∀ c, let m : MemOp :=
        { kind := k, dst := 0, src := 32, len := n, pattern := 0xA5, csig := c, cidx := 0, epoch := 0, seq := 0
          cyc := 0, row := 0, half := none }
      let s := onTile { core 0 0 with memops := [m] }
      let s1 := s.exchangeFirst 0
      (s.tile 0).memops = [m] ∧ (s1.tile 0).memops = [m] ∧ 1 ∉ (s1.tile 0).did ∧ m.cyc + accessOff s1.profile ≤ s1.esc.tc ∧
        (s1.ctr (tileCtr 0 m.cidx)).s + 1 < 2 ^ 48 ∧
        (n = 32 → m.rows[m.row]? = some 0 ∧ m.row + 1 = m.rows.length ∧
          (∀ g, g < 2 → (s1.tile 0).claimed s1.esc.tc (s1.bankOf 0 g).1 = false) ∧ m.src / 32 + (0 - m.dst / 32) = 1 ∧
          (s1.bankOf 0 1).1 ≠ (s1.bankOf 0 0).1)) ∧
    (let s := { onTile (core 0 0) with regs := [(F.SP_BANKMASK_MASK.key 0 0, 0xFFFFFFFFFFFE)] }
     (s.fld F.SP_BANKMASK_MASK 0 0).testBit 0 = false ∧ (s.tile 0).banks.read .on 0 ≠ .off ∧ s.bankIdle 0 0 = true) ∧
    (let s := { onTile { core 0 0 with banks := [(47, .waking 10)] } with esc := { esc with tc := 1110 } }
     (s.tile 0).banks.read .on 47 = .waking 10 ∧ 10 + 1100 ≤ s.esc.tc) := by
  unfold State.SlotBNext; decide +kernel

/-- The banks that the row of an operation meets. -/
theorem test_MemoryOperationsAndBanks_row :
    ((onTile (filling ⟨0, 0, 1, []⟩)).exchangeFirst 0).BanksOn 0 ∧ ((onTile (filling ⟨0, 0, 1, []⟩)).exchangeFirst 0).RowsApart 0 :=
  ⟨banksOn_of _ _ (by decide +kernel), rowsApart_of _ _ (by decide +kernel) (by decide +kernel)⟩

/-- MLD, MMA and MDRAIN of the largest buffer and accumulator numbers that pass their checks, and MFQ. -/
theorem test_MatrixAndFiller :
    let q := { core 0 0 with sreg := [(1, 0), (2, 544)] }
    let q := { q with matrix := { q.matrix with buf1 := { StatBuf.empty with valid := true, mt := 0 } } }
    (∀ b ∈ [slot 0x30 1 2 0 1024, slot 0x31 1 2 0 1536, slot 0x32 1 2 0 1024], let s := onTile (atB q b)
      s.SlotBNext 0 (word 0 b) ∧ matrixErr b (s.tile 0).sOld = [] ∧ s.mxCheck 0 b (s.tile 0).sOld = []) ∧
    (let b := slot 0x33 1 0 0 0
     let q := { atB q b with mem := [(24, 1)] }
     let s := onTile q
     s.SlotBNext 0 (word 0 b) ∧ matrixErr b q.sOld = [] ∧ (s.coreLoad 0 q.bCyc 0 64).2.1 = []) := by
  unfold State.SlotBNext; and_intros <;> decide +kernel

/-- A group of the integer class and one of an FP32 accumulator. -/
theorem test_MatrixAndFiller_groups :
    mmaMt (slot 0x31 1 2 0 (6 * 64)) = 6 ∧ mmaKind (slot 0x31 1 2 0 0) = .fp32 ∧ mdOut (slot 0x32 1 2 0 0) = 0 ∧
      mdAccum (slot 0x32 1 2 0 0) = false ∧ (onTile (core 0 0)).BanksOn 0 ∧ (onTile (core 0 0)).RowsApart 0 ∧
      0x17FF80 + 63 * 0 + 96 + 32 ≤ 0x180000 :=
  ⟨by decide, by decide, by decide, by decide, banksOn_of _ _ rfl, apart _, by decide⟩

/-- An idle tile at a boundary with a filler entry of one pass, and the entry when its pass is over. -/
theorem test_MatrixAndFiller_pass :
    let f : Filler := ⟨[BitVec.ofNat 64 (544 * 2 ^ 21), BitVec.ofNat 64 (0x20000 + 544 * 2 ^ 21), BitVec.ofNat 64 (0x40000 + 544 * 2 ^ 21), 1 + 2 * 2 ^ 16 + 2 * 2 ^ 19 + 2 ^ 28 + 2 ^ 38, 0, 0, 0, 0], 0⟩
    let q : Tile := { core 0 0 with core := .boundWait, sstep := 1, bCyc := 9, matrix := { Tile.fresh.matrix with filler := [f] } }
    let s : State := { onTile q with job := some { job with classes := [⟨0, 1000, [900], [true], [], []⟩] } }
    s.boundary (q.sstep - 1) = some 900 ∧ q.core = .boundWait ∧ s.ticking = true ∧ q.bCyc < s.esc.tc ∧
      q.matrix.passFrom ≤ s.esc.tc ∧ q.matrix.idleAt s.esc.tc = true ∧ f.done < f.repeats ∧
      (s.planPass 0 s.esc.tc (s.slotsHeld 0 (s.esc.tc + (900 - s.cycleNow))) f).any (fun p => decide (p.endsAt ≤ s.esc.tc + (900 - s.cycleNow))) = true ∧
      (onTile { q with matrix := { q.matrix with filler := [{ f with done := 1 }], passEnd := some 9 } }).fillerDone 0 = true := by
  and_intros <;> decide +kernel

/-- A send of the first row and a receive into the last, each the last of its entry; an entry of COUNT 0; a switch transfer. -/
theorem test_CompiledExchange :
    (∀ d, d < 2 → let s := set (onTile (core 0 0)) [(F.XC_XP_CFG_EN, 0, 0, 1), (F.XC_XPE_COUNT, 0, 0, 1), (F.XC_XPE_START, 0, 0, 24 - 6 * d),
        (F.XC_XPE_ROW, 0, 0, 49151 * d), (F.XC_XPE_CLASSMASK, 0, 0, 1), (F.XC_XPE_DIR, 0, 0, d)]
      let fc := s.fld F.XC_XPE_START 0 0 + 0 * s.fld F.XC_XPE_PERIOD 0 0
      s.ticking = true ∧ s.entryRuns 0 0 = true ∧ (s.tile 0).xDone.read 0 0 = 0 ∧ 0 < s.fld F.XC_XPE_COUNT 0 0 ∧
        ((s.fld F.XC_XPE_ROW 0 0 : Int) + 0 * signed 16 (s.fld F.XC_XPE_ROWSTEP 0 0)).toNat = 49151 * d ∧
        s.fld F.XC_XPE_DIR 0 0 = d ∧ s.cycleNow = (if d = 0 then fc / 2 - 2 else fc / 2 + 1) ∧
        (s.sampleLane (tileDie 0) (tileRow 0) (s.fld F.XC_XPE_LDIR 0 0) (s.fld F.XC_XPE_TRACK 0 0) fc 0).length = 32) ∧
    (let s := set (onTile { core 0 0 with xSig := [(10, 0)] }) [(F.XC_XP_CFG_EN, 0, 0, 1), (F.XC_XPE_START, 0, 0, 18), (F.XC_XPE_CLASSMASK, 0, 0, 1)]
     s.ticking = true ∧ s.entryRuns 0 0 = true ∧ (s.tile 0).xDone.read 0 0 = 0 ∧ s.fld F.XC_XPE_COUNT 0 0 = 0 ∧
       s.cycleNow = s.fld F.XC_XPE_START 0 0 / 2 + 1 ∧ (s.tile 0).xSig = [(10, 0)] ∧ 10 ≤ s.esc.tc) ∧
    (let s := set (onTile (core 0 0)) [(F.XC_XB_CFG_EN, 3, 0, 1), (F.XC_XB_CFG_LAST, 3, 0, 61439), (F.XC_XSE_CLASSMASK, 3, 61439, 1),
        (F.XC_XSE_COUNT, 3, 61439, 1), (F.XC_XSE_START, 3, 61439, 21)]
     s.ticking = true ∧ s.fld F.XC_XB_CFG_EN 3 0 = 1 ∧ 61439 ≤ s.fld F.XC_XB_CFG_LAST 3 0 ∧
       (s.fld F.XC_XSE_CLASSMASK 3 61439).testBit s.esc.cls = true ∧ 0 < s.fld F.XC_XSE_COUNT 3 61439 ∧
       s.cycleNow = (s.fld F.XC_XSE_START 3 61439 + 0 * s.fld F.XC_XSE_PERIOD 3 61439) / 2) := by
  and_intros <;> decide +kernel

theorem test_CompiledExchange_banks :
    let s := set (onTile (core 0 0)) [(F.XC_XP_CFG_EN, 0, 0, 1), (F.XC_XPE_DIR, 0, 0, 1)]
    s.BanksOn 0 ∧ s.RowsApart 0 :=
  ⟨banksOn_of _ _ (by decide +kernel), rowsApart_of _ _ (by decide +kernel) (by decide +kernel)⟩

/-- Clear of every hold: a write, with and without a landing counter, and a read of the last byte of DRAM; the same on a path
that a refresh occupies and on a line for which another access waits. -/
theorem test_PacketsToMemory_paths : ∀ r ∈ [{ Root.fresh with refEnd := [(0, 1000)] }, { Root.fresh with reqs := [⟨255, 1, .packet (pkt 3 0 4096 256 [])⟩] }],
    { onTile (core 0 0) with roots := [(0, r)] }.PathsSound :=
  fun _ h => pathsSound_of _ (by simp only [List.mem_cons, List.not_mem_nil, or_false] at h; rcases h with rfl | rfl <;> decide)

theorem test_PacketsToMemory :
    (∀ n, n < 2 → let p := mkPacket { dest := 2 ^ 38 - 1, unit := 4096, dev := 0, kind := 1, len := 1, payload := [7], n := n, cref := 2 ^ 30 }
      let s := { onTile (core 0 0) with net := [here p] }
      s.place p.destAddr = .dram (2 ^ 38 - 1) ∧ (∀ w ∈ wordsOf (2 ^ 38 - 1) p.len, s.dramCheck w = 0) ∧
        s.Decodes 1 3 28 p ∧ p.srcUnit / 4096 ≠ 9 ∧ bit p.n 0 = (n == 1) ∧ crefKey none p.cref = some 0x20000 ∧
        s.lineHeld (2 ^ 38 - 1) p.len = false) ∧
    (let p := pkt 3 0 4096 256 []
     let s := { onTile (core 0 0) with net := [here p] }
     s.place p.destAddr = .dram 0 ∧ s.Decodes 3 0 0 p ∧ (∀ w ∈ wordsOf 0 p.len, s.dramCheck w = 0) ∧
       ∀ r ∈ [{ Root.fresh with refEnd := [(0, 1000)] }, { Root.fresh with reqs := [⟨255, 1, .packet p⟩] }],
         let s := { s with roots := [(0, r)] }
         s.lineHeld 0 p.len = true ∧ s.place p.destAddr = .dram 0 ∧ s.Decodes 3 0 0 p ∧ (∀ w ∈ wordsOf 0 p.len, s.dramCheck w = 0)) ∧
    (∀ k ∈ [1, 2, 3], let p := mkPacket { dest := 0xC0001FFF80 - 0x80000, unit := 4097, dev := 0, kind := k, len := 32, dtype := if k = 2 then 7 else 0
                                          payload := if k = 3 then [] else zeros 32 }
      let s := { onTile (core 0 0) with net := [here p] }
      s.place p.destAddr = .tile 0 0x17FF80 ∧ s.Decodes k 0 0 p ∧ (s.tile 0).landing = [] ∧ (s.tile 0).xIn = 0 ∧ s.slotsOpen 0 0x17FF80 p.len (k != 3) = true ∧
        p.mc = false ∧ bit p.n 0 = false ∧ p.stype = 0 ∧ p.dtype = if k = 2 then 7 else 0) := by
  unfold State.Decodes; and_intros <;> decide +kernel

/-- A WRITE of one byte more than the port moves in a cycle. -/
theorem test_PacketsToMemory_port :
    let p := pkt 1 0xC000000000 4096 65 (zeros 65)
    let s := { onTile (core 0 0) with net := [here p] }
    s.place p.destAddr = .tile 0 0 ∧ s.Decodes 1 0 0 p ∧ (s.tile 0).landing = [] ∧ 64 < p.len ∧ s.slotsOpen 0 0 64 true = true ∧
      p.mc = false ∧ bit p.n 0 = false ∧ p.stype = 0 ∧ p.dtype = 0 := by
  unfold State.Decodes; and_intros <;> decide +kernel

/-- A signal to the last device counter, which another of the same cycle follows or not; ACCUM of length 0, to the store and to
DRAM, and of one WIDE record into an open region. -/
theorem test_PacketsThatCountOrAnswer :
    (let p := mkPacket { dest := 0, unit := 4096, dev := 0, kind := 5, cref := 0x400000FF, n := 1 }
     let s := { onTile (core 0 0) with net := [here p], counters := [(0x200FF, ⟨2 ^ 48 - 2, 0, true, 0, 0x5000, 0, 0, 601⟩)] }
     s.Decodes 5 0 28 p ∧ crefKey none p.cref = some 0x200FF ∧ 0 < p.n ∧ (s.ctr 0x200FF).s + p.n < 2 ^ 48 ∧
       s.sigBefore (s.ctr 0x200FF) p.srcUnit p.srcDev = true) ∧
    (let p := pkt 6 (2 ^ 38 - 256) 4096 0 []
     let s := { onTile (core 0 0) with net := [here p] }
     s.Decodes 6 0 24 p ∧ s.place p.destAddr = .dram (2 ^ 38 - 256) ∧ accumBad p = false ∧ p.len = 0 ∧
       s.openRegionAt (s.stackOf (2 ^ 38 - 256)) p = none) ∧
    (∀ l ∈ [0, 16], let p := mkPacket { dest := 0x8000000000, unit := 4096, dev := 0, kind := 6, len := l, n := if l = 0 then 0 else 2
                                        payload := zeros l }
     let s := set { onTile (core 0 0) with net := [here p] } [(F.RT_RGN_CFG_EN, 0, 127, 1), (F.RT_RGN_CFG_COUNT, 0, 127, 1), (F.RT_RGN_STAT_STATE, 0, 127, 1)]
     s.Decodes 6 0 24 p ∧ s.place p.destAddr = .store 0 0 ∧ accumBad p = false ∧ p.len = l ∧ s.openRegionAt 0 p = some 127 ∧
       (l = 16 → p.n % 4 = 2 ∧ (upFrom 0 128).filter (fun j => s.rgHolds 0 j 0) = [127] ∧ s.rgState 0 127 = 1 ∧
         signed 10 (bits p.n 11 2) = s.rgW 0 127 ∧ s.recCheck 0 0 0 = 0 ∧ s.recCheck 0 0 1 = 0 ∧
         (s.ctr (rgnCtr 0 127)).s + 1 < 2 ^ 48)) := by
  unfold State.Decodes; and_intros <;> decide +kernel

/-- A descriptor of one line of 32 bytes from DRAM into the last row of the own scratchpad. -/
def desc : Desc :=
  { src := 0x1000, dst := 0xC00017FFE0, mode := 0, sstride := 0, nlines := 1, line := 32, cidx := 0, csig := true, lidx := 0
    lsig := 0, mstride := 0, mcount := 0, redw := 0, dtype := 0, stype := 0, dstride := 0, off := 0, cyc := 9, tc := 9, epoch := 0
    seq := 0 }

/-- A tile that fetches it. -/
def fetching (f : Fetch) : Tile := { core 0 0 with fetch := f }

/-- The answers to a read, a write and a RESERVE, and a RESERVE itself. -/
theorem test_PacketsThatCountOrAnswer_fetch :
    (let p := mkPacket { dest := 0, unit := 4096, dev := 0, kind := 4, vc := 1, len := 32, tag := 5, payload := zeros 32 }
     let q := fetching { Tile.fresh.fetch with flights := [⟨desc, 1, [], 0, 0, true⟩], reads := [⟨5, 0, 0, 0x1000, 32, 0⟩] }
     let s := { onTile q with net := [here p] }
     p.srcUnit / 4096 = 1 ∧ p.srcUnit % 4096 = 0 ∧ s.Decodes 4 0 0 p ∧ p.tag = 5 ∧ p.len = 32 ∧ p.status = 0 ∧
       (q.fetch.flight 0).isSome = true ∧ desc.pieces[0]? = some ⟨0, 0, 0, 0x1000, 32⟩ ∧ (ownOff s.self 0 desc.dst).isSome = true ∧
       ownOff s.self 0 (((desc.dst : Int) + 0 * desc.dstride).toNat + 0) = some 0x17FFE0 ∧ 0x17FFE0 + p.len ≤ 0x180000 ∧
       q.landing = [] ∧ s.slotsOpen 0 0x17FFE0 p.len true = true) ∧
    (∀ left ∈ [1, 2], let p := mkPacket { dest := 0, unit := 4096, dev := 0, kind := 7, vc := 1, tag := 5 }
     let s := { onTile (fetching { Tile.fresh.fetch with writes := [⟨5, 0, [0], left⟩] }) with net := [here p] }
     s.Decodes 7 0 0 p ∧ (s.tile 0).fetch.writes = [⟨5, 0, [0], left⟩] ∧ p.tag = 5 ∧ p.status = 0) ∧
    (let p := mkPacket { dest := 0xC000000000, unit := 4097, dev := 0, kind := 8, n := 16, tag := 5 }
     let s := { onTile (core 0 0) with net := [here p] }
     s.Decodes 8 0 0 p ∧ s.place p.destAddr = .tile 0 0 ∧ (s.tile 0).reserves = [] ∧ (s.take p).landUsed 0 + p.n ≤ 16) ∧
    (let m : McRound := ⟨0, [1, 2], 0, 0, 0, zeros 32, 0, 0, 0, 5⟩
     let p := mkPacket { dest := 0, unit := 4096, dev := 0, kind := 9, vc := 1, tag := 5 }
     let s := { onTile (fetching { Tile.fresh.fetch with mc := some m }) with net := [here p] }
     s.Decodes 9 0 0 p ∧ (s.tile 0).fetch.mc = some m ∧ m.tag = p.tag ∧ m.granted + 1 < m.targets.length) := by
  unfold State.Decodes; and_intros <;> decide +kernel

/-- A write without payload, a packet of the first and of the last reserved KIND, and flits that leave a buffer. -/
theorem test_MalformedPacketsAndCredits :
    (let p := pkt 1 0 4096 32 []
     let s := { onTile (core 0 0) with net := [here p] }
     p.destDev = s.self ∧ s.seqr.held.contains (s.domainOf p) = false ∧ s.coming p = false ∧ s.mustWait p = false ∧ p.kind = 1 ∧
       pktMalformed p = true) ∧
    (∀ k ∈ [0, 10, 15], let p := pkt k 0 4096 0 []
     let s := { onTile (core 0 0) with net := [here p] }
     p.destDev = s.self ∧ s.seqr.held.contains (s.domainOf p) = false ∧ s.coming p = false ∧ s.mustWait p = false ∧
       kindReserved p.kind = true ∧ s.fld F.XC_XB_ERR_VALID 0 0 = 0) ∧
    (let y : Transit := ⟨pkt 3 0 4096 32 [], [(⟨4, 0⟩, 1)], 0, [], none⟩
     let s := { onTile (core 0 0) with net := [y], credits := [(creditKey 4 0 0, 1)] }
     0 < bufferFlits 4 0 ∧ y.pkt.vc = 0 ∧ (s.leaveSlots y.pkt (s.target y.pkt) ⟨4, 0⟩ true).isSome = true ∧
       0 < s.credits.read 0 (creditKey 4 0 0) ∧ y.after (s.target y.pkt) 0 = none ∧
       (onTile (core 0 0)).flitAt ⟨4, 0⟩ 0 = none) ∧
    (let y : Transit := ⟨pkt 3 0 4096 32 [], [(⟨2, 0⟩, 1)], 0, [], none⟩
     let s := { onTile (core 0 0) with net := [y], credits := [(creditKey 2 0 0, 1)] }
     0 < bufferFlits 2 0 ∧ (s.leaveSlots y.pkt (s.target y.pkt) ⟨2, 0⟩ true).isSome = true ∧ 0 < s.credits.read 0 (creditKey 2 0 0) ∧
       (y.after (s.target y.pkt) 0).any (fun g : Spot => decide (creditKey g.buf g.inst 0 ≠ creditKey 2 0 0 ∧ 0 < bufferFlits g.buf 0 ∧ g.buf ≠ 1 ∧
         s.credits.read 0 (creditKey g.buf g.inst 0) < bufferFlits g.buf 0 - (if ofRound y.pkt then 0 else roundFlits g.buf 0))) = true) ∧
    (let y : Transit := ⟨pkt 3 spBase 4096 32 [], [(⟨2, 0⟩, 1)], 0, [], none⟩
     let s := { onTile (core 0 0) with net := [y], credits := [(creditKey 1 0 0, 15), (creditKey 2 0 0, 1)] }
     0 < bufferFlits 1 0 ∧ (s.leaveSlots y.pkt (s.target y.pkt) ⟨2, 0⟩ true).isSome = true ∧ 0 < s.credits.read 0 (creditKey 2 0 0) ∧
       y.after (s.target y.pkt) 0 = some ⟨1, 0⟩ ∧ s.landUsed 0 < bufferFlits 1 0) := by
  and_intros <;> decide +kernel

/-- A descriptor to start, one to read for, one complete, a read of TIMEOUT rc ago, and a landing with its slots open. -/
theorem test_FetchEngineEvents :
    (let s := onTile (fetching { Tile.fresh.fetch with queue := [desc] })
     s.esc.live = true ∧ (s.tile 0).fetch.queue = [desc] ∧ (s.tile 0).fetch.flights = [] ∧ desc.epoch ≤ (s.tile 0).order.done ∧
       ownOff s.self 0 desc.src = none ∧ desc.empty = false) ∧
    (let f : Flight := ⟨desc, 0, [], 0, 0, false⟩
     let q := fetching { Tile.fresh.fetch with flights := [f] }
     f.sentAll = false ∧ desc.pieces[f.issued]? = some ⟨0, 0, 0, 0x1000, 32⟩ ∧ q.fetch.reads.length < 64 ∧
       q.rspRows (onTile q).self 0 + (32 + 31) / 32 ≤ 512) ∧
    (let f : Flight := ⟨desc, 1, [], 1, 0, true⟩
     let q := fetching { Tile.fresh.fetch with flights := [f] }
     q.fetch.complete f = true ∧ ((onTile q).ctr (tileCtr 0 desc.cidx)).s + 1 < 2 ^ 48) ∧
    (∀ l ∈ [[], [(⟨desc, 1, [], 0, 0, false⟩ : Flight)]], let q := fetching { Tile.fresh.fetch with flights := l, reads := [⟨5, 0, 0, 0x1000, 32, 0⟩] }
     let s := { onTile q with edge := 6 * F.XC_FE_CFG_TIMEOUT.reset }
     s.esc.live = true ∧ 0 + s.fld F.XC_FE_CFG_TIMEOUT 0 0 ≤ s.rc ∧ s.fld F.XC_FE_ERR_VALID 0 0 = 0 ∧ q.fetch.flight 0 = l.head? ∧
       desc.pieces[0]? = some ⟨0, 0, 0, 0x1000, 32⟩ ∧ (ownOff s.self 0 desc.dst).isSome = true ∧
       ownOff s.self 0 (((desc.dst : Int) + 0 * desc.dstride).toNat + 0) = some 0x17FFE0 ∧ q.landing = [] ∧
       s.slotsOpen 0 0x17FFE0 32 true = true) ∧
    (let l : Landing := { off := 0x17FFE0, data := zeros 32, acc := none, kind := 1, read := none, want := 0, got := [], sig := none
                          ack := some (pkt 7 0 4096 0 []), seq := none, held := 0, piece := none, unit := 0, dev := 0 }
     let q := { core 0 0 with landing := [l] }
     l.ack = some (pkt 7 0 4096 0 []) ∧ (onTile q).slotsOpen 0 l.off l.data.length true = true ∧ l.piece = none ∧ (onTile q).ownReady 0 = none ∧ q.reserves = []) := by
  and_intros <;> decide +kernel

/-- Every bank of the tile has its exchange access of this cycle. -/
def shut (q : Tile) : Tile := { q with xUse := upFrom 0 48 }

theorem shut_slots (f : Fetch) (p : List Transit) (g : Nat) (wr : Bool) :
    ({ onTile (shut (fetching f)) with net := p } : State).slotOpen 0 g wr = false :=
  noSlot_of { onTile (shut (fetching f)) with net := p } 0 rfl (show ∀ b, b < 48 → b ∈ upFrom 0 48 by decide) g wr

/-- The answer to the one read of a TRANSPOSE, an ACCUM and an MCAST to the last tile. -/
theorem test_FetchEngineEvents_answer : ∀ x ∈ [(1, 0xC000000000, 32, 0), (2, 0xC00017FFE0, 0, 6), (3, 0xC00017FFE0, 0, 0)],
    let c := { desc with mode := x.1, dst := x.2.1, dstride := x.2.2.1, stype := x.2.2.2, dtype := x.2.2.2, mcount := 2, mstride := 1535 }
    let p := mkPacket { dest := 0, unit := 4096, dev := 0, kind := 4, vc := 1, len := 32, tag := 5, payload := zeros 32 }
    let f : Flight := ⟨c, 1, [], 0, 0, false⟩
    let s := { onTile (shut (fetching { Tile.fresh.fetch with flights := [f], reads := [⟨5, 0, 0, 0x1000, 32, 0⟩] })) with net := [here p] }
    let line (k : Nat) : Nat := ((c.dst : Int) + k * c.dstride).toNat
    let n := deSize c.dtype
    let bytes := convertBytes c.stype c.dtype p.payload
    p.srcUnit / 4096 = 1 ∧ p.srcUnit % 4096 = 0 ∧ s.Decodes 4 0 0 p ∧ p.tag = 5 ∧ p.len = 32 ∧ p.status = 0 ∧
      c.pieces[0]? = some ⟨0, 0, 0, 0x1000, 32⟩ ∧ c.stype ≠ 8 ∧ p.payload ≠ [] ∧ (s.tile 0).landing = [] ∧ bytes ≠ [] ∧
      (c.mode = 1 → ∀ k, k < bytes.length / n → ownOff s.self 0 (line k + 0 * n) = some (32 * k)) ∧
      (c.mode = 2 → (ownOff s.self 0 c.dst).isSome = true ∧ ownOff s.self 0 (line 0 + 0 * n) = some 0x17FFE0) ∧
      (c.mode = 3 → (s.tile 0).fetch.mc = none ∧ (s.tile 0).fetch.mcTodo = [] ∧ (line 0 + 0) % 256 + p.payload.length ≤ 256 ∧
        c.targets = [0, 1535]) := by
  unfold State.Decodes; decide +kernel

/-- The last row of the own scratchpad as the source of every mode. -/
def ownDesc (mode ty : Nat) (dst : Nat) : Desc :=
  { desc with src := 0xC00017FFE0, dst := dst, mode := mode, stype := ty, dtype := ty, dstride := 4, mcount := 1, tc := 4 }

/-- A descriptor that starts to read it, and the line read for a COPY, a TRANSPOSE, an MCAST, a REDUCE and a COPY to the own
scratchpad. -/
theorem test_FetchEngineEvents_own :
    (let d := ownDesc 0 0 0x1000
     let s := onTile (shut (fetching { Tile.fresh.fetch with queue := [d] }))
     s.esc.live = true ∧ (s.tile 0).fetch.flights = [] ∧ d.epoch ≤ (s.tile 0).order.done ∧ ownOff s.self 0 d.src = some 0x17FFE0 ∧
       d.empty = false ∧ s.ownReadOk 0 d = true ∧ (s.tile 0).landing = []) ∧
    (∀ x ∈ [(0, 0, 224), (1, 1, 0), (3, 0, 0xC000000000), (4, 2, 0x8000000000), (0, 0, 0xC000000000)],
     let c := ownDesc x.1 x.2.1 x.2.2
     let f : Flight := ⟨c, 1, [], 0, 0, false⟩
     let l : Landing := { off := 0x17FFE0, data := [], acc := none, kind := 4, read := none, want := 32, got := [], sig := none
                          ack := none, seq := some 0, held := 0, piece := some 0, unit := 0, dev := 0 }
     let q := { fetching { Tile.fresh.fetch with flights := [f] } with landing := [l] }
     let s := onTile q
     let n := deSize c.dtype
     let bytes := convertBytes c.stype c.dtype (s.spAtBytes 0 l.off l.want)
     l.seq = some f.desc.seq ∧ 0 < l.want ∧ l.off % 32 + l.want ≤ 32 ∧ c.nlines = 1 ∧ c.stype ≠ 8 ∧ c.slen = l.want ∧
       (ownOff s.self 0 c.src).isSome = true ∧ s.slotOpen 0 (l.off / 32) false = true ∧ s.portRoom 0 l.want false = true ∧ q.reserves = [] ∧
       (∀ a ∈ upFrom 0x17FFE0 32, (s.spAt 0 a).2 = false) ∧ c.lsig = 0 ∧ (ownOff s.self 0 c.dst = none ∨ c.dst = 0xC000000000) ∧
       (c.dst % 256 + l.want ≤ 256) ∧
       (c.mode = 1 → c.dst % n = 0 ∧ c.dstride % (n : Int) = 0 ∧ bytes.length = c.line / deSize c.stype * n) ∧
       (c.mode = 3 → q.fetch.mc = none ∧ q.fetch.mcTodo = []) ∧
       (c.dst = 0xC000000000 → bytes ≠ [] ∧ s.slotOpen 0 0 true = true ∧ s.portRoom 0 bytes.length true = true ∧ (s.bankOf 0 0).1 ≠ (s.bankOf 0 (l.off / 32)).1)) := by
  and_intros <;> decide +kernel

/-! ## Root dies -/

/-- The rc edge of the first interval, an opportunity outside a segment, and a path that fails transfers. -/
theorem test_RootMemoryUpkeep :
    (let s := { up with edge := 2340 }
     s.atRc = true ∧ s.refFrom < s.rc ∧ (s.rc - s.refFrom) % 390 = 0 ∧ s.refTick ≠ s.rc + 1) ∧
    (let s := { up with roots := [(7, { Root.fresh with debt := [(33, -3)] })] }
     s.refreshOk 7 = true ∧ -4 < s.debt 7 33 ∧ s.refEnd 7 33 ≤ s.rc ∧ s.accessing 7 33 = false ∧
       { s with roots := [(7, { Root.fresh with retry := [(33, 1)] })] }.accessing 7 33 = true) ∧
    bit (up.fld F.RT_PC_HEALTH_FAILED 7 0) 33 = false ∧ up.fld F.RT_DRAM_ERR_VALID 7 0 = 0 ∧
    (∀ k ∈ [4, 5], let s := { up with roots := [(0, { Root.fresh with crcBad := [(0, k)], crcRun := [(0, 6)] })] }
      (s.root 0).crcRun.read 0 (s.pathOf 0 0) < 7 ∧ (s.root 0).crcBad.read 0 (s.pathOf 0 0) = k ∧
        (s.root 0).retry.read 0 (s.pathOf 0 0) = 0 ∧ s.refEnd 0 (s.pathOf 0 0) ≤ s.rc ∧ (s.root 0).forced.contains (s.pathOf 0 0) = false) := by
  and_intros <;> decide +kernel

theorem test_RootMemoryUpkeep_all :
    (∀ q p, up.debt q p < 8) ∧ (∀ a, up.dramCheck a = 0) ∧ up.PathsSound ∧ ∀ r seg, (up.root r).scrub.read 0 seg < 2 ^ 22 :=
  ⟨fun _ _ => show (0 : Int) < 8 by decide, fun _ => rfl, pathsSound_of _ (by decide), fun _ _ => show 0 < 2 ^ 22 by decide⟩

/-- A path at debt 8, its access over or in progress; a forced refresh that waited; the scrub of the last line of a segment whose last word is
correctable, and of one whose last word is not. -/
theorem test_RootMemoryUpkeep_forced :
    (∀ e ∈ [0, 2341], let s := { up with edge := 2340, roots := [(7, { Root.fresh with debt := [(33, 8)], retry := [(33, e)] })] }
     s.atRc = true ∧ s.refFrom < s.rc ∧ (s.rc - s.refFrom) % 390 = 0 ∧ s.debt 7 33 = 8 ∧ s.accessing 7 33 = decide (e ≠ 0)) ∧
    (let s := { up with roots := [(7, { Root.fresh with forced := [33] })] }
     (s.root 7).forced = [33] ∧ s.accessing 7 33 = false) ∧
    (∀ k ∈ [1, 2], let a := dramAddr 0 7 31 (2 ^ 22 - 1) 248
     let s := { up with roots := [(7, { Root.fresh with scrub := [(31, 2 ^ 22 - 1)] })], dramBad := [(dramKey 0 a / 8, k)] }
     s.segOf 7 31 = some 31 ∧ (s.root 7).scrub.read 0 31 < 2 ^ 22 ∧ s.refreshOk 7 = true ∧ s.dramCheck a = k ∧
       s.fld F.RT_DRAM_CE_COUNT_COUNT 7 0 < 2 ^ F.RT_DRAM_CE_COUNT_COUNT.width ∧ s.fld F.RT_DRAM_ERR_VALID 7 0 = 0) := by
  and_intros <;> decide +kernel

theorem test_RootMemoryUpkeep_debt (q p : Nat) : { up with roots := [(7, { Root.fresh with debt := [(33, 8)] })] }.debt q p ≤ 8 := by
  simp only [State.debt, State.root, SMap.read]
  split
  · simp only [SMap.read]; split <;> decide
  · exact show (0 : Int) ≤ 8 by decide

/-- A region that has what it expects, one that is written out, one to close and one past its beat. -/
theorem test_RegionLife :
    (let s := set { up with counters := [(rgnCtr 7 127, ⟨1, 0, true, 0, 0, 0, 0, 0⟩)] } [(F.RT_RGN_STAT_STATE, 7, 127, 1), (F.RT_RGN_EXPECT_EXPECT, 7, 127, 1)]
     s.rgState 7 127 = 1 ∧ s.fld F.RT_RGN_EXPECT_EXPECT 7 127 ≤ s.value (rgnCtr 7 127)) ∧
    (let s := set up [(F.RT_RGN_STAT_STATE, 7, 127, 3)]
     s.rgState 7 127 = 3 ∧ (∀ o ∈ (s.root 7).outs, o.op ≠ .release 127) ∧ ∀ q ∈ (s.root 7).reqs, q.releases 127 = false) ∧
    (∀ st ∈ [1, 2], let s := set { up with edge := 600, esc := { Esc.fresh with lastEnd := some 5 } } [(F.RT_RGN_STAT_STATE, 0, 0, st)]
      s.fld F.RT_RGN_STAT_OUTFMT 0 0 = 0 ∧ s.rgBase 0 0 + s.rgCount 0 0 ≤ storeRecords ∧ s.rgState 0 0 = st ∧
        (st = 1 → { s with edge := 6 * s.fld F.RT_ACC_CFG_QUIET_LIMIT 0 0 }.forceDue 0 0 = true)) := by
  and_intros <;> decide +kernel

/-- A region of 32 records to close in each format, written to the own stack and to another; with the residue that it has and
with a residue in slice 0 that none of its records has. -/
theorem test_RegionLife_formats :
    (∀ x ∈ [(1, 0), (2, 0), (1, 0x800000), (3, 0)],
      let s := set up [(F.RT_RGN_STAT_STATE, 0, 0, 2), (F.RT_RGN_CFG_COUNT, 0, 0, 32), (F.RT_RGN_STAT_OUTFMT, 0, 0, x.1), (F.RT_RGN_OUT_OUTADDR, 0, 0, x.2)]
      let out := s.fld F.RT_RGN_OUT_OUTADDR 0 0
      s.rgState 0 0 = 2 ∧ s.rgBase 0 0 + s.rgCount 0 0 ≤ storeRecords ∧ s.fld F.RT_RGN_STAT_OUTFMT 0 0 = x.1 ∧ out + 4 * 32 ≤ 2 ^ 38 ∧
        (if x.2 = 0 then ∀ a ∈ upFrom out 128, s.stackOf a = 0 else s.stackOf out ≠ 0 ∧ out % 256 + 4 * 32 ≤ 256)) ∧
    (∀ k ∈ [0, 1], let root : Root := { Root.fresh with rr := [(0, k)] }
      let s := set { up with roots := [(0, root)] } [(F.RT_RGN_STAT_STATE, 0, 0, 2), (F.RT_RGN_CFG_COUNT, 0, 0, 32)]
      (∀ e ∈ upFrom 0 32, res (recValue (s.record 0 e)) = 0) ∧ s.fld F.RT_RGN_RES_RR 0 0 = 0 ∧ (s.root 0).rr.read 0 0 = k ∧
        ∀ g ∈ upFrom 1 31, s.pipeOf 0 g ≠ s.pipeOf 0 0) := by
  and_intros <;> decide +kernel

theorem test_RegionLife_free (r i : Nat) :
    let s := set up [(F.RT_RGN_STAT_STATE, r, i, 2)]
    s.PathsSound ∧ (∀ a, s.dramCheck a = 0) ∧ ∀ a m, s.lineHeld a m = false :=
  ⟨pathsSound_of _ (show ∀ e ∈ [], _ from nofun), fun _ => rfl, lineFree_of _ (show ∀ e ∈ [], _ from nofun)⟩

/-- The RVE of root die 7 is `v`. -/
def onRve (v : Rve) : State := { up with edge := 600, roots := [(7, { Root.fresh with rve := v })] }

/-- An RVE that runs the last word of its memory, with x1 = `a` and x2 = `b`. -/
def rve (a b : Nat) : Rve := { Rve.fresh with st := .run, pc := 32767, x := [(1, BitVec.ofNat 64 a), (2, BitVec.ofNat 64 b)] }

/-- An RVE word: opcode, d, a, b, c, T and IMM. -/
def rword (op d a b c t imm : Nat) : W64 :=
  BitVec.ofNat 64 (op * 2 ^ 56 + d * 2 ^ 51 + a * 2 ^ 46 + b * 2 ^ 41 + c * 2 ^ 36 + t * 2 ^ 32 + imm)

theorem test_RveScalar :
    let s := onRve (rve 5 3)
    s.RveRuns 7 [] ∧ rveListed (rword 0x05 0 0 0 0 0 0) = false ∧ ((s.rve 7).err = 0 ∨ s.ctl 7 1 = 0) ∧
    rveListed (rword 0x00 0 0 0 0 0 0) = true ∧ RveUse.reserved {} (rword 0x00 0 0 0 0 0 0) = false ∧
    s.RveRuns 7 [31, 1] ∧ RveUse.reserved { d := true, a := true, i := true } (rword 0x11 31 1 0 0 0 0xFFFFFFFF) = false ∧
    s.RveRuns 7 [31] ∧ RveUse.reserved { d := true, i := true } (rword 0x12 31 0 0 0 0 0xFFFFFFFF) = false ∧
    s.RveRuns 7 [31, 1, 2] ∧ RveUse.reserved { d := true, a := true, b := true, t := true } (rword 0x10 31 1 2 0 10 0) = false := by
  unfold State.RveRuns; and_intros <;> decide +kernel

theorem test_RveControl :
    let s := onRve (rve 5 3)
    s.RveRuns 7 [1, 2] ∧ RveUse.reserved { i := true } (rword 0x01 0 0 0 0 0 0xFFFF8001) = false ∧
    (32767 : Int) + ((rword 0x01 0 0 0 0 0 0xFFFF8001).extractLsb' 0 32).toInt = 0 ∧
    RveUse.reserved { a := true, b := true, t := true, i := true } (rword 0x02 0 1 2 0 5 0) = false ∧
    (3 : W64).toNat ≤ (5 : W64).toNat ∧ ¬ (5 : W64).toNat < (3 : W64).toNat ∧
    (let s := onRve { rve 0 0 with ending := true }
     rootOk 7 = true ∧ (s.rve 7).st = .run ∧ (s.rve 7).ending = true ∧ s.pendWrites (.rve 7) = []) := by
  unfold State.RveRuns; and_intros <;> decide +kernel

theorem test_RveVector :
    let s := onRve (rve 5 3)
    (s.rve 7).laneBad = [] ∧ s.RveRuns 7 [31, 1, 2] ∧
    RveUse.reserved { d := true, a := true, b := true, t := true } (rword 0x20 31 1 2 0 5 0) = false ∧
    RveUse.reserved { d := true, a := true, b := true, c := true } (rword 0x21 31 1 2 3 0 0) = false ∧
    RveUse.reserved { d := true, a := true, t := true } (rword 0x22 31 1 0 0 3 0) = false ∧
    RveUse.reserved { d := true, a := true } (rword 0x23 31 1 0 0 0 0) = false ∧
    RveUse.reserved { d := true, a := true, b := (4 : Nat) != 4, t := true } (rword 0x24 31 1 0 0 4 0) = false ∧
    RveUse.reserved { d := true, a := true, b := false, t := true } (rword 0x26 31 1 0 0 8 0) = false ∧
    (let s := onRve { rve 5 3 with laneBad := [(s.beat % 32, 1)] }
     let v := s.rve 7
     s.RveRuns 7 [1] ∧ v.spare1 = 0x3F ∧ bit v.laneFailed 33 = false ∧ v.laneBad.read 0 33 = 0 ∧
       v.laneBad.read 0 (v.physGroup (s.beat % 32)) ≠ 0) := by
  unfold State.RveRuns; and_intros <;> decide +kernel

/-- A word that crosses two lines of the own stack, one in the own store, one of another die; a line and its conversions; and
a path that a refresh occupies. -/
theorem test_RveMemory :
    let s := onRve (rve 0 256)
    let own := dramAddr 0 7 0 0 0
    s.RveRuns 7 [31, 1, 2] ∧ RveUse.reserved { d := true, a := true, i := true } (rword 0x30 31 1 0 0 0 8) = false ∧
    RveUse.reserved { a := true, b := true, i := true } (rword 0x31 0 1 2 0 0 8) = false ∧
    (∀ p ∈ wordPieces own, p.1 < dramEnd ∧ s.stackOf p.1 = 7) ∧
    s.place (storeBase + 0x1FFFFFF8) = .store 7 0x3FFFFF8 ∧ 0x3FFFFF8 + 8 ≤ 0x4000000 ∧
    (∀ a ∈ [dramAddr 0 0 0 0 0, liveAddr (addr F.SP_BANKMASK_MASK 1535)], ∀ p ∈ wordPieces a,
      (s.place p.1 = .dram a ∧ s.stackOf a ≠ 7) ∨ (s.place p.1 = .live a ∧ s.liveRangeOk p.1 p.2.2 = true)) ∧
    (wordPieces (storeBase + 252)).length = 2 ∧ s.place (storeBase + 252) = .store 0 252 ∧ s.place (storeBase + 256) = .store 0 256 ∧
    s.rveFenced 7 = false ∧ s.storeActive 7 0x3FFFFF8 8 = none ∧ s.place 0xC000000000 = .tile 0 0 ∧
    RveUse.reserved { d := true, a := true, c := true, t := true, i := true } (rword 0x32 31 1 0 8 0 0) = false ∧ zTypeOk 8 = true ∧
    s.zFault 7 1 own 256 = [] ∧ (256 : Nat) % 32 = 0 ∧ s.zFault 7 8 own 72 = [] ∧
    (let s := { s with roots := [(7, { Root.fresh with rve := rve 0 256, refEnd := [(s.pathOf 7 (dramLoc s.dramMode own).2.1, 1000)] })] }
     s.rveHeld 7 own 8 = true) := by
  unfold State.RveRuns; and_intros <;> decide +kernel

theorem test_RveMemory_all :
    (∀ b, (onRve (rve 0 0)).dramCheck b = 0) ∧ (∀ y h, (onRve (rve 0 0)).recCheck 7 y h = 0) ∧ (onRve (rve 0 0)).PathsSound ∧
      ∀ b m, (onRve (rve 0 0)).lineHeld b m = false := by
  exact ⟨fun _ => rfl, recGood_of _ (by decide) 7, pathsSound_of _ (by decide), lineFree_of _ (by decide)⟩

theorem test_RveCountersAndRegions :
    let s := { onRve { rve 0x400000FF 2 with x := [(1, 0x400000FF), (2, 2), (3, 5)] } with counters := [(0x200FF, ⟨2, 0, true, 0, 0, 0, 0, 0⟩)] }
    crefKey none 0x400000FF = some 0x200FF ∧ s.RveRuns 7 [1, 2, 3] ∧
    RveUse.reserved { a := true, b := true, c := bit 3 1, t := true } (rword 0x40 0 1 2 3 3 0) = false ∧
    (s.rve 7).order.epoch ≤ (s.rve 7).order.done ∧ s.pendWrites (.rve 7) = [] ∧
    RveUse.reserved { a := true, b := true } (rword 0x41 0 1 2 0 0 0) = false ∧ 2 ≤ (s.ctr 0x200FF).s ∧ (s.ctr 0x200FF).s < 3 ∧
    s.waiters = [] ∧ s.consOps = [] ∧ s.sigOps = [] ∧ (s.ctr 0x200FF).c + 2 ≤ (s.ctr 0x200FF).s ∧
    s.RveRuns 7 [30, 31, 1] ∧ RveUse.reserved { d := true, a := true } (rword 0x44 30 1 0 0 0 0) = false ∧
    crefKey none (keyCref (rgnCtr 7 127)) = some (0x30000 + 7 * 128 + 127) ∧ 0 ≤ (s.ctr (rgnCtr 7 127)).s ∧
    (s.rve 7).order.done = (s.rve 7).order.epoch ∧ (s.rve 7).order.held = [] := by
  unfold State.RveRuns; and_intros <;> decide +kernel

/-- An open record at offset 0 of the own store, and 16 records sent to the store of root die 0. -/
theorem test_RveCountersAndRegions_open :
    let root : Root := { Root.fresh with rve := rve (storeBase + 7 * 0x4000000) 16, store := [(0, BitVec.ofNat 128 (127 + 2 ^ 64))] }
    let s := set { up with roots := [(7, root)] } [(F.RT_RGN_CFG_EN, 7, 127, 1), (F.RT_RGN_CFG_COUNT, 7, 127, 16), (F.RT_RGN_CFG_BASE, 7, 127, 16)]
    let q (j : Nat) : Nat := ofBytes (s.storeBytes 7 (0 + 8 * j) 8)
    s.RveRuns 7 [1] ∧ RveUse.reserved { a := true, i := true } (rword 0x45 0 1 0 0 0 0) = false ∧
    s.place (storeBase + 7 * 0x4000000) = .store 7 0 ∧ 0 + 32 ≤ 16 * ctlRecord ∧ q 0 % 128 = 127 ∧
    s.openFault 7 (q 0) (q 1) (q 2) (q 3) = none ∧ bits (q 1) 47 0 ≠ 0 ∧ s.fld F.RT_RGN_CFG_COUNT 7 127 ≠ 0 ∧
    RveUse.reserved { d := true, a := true, b := true, c := true, i := true } (rword 0x46 0 1 2 3 0 0) = false ∧
    s.rveFenced 7 = false ∧ (storeBase + 7 * 0x4000000) % 256 + 16 * 16 ≤ 256 ∧ bit (storeBase + 7 * 0x4000000) 63 = false ∧
    inStore (storeBase + 7 * 0x4000000) = true := by
  unfold State.RveRuns; and_intros <;> decide +kernel

/-! ## Links, configuration and time -/

/-- Link 23 is `x`, in state `st`. -/
def onLink (st : Nat) (x : Link) : State := set { up with edge := 600, links := [(23, x)] } [(F.LK_STATUS_STATE, 23, 0, st)]

/-- A DATA flit kept for replay, and a packet that waits whole. -/
def held : HeldFlit := ⟨7, 3, packetBytes (pkt 3 0 4096 32 []), [(pkt 3 0 4096 32 [], none)], false⟩

def queued : TxPkt := ⟨pkt 3 0 4096 32 [], packetBytes (pkt 3 0 4096 32 []), none⟩

/-- What a running link sends: a replay request, a held flit, new data, nothing; a flit that leaves one bit too few for a codeword
and one that fills it. -/
theorem test_LinkFlits :
    (∀ e ∈ [3091, 3092], let s := onLink 2 { Link.fresh with encLen := e }
     s.linkRuns 23 = true ∧ (s.link 23).encLen = e ∧ if e = 3091 then e + 2048 < 5140 else 5140 ≤ e + 2048) ∧
    (let s := onLink 2 { Link.fresh with sendReq := true }
     s.linkRuns 23 = true ∧ (s.link 23).sendReq = true ∧ s.role = 0) ∧
    (let x := { Link.fresh with replay := [held], resend := [held] }
     (onLink 2 x).linkRuns 23 = true ∧ x.sendReq = false ∧ x.resend = [held]) ∧
    (let x := { Link.fresh with txq := [(3, [queued])] }
     x.sendReq = false ∧ x.resend = [] ∧ x.replay.length < 512 ∧ x.pick = some 3 ∧ x.txq.read [] 3 = [queued] ∧
       queued.src = none ∧ queued.left.length ≤ x.nextFill 3) ∧
    Link.fresh.pick = none := by
  and_intros <;> decide +kernel

/-- Good flits: IDLE and the reserved TYPE, the expected DATA, one too far on by the largest distance, and a replay request. -/
theorem test_LinkFlits_receive :
    (∀ ty seq, flitGood (mkFlit 0 ty seq 0xFFF 0 0 0 0 (zeros 240)) = true) ∧
    (∀ ty ∈ [1, 2, 3], (mkFlit 0 ty 0 0xFFF 0 0 0 0 []).type = ty) ∧
    (let p := pkt 3 0 4096 32 []
     let f := mkFlit 0 0 0 0xFFF 3 32 0 0 (packetBytes p)
     f.type = 0 ∧ flitCtrl f 11 0 = Link.fresh.rxExp ∧ Link.fresh.rxBytes.read [] (flitCtrl f 27 26) = [] ∧
       f.payload.take (flitCtrl f 35 28) = packetBytes p ∧ announced p = p.payload.length ∧ p.checkOk = true ∧
       p.destDev = (onLink 2 Link.fresh).self) ∧
    (let f := mkFlit 0 0 2047 0xFFF 3 32 0 0 []
     f.type = 0 ∧ flitCtrl f 11 0 ≠ 0 ∧ (flitCtrl f 11 0 + 4096 - 0) % 4096 < 2048 ∧ Link.fresh.asking = false) := by
  refine ⟨fun _ _ => flitGood_mkFlit .., ?_⟩
  and_intros <;> decide +kernel

theorem test_LinkTroubleAndTraining :
    (let f : LinkFlit := { mkFlit 0 1 0 0xFFF 0 0 0 0 (zeros 240) with fec := [⟨upFrom 0 16, true⟩] }
     (onLink 2 Link.fresh).linkRuns 23 = true ∧ flitGood f = false ∧ codewordOk ⟨upFrom 0 16, true⟩ = false) ∧
    (let x := { Link.fresh with asking := true }
     (onLink 2 x).linkRuns 23 = true ∧ x.reqAge = 64) ∧
    (∀ l ∈ [5, 7], let s := set (onLink 2 Link.fresh) [(F.LK_STATUS_SPARE_IN_USE, 23, 0, l), (F.LK_LANE_CFG_SER_LIMIT, 23, 0, 4)]
      let fresh := (upFrom 0 8).filter (fun p => decide (4 < [5, 0, 0, 0, 0, 0, 0, 0, 0].getD (laneOf l p) 0)
        && !bit (s.fld F.LK_LANE_HEALTH_FAILED 23 0) (laneOf l p))
      s.linkRuns 23 = true ∧ l < 8 ∧ fresh ≠ []) ∧
    (∀ m ∈ [0, 8], let s := set (onLink 2 Link.fresh) [(F.LK_STATUS_SPARE_IN_USE, 23, 0, 5), (F.LK_LANE_HEALTH_FAILED, 23, 0, m)]
      s.linkRuns 23 = true ∧ (∀ p, p < 8 → bit (s.fld F.LK_LANE_HEALTH_FAILED 23 0) (laneOf 5 p) = (decide (m = 8) && p == 3))) ∧
    (let s := set (onLink 2 Link.fresh) [(F.LK_STATUS_SPARE_IN_USE, 23, 0, 15), (F.LK_LANE_HEALTH_FAILED, 23, 0, 0x1FF)]
     s.linkRuns 23 = true ∧ 8 ≤ s.fld F.LK_STATUS_SPARE_IN_USE 23 0 ∧
       ((upFrom 0 8).filter (fun p => !bit (s.fld F.LK_LANE_HEALTH_FAILED 23 0) (laneOf 15 p))).length < 2) ∧
    (∀ st ∈ [1, 3], ∀ m ∈ [0, 8], let s := set (onLink st Link.fresh) [(F.LK_LANEMAP_SPARE_FOR, 23, 0, 5), (F.LK_LANE_HEALTH_FAILED, 23, 0, m)]
      s.seqr.held.contains 2 = false ∧ s.linkState 23 = st ∧ s.fld F.LK_LANEMAP_SPARE_FOR 23 0 = 5 ∧ (∀ b, ({ s.link 23 with mapNew := b } : Link).mapNew = b) ∧
        ((∀ p, p < 8 → bit (s.fld F.LK_LANE_HEALTH_FAILED 23 0) (laneOf 5 p) = false) ↔ m = 0)) ∧
    (∀ ok, ∀ f ∈ [(8 : Nat), 0x88], let x : TrainResult := ⟨ok, BitVec.ofNat 9 f, 0xF, 1, 0, true, 500000⟩
     (∀ st ∈ [1, 3], (onLink st Link.fresh).seqr.held.contains 2 = false ∧ (onLink st Link.fresh).linkState 23 = st ∧
       (onLink st Link.fresh).fld F.LK_LANEMAP_SPARE_FOR 23 0 = 15 ∧ (onLink st Link.fresh).fld F.LK_STATUS_SPARE_IN_USE 23 0 = 15) ∧
       (upFrom 0 8).filter (fun p => bit x.failed.toNat (laneOf 15 p)) = (if f = 8 then [3] else [3, 7])) ∧
    (let x : TrainResult := ⟨true, 0, 0xF, 1, 0, true, 500000⟩
     let s := set (onLink 1 Link.fresh) [(F.LK_TOPO_NDIM, 0, 0, 1), (F.LK_DIMSIZE_S0, 0, 0, 2)]
     s.seqr.held.contains 2 = false ∧ x.failed = 0 ∧ s.linkState 23 = 1 ∧ s.wiredOk 23 x = true ∧
       s.wiredOk 23 { x with farPhys := 0 } = false) ∧
    (let s := onLink 3 { Link.fresh with attempts := 2 }
     s.linkState 23 = 3 ∧ 2 ≤ (s.link 23).attempts) := by
  and_intros <;> decide +kernel

/-- A register to stage, at its live address too, one locked in a run, the clock, one written at once, the three that act, and a hole. -/
theorem test_RegisterWrites :
    (up.regAt (liveAddr (addr F.SP_BANKMASK_MASK 1535 + stagingOff))).any (fun x => !(x.info.locked && up.inRun)) = true ∧
    (let s := { up with run := .armed }
     (s.regAt (liveAddr (addr F.ES_BEAT_CFG_ROLE 0))).any (fun x => x.info.locked && s.inRun && x.fields.any (fun f => decide (f.acc = .rws))) = true) ∧
    (up.regAt (addr F.SP_BANKMASK_MASK 1535)).any (fun x => !(x.info.locked && up.inRun) && x.fields.any (fun f => decide (f.acc = .rws))) = true ∧
    (up.regAt (addr F.RS_RTC_SECONDS 0)).any (fun x => decide (x.info.name = .RS_RTC)) = true ∧
    (up.regAt (addr F.SP_ERR_VALID 0)).any (fun x => x.fields.any (fun f => decide (f.acc = .w1c)) &&
      decide (x.info.name ≠ .ES_COMMIT_CTRL ∧ x.info.name ≠ .RS_STANDBY ∧ x.info.name ≠ .ES_STEP_CTRL)) = true ∧
    (up.regAt (addr F.ES_COMMIT_CTRL_TAG 0)).any (fun x => decide (x.info.name = .ES_COMMIT_CTRL)) = true ∧
    (up.regAt (addr F.RS_STANDBY_ENTER 0)).any (fun x => decide (x.info.name = .RS_STANDBY)) = true ∧
    (up.regAt (addr F.ES_STEP_CTRL_MARK_UNCLEAN 0)).any (fun x => decide (x.info.name = .ES_STEP_CTRL)) = true ∧
    up.regAt 0xF7FFFFFFF8 = none ∧ up.regAt (liveAddr 0xFFFFFFFFF8) = none := by
  and_intros <;> decide +kernel

theorem test_Commits :
    (let v : W64 := 5 + 0xFFFF00
     let s := set up [(F.ES_BEAT_CFG_ROLE, 0, 0, 2)]
     v.getLsbD 0 = true ∧ v.getLsbD 1 = false ∧ (v.extractLsb' 2 2).toNat = 1 ∧ s.run ≠ .faulted ∧ s.commit = none ∧
       s.fld F.ES_BEAT_CFG_ROLE 0 0 ≠ 0 ∧ (s.commitFields v).checkDirty 1 = none ∧ up.fld F.ES_BEAT_CFG_ROLE 0 0 = 0) ∧
    ((9 : W64).extractLsb' 2 2).toNat = 2 ∧
    (∀ x ∈ [(4, F.XC_FE_CFG_TIMEOUT.key 1535 0, 0), (3, F.ES_STEP_CFG_BEATS.key 0 0, 0), (5, F.SP_BANKMASK_MASK.key 1535 0, 1)],
     let s : State := { up with staged := [x.2] }
     let q := s.commitFields 1
     s.run ≠ .faulted ∧ s.commit = none ∧ (q.dirtyFields.any q.reservedBad = decide (x.1 = 4)) ∧
       (q.dirtyFields.any q.zeroBad = decide (x.1 = 3)) ∧ (q.dirtyFields.any (q.ruleBad 0) = decide (x.1 = 5))) ∧
    (let c : Commit := ⟨0, 7, false, [(F.XC_FE_CFG_TIMEOUT.key 1535 0, 100)]⟩
     c.target = 0 ∧ up.idleRun = true ∧ (∀ n ∈ actingRegs, c.touches n = false) ∧
       (c.set.all (fun e => (keyField e.1).any (fun f => decide (f.fld.acc = .rws)))) = true) := by
  and_intros <;> decide +kernel

/-- A register of each kind that acts: a core in reset and one parked; a bank that is OFF; a tile that moves; a link that is off, one to
take off and one with a new map; a row and a line that go to a spare. -/
theorem test_Commits_acting :
    let c (l : List (Nat × Nat)) : Commit := ⟨0, 7, false, l⟩
    let at' (f : RegField) (t : Nat) (n : RegName) : Prop := (t, 0) ∈ (c [(f.key t 0, 8)]).at n
    up.idleRun = true ∧ up.physOf 1535 = some 15 ∧ at' F.TL_ENTRY_ENTRY 1535 .TL_ENTRY ∧ at' F.SP_BANKMASK_MASK 1535 .SP_BANKMASK ∧
    (∀ x ∈ [CoreState.reset, .parkedErr], ({ up with tiles := [(1535, { Tile.fresh with core := x, banks := [(47, .off)] })] }.tile 1535).core = x) ∧
    (c [(F.XC_ROWMAP_FENCED_POS.key 3 23, 5)]).touches .XC_ROWMAP = true ∧ (c [(F.ES_BEAT_INIT_INIT.key 0 0, 5)]).touches .ES_BEAT_INIT = true ∧
    (c [(F.ES_STEP_BASE_BASE.key 0 0, 5)]).touches .ES_STEP_BASE = true ∧
    (∀ e, e < 2 → (set (onLink 2 Link.fresh) [(F.LK_CFG_EN, 23, 0, e)]).fld F.LK_CFG_EN 23 0 = e ∧ (onLink 2 Link.fresh).linkState 23 = 2) ∧
    (onLink 2 Link.fresh).fld F.LK_LANEMAP_SPARE_FOR 23 0 ≠ 5 ∧ (onLink 2 Link.fresh).fld F.LK_STATUS_SPARE_IN_USE 23 0 ≠ 5 ∧
    F.SP_ROWMAP_HI_ENTRY7 ∈ rowmapFields ∧ bit 0x83FF 15 = true ∧ bit (up.fld F.SP_ROWMAP_HI_ENTRY7 (up.physTile 1535) 47) 15 = false ∧
    up.fld F.RT_STOREMAP_VALID 7 511 = 0 := by
  and_intros <;> decide +kernel

/-- A commit in a run: at the clearing of the segment's end, of each target, at a system clearing and at another; inside the segment;
and of target 1 outside a run, before its beat and at it. -/
theorem test_Commits_run :
    (∀ x ∈ [(0, 2), (1, 1), (1, 2)], let c : Commit := ⟨x.1, 7, false, [(F.XC_FE_CFG_TIMEOUT.key 1535 0, 100)]⟩
     let s := set { inRun .running { Esc.fresh with ended := true } with commit := some c } [(F.ES_CLEAR_CFG_SYS_PERIOD, 0, 0, x.2), (F.ES_COMMIT_BEAT_BEAT, 0, 0, 1)]
     s.commit = some c ∧ s.esc.frozen = none ∧ s.esc.cleared = false ∧ s.atRc = true ∧ s.quiescent = true ∧
       s.sysClearing (s.beat + 1) = decide (x.2 = 1) ∧ s.fld F.ES_COMMIT_BEAT_BEAT 0 0 ≤ s.beat + 1) ∧
    (let e := { esc with next := 40, frozen := some 1000, freezes := [⟨40, .clearing, 5⟩], tilesOk := true }
     let s := (upFrom 0 8).foldl (fun s r => s.setCtl r 6 0x3F3F) { inRun .held e with commit := some ⟨0, 7, false, []⟩ }
     s.esc.frozen = some 1000 ∧ 1000 ≤ s.rc ∧ s.atRc = true ∧ s.esc.resume = none ∧ s.heads = [⟨40, .clearing, 5⟩] ∧ s.quiescent = true) ∧
    (∀ r, let c : Commit := ⟨1, 7, r, []⟩
     let s := set { up with commit := some c } [(F.ES_COMMIT_BEAT_BEAT, 0, 0, 1)]
     s.commit = some c ∧ s.idleRun = true ∧ c.target = 1 ∧ c.reached = r ∧ s.fld F.ES_COMMIT_BEAT_BEAT 0 0 ≤ s.beat + 1 ∧
       s.beat + 1 < 2 ^ 48) := by
  and_intros <;> decide +kernel

/-- An edge of BEAT_IN between two rc edges and at one, with another that waits for it; a glitch; an edge with domain ready
registered an rc edge before, and at the same. -/
theorem test_ReferenceEdges :
    (let s := set { up with edge := 6000, bt := { Beat.fresh with lastEdge := some 900 } } [(F.ES_BEAT_CFG_ROLE, 0, 0, 2), (F.ES_REF_CFG_REF_MIN_GAP, 0, 0, 101), (F.ES_REF_CFG_REF_TIMEOUT, 0, 0, 1000)]
     s.role = 2 ∧ s.fld F.ES_BEAT_CFG_REF_SRC 0 0 = 0 ∧ s.atRc = true ∧ { s with edge := 6001 }.atRc = false ∧
       { s with bt := { s.bt with pinEdge := true } }.bt.pinEdge = true ∧ s.rc - 900 < s.fld F.ES_REF_CFG_REF_MIN_GAP 0 0 ∧
       0 < s.fld F.ES_REF_CFG_REF_TIMEOUT 0 0 ∧ s.bt.refFrom + s.fld F.ES_REF_CFG_REF_TIMEOUT 0 0 ≤ s.rc) ∧
    (let s := set { up with edge := 6000, bt := { Beat.fresh with lastEdge := some 900, domReady := some 999 } } [(F.ES_BEAT_CFG_ROLE, 0, 0, 2), (F.ES_REF_CFG_REF_MIN_GAP, 0, 0, 100)]
     s.fld F.ES_REF_CFG_REF_MIN_GAP 0 0 ≤ s.rc - 900 ∧ 999 + 1 ≤ s.rc ∧ s.run = .idle ∧ s.commit = none ∧ s.beat + 1 < 2 ^ 48 ∧
       (let s := { s with bt := { s.bt with domReady := some 1000 } }
        s.bt.domReady = some 1000 ∧ s.rc ≤ 1000 ∧ s.fld F.ES_REF_CFG_REF_MIN_GAP 0 0 ≤ s.rc - 900 ∧ s.atRc = true)) ∧
    up.role ≠ 2 ∧ up.tiles.canon Tile.fresh = true ∧ up.counters.canon Counter.fresh = true := by
  and_intros <;> decide +kernel

/-- A root whose edges come on link 23: its first word, one that does not toggle and one that does, at an rc edge and between two. -/
theorem test_ReferenceEdges_word : ∀ g, ∀ h ∈ [none, some false, some true], ∀ e ∈ [6000, 6001],
    let b : Beat := { Beat.fresh with held := h, linkEdges := 1, lastEdge := some 900 }
    let s := set { onLink 2 Link.fresh with edge := e, bt := b } [(F.ES_BEAT_CFG_ROLE, 0, 0, 2), (F.ES_BEAT_CFG_REF_SRC, 0, 0, 1), (F.ES_BEAT_CFG_REF_LINK, 0, 0, 23)]
    let f := mkFlit (if g then 4 else 0) 1 0 0xFFF 0 0 0 0 []
    s.role = 2 ∧ s.fld F.ES_BEAT_CFG_REF_SRC 0 0 = 1 ∧ s.bt.held = h ∧ s.atRc = decide (e = 6000) ∧ s.bt.linkEdges = 1 ∧
      s.linkRuns 23 = true ∧ s.seqr.held.contains 9 = false ∧ s.fld F.ES_BEAT_CFG_REF_LINK 0 0 = 23 ∧ f.type = 1 ∧ f.beat.getLsbD 2 = g := by
  decide +kernel

/-- A member's parent announces the next beat, the own one and another. -/
theorem test_ReferenceEdges_member : ∀ dn, dn < 3 →
    let s := set { onLink 2 Link.fresh with bt := { Beat.fresh with mute := false } } [(F.ES_BEAT_CFG_ROLE, 0, 0, 1), (F.ES_BEAT_CFG_PARENT_LINK, 0, 0, 23), (F.ES_BEAT_CFG_CHILD_MASK, 0, 0, 1)]
    let f := mkFlit (BitVec.ofNat 32 (dn * 2 ^ 24 + 2 ^ 23)) 1 0 0xFFF 0 0 0 0 []
    s.linkRuns 23 = true ∧ f.type = 1 ∧ s.seqr.held.contains 9 = false ∧ s.isParent 23 = true ∧ s.isChild 0 = true ∧
      f.beat.getLsbD 23 = true ∧ s.beat = 0 ∧ (f.beat.extractLsb' 24 8).toNat = dn := by
  decide +kernel

/-- Beats that a device adopts: armed, at the beat to start at; in a run, inside an attempt and at its end, clean or not, with attempts
left or none. -/
theorem test_ReferenceEdges_adopts :
    (let s := { up with run := .armed, armBeat := 1, job := some job }
     s.armBeat ≤ s.beat + 1 ∧ s.commit = none ∧ s.permute = none ∧ s.stopBeat = none) ∧
    (∀ n ∈ [1, 2], ∀ a, a < 2 → ∀ l ∈ [3, 4], let s := set (inRun .running .fresh) [(F.ES_STEP_NEXT_BEAT, 0, 0, n), (F.ES_STEP_STATUS_ACC_CLEAN, 0, 0, a),
        (F.ES_STEP_STATUS_ATTEMPT, 0, 0, 3), (F.ES_STEP_CFG_REPLAY_LIMIT, 0, 0, l)]
      s.permute = none ∧ s.stopBeat = none ∧ s.fld F.ES_STEP_NEXT_BEAT 0 0 = n ∧ s.fld F.ES_STEP_STATUS_ACC_CLEAN 0 0 % 2 = a ∧
        decide (s.fld F.ES_STEP_STATUS_ATTEMPT 0 0 < s.fld F.ES_STEP_CFG_REPLAY_LIMIT 0 0) = decide (l = 4)) := by
  and_intros <;> decide +kernel

/-- A buffer without places for the channel, and the first instance that no buffer has. -/
theorem test_CommandsComplete_credit : ∀ x ∈ [(4, 0, true), (8, 0, false), (0, 8192, false)], (∃ f, exec (.creditReturn x.1 x.2.1 x.2.2) up = .fault f) ∧
    (x.1 ≠ 1 ∧ bufferFlits x.1 (b2n x.2.2) = 0 ∨ 8192 ≤ x.2.1) := by
  intro x hx
  simp only [List.mem_cons, List.not_mem_nil, or_false] at hx
  rcases hx with rfl | rfl | rfl <;> exact ⟨⟨_, rfl⟩, by decide⟩

/-- A well-formed command, a unit that is absent, and the two that no state but an unlocked device stops. -/
theorem test_CommandsComplete :
    (Instr.addi 1536 0).units.all UnitRef.present = false ∧ (Instr.addi 1535 (word (slot 0x11 4 1 0 0) 0)).wf = true ∧ up.jtagLocked = false := by
  decide +kernel

theorem test_StepKeepsMemoryCanonical :
    let s := { State.reset with dram := [(5, 1)] }
    Memory.wf s.dram = true ∧ s.tiles.canon Tile.fresh = true ∧ s.counters.canon Counter.fresh = true ∧ ∃ s', step s = .next s' := by
  exact ⟨by decide, by decide, by decide, _, rfl⟩

/-- A command with a tag and operands at their largest. -/
theorem test_IcpRoundTrip :
    let c : IcpCmd := { src := 1, via := 0, dev := 0xFFFF, seq := BitVec.ofNat 64 (2 ^ 64 - 1), tag := some (zeros 16), vendor := 0 }
    let i : Instr := .permute c (BitVec.ofNat 64 (2 ^ 64 - 1)) 0xFFFFFFFF 0xFFFF (BitVec.ofNat 64 (2 ^ 64 - 1))
    cmdFrom i = some c ∧ i.wf = true ∧ icpFits i = true := by decide +kernel

/-! ## The beat, segments and freezes -/

theorem test_BeatMarksAndHolds :
    (let s := inRun .running { Esc.fresh with ready := true, readyAt := 6000 }
     s.esc.readyAt = s.edge ∧ s.idleRun = false) ∧
    (let s := inRun .running { Esc.fresh with ready := true, readyAt := 5994 }
     s.esc.ready = true ∧ s.esc.readyAt ≠ s.edge) ∧
    (let s := inRun .draining .fresh
     s.run = .draining ∧ s.atRc = true ∧ s.quiescent = true ∧ s.anyCkpt = false ∧ s.commit = none) ∧
    (let s := inRun .running { Esc.fresh with ended := true, cleared := true }
     s.atRc = true ∧ s.esc.ready = false ∧ s.permute = none ∧ s.esc.hold = none ∧ s.rvesDone = true ∧ s.esc.moved = [] ∧
       s.anyCkpt = false ∧ s.atStepBoundary = false ∧ (set s [(F.ES_STEP_NEXT_BEAT, 0, 0, 1)]).atStepBoundary = true ∧
       (set s [(F.ES_STEP_NEXT_BEAT, 0, 0, 1)]).anyCkpt = false) ∧
    (let s := set (inRun .running { Esc.fresh with ended := true, cleared := true }) [(F.RT_CKPT_STATUS_BUSY, 7, 0, 1), (F.ES_STEP_NEXT_BEAT, 0, 0, 1)]
     s.esc.ended = true ∧ s.rvesDone = true ∧ s.atStepBoundary = true ∧ s.ckptBusy 7 = true) := by
  and_intros <;> decide +kernel

/-- Each cause of HOLD_ACCOUNTING. -/
theorem test_BeatMarksAndHolds_charged :
    (let s := inRun .running { Esc.fresh with ended := true, charged := 1000 }
     s.esc.charged ≠ s.rc + 1 ∧ s.esc.frozen = none ∧ s.esc.hold = none ∧ s.boundaryWait = true) ∧
    (let s := inRun .held { esc with frozen := some 1001, freezes := [⟨11, .due, 2⟩], cause := 2 }
     s.esc.charged ≠ s.rc + 1 ∧ s.rc < 1001 ∧ s.esc.hold = none ∧ s.boundaryWait = false) ∧
    (let e := { esc with frozen := some 990, resume := some 6012, forced := true, freezes := [⟨11, .due, 2⟩], cause := 2 }
     let s := inRun .held e
     s.esc.charged ≠ s.rc + 1 ∧ s.heads = [⟨11, .due, 2⟩] ∧ 6012 < 6 * (s.rc + 4)) ∧
    (let e := { esc with frozen := some 990, resume := some 6012, freezes := [⟨11, .due, 2⟩], cause := 6 }
     let s := inRun .held e
     s.esc.charged ≠ s.rc + 1 ∧ s.esc.forced = false ∧ s.esc.hold = none ∧ s.clearingOpen = false ∧ s.esc.cause < 7) := by
  and_intros <;> decide +kernel

theorem test_Segments :
    (∀ live ∈ [true, false], let s := inRun .running { Esc.fresh with due0 := true, adopted := 5952, live := live }
     s.esc.due0 = true ∧ s.atRc = true ∧ s.esc.adopted + 48 ≤ s.edge ∧ s.esc.freezes = [] ∧ s.esc.live = live) ∧
    (let f : Freeze := ⟨0, .due, 1⟩
     let s := inRun .running { Esc.fresh with due0 := true, adopted := 5952, freezes := [f] }
     s.esc.freezes = [f] ∧ f.cycle = 0 ∧ s.esc.frozen = none ∧ s.esc.hold = none ∧ s.run = .running ∧ s.tiles.canon Tile.fresh = true ∧
       s.swallowedAt s.edge = false) ∧
    (let s := set (inRun .running { Esc.fresh with due0 := true, adopted := 5952 }) [(F.PW_STATUS_K_BUDGET, 0, 0, 128)]
     s.swallowedAt s.edge = !{ s with edge := 6001 }.swallowedAt 6001) ∧
    (let s := inRun .running { esc with next := 1001 }
     s.ticking = true ∧ s.esc.next = s.esc.len + 1 ∧ s.tiles = []) ∧
    (let s := { inRun .running { esc with next := 21 } with tiles := [(0, { core 0 0 with core := .boundWait, sstep := 1 })] }
     s.boundary 0 = some 20 ∧ s.ticking = true ∧ s.esc.next = 20 + 1 ∧ s.esc.bndDone.contains 0 = false ∧
       (s.boundary (0 + 1)).isSome = true ∧ (s.tile 0).core = .boundWait ∧ (s.tile 0).sstep = 0 + 1 ∧ (s.tile 0).startAt = none) := by
  and_intros <;> decide +kernel

theorem test_FreezesAndReleases :
    (let e : Due := ⟨30, 0x40000000, 5, 1⟩
     let j := { job with classes := [⟨0, 1000, [20, 40], [true, false], [e], []⟩] }
     let s := { inRun .running esc with job := some j }
     s.ticking = true ∧ 20 ≤ 30 ∧ s.esc.next = 30 - 19 ∧ s.dues 30 = [e] ∧ s.esc.dueDone.contains 30 = false ∧
       crefKey none e.cref = some 0x20000 ∧
     (let s := { s with esc := { esc with freezes := [⟨11, .due, 1⟩] } }
      s.flowing = true ∧ s.heads = [⟨11, .due, 1⟩] ∧ s.run = .running ∧ s.swallowedAt (s.edge + 1) = false ∧
        { set s [(F.PW_STATUS_K_BUDGET, 0, 0, 128)] with edge := 6001 }.swallowedAt 6002 =
          !{ set s [(F.PW_STATUS_K_BUDGET, 0, 0, 128)] with edge := 6000 }.swallowedAt 6001) ∧
     (let s := { s with counters := [(0x20000, { Counter.fresh with s := 5 })], run := .held
                        esc := { esc with next := 30, frozen := some 1000, freezes := [⟨30, .due, 1⟩] } }
      s.esc.resume = none ∧ s.atRc = true ∧ 1000 ≤ s.rc ∧ s.heads = [⟨30, .due, 1⟩] ∧ s.dues 30 = [e] ∧
        e.value ≤ s.value 0x20000)) ∧
    (let s := set (inRun .held { esc with frozen := some 901, freezes := [⟨11, .due, 1⟩] }) [(F.ES_HOLD_CFG_LIMIT, 0, 0, 100)]
     s.esc.resume = none ∧ s.atRc = true ∧ 901 ≤ s.rc ∧ s.fld F.ES_HOLD_CFG_LIMIT 0 0 ≤ s.rc - 901 + 1 ∧
       s.clearingOpen = false) := by
  and_intros <;> decide +kernel

theorem test_ClearingPoints :
    (let s := inRun .running { esc with next := 1 }
     s.clearPoint 20 = true ∧ s.esc.decided.contains 20 = false ∧ s.ticking = true ∧ 20 ≤ 20 ∧ s.esc.next = 20 - 19) ∧
    (let e := { esc with next := 40, frozen := some 1000, freezes := [⟨40, .clearing, 5⟩] }
     let s := inRun .held e
     s.frozenFor = some 1 ∧ s.clearingOpen = true ∧ s.esc.tilesOk = false ∧ s.quietTiles = true ∧
       (∀ f ∈ s.esc.freezes, f.kind = .clearing) ∧
       { s with tiles := [(0, { core 0 0 with core := .run })] }.quietTiles = false ∧
     (let s := (upFrom 0 8).foldl (fun s r => s.setCtl r 6 0x3F3F) { s with esc := { e with tilesOk := true } }
      s.frozenFor.isSome = true ∧ s.clearingOpen = true ∧ s.quiescent = true ∧ s.commit = none ∧ s.sparesPending = false) ∧
     (let s := { s with esc := { e with tilesOk := true }, net := [here (pkt 3 0 4096 32 [])] }
      s.quiescent = false ∧ s.clearingOpen = true)) := by
  and_intros <;> decide +kernel

/-- Checkpoints to the own part and to the buddy, a PERMUTE at its last round, an image to copy. -/
theorem test_LongRunEvents :
    (let s := set up [(F.RT_CKPT_STATUS_BUSY, 7, 0, 1)]
     s.dramBad = [] ∧ s.ckptDone 7 = true ∧ s.ckptMode ≠ 2 ∧ s.ckptMode ≠ 1 ∧ s.ckptHost = false ∧
       s.partAddr 7 (s.root 7).ckpt.slot 0 + 256 ≤ dramEnd ∧ s.rangesHeld [(s.partAddr 7 (s.root 7).ckpt.slot 0, 256)] = false ∧
       (let s := occupied s
        s.ckptDone 7 = true ∧ s.rangesHeld [(s.partAddr 7 (s.root 7).ckpt.slot 0, 256)] = true)) ∧
    (let s := set up [(F.RT_CKPT_STATUS_BUSY, 7, 0, 1), (F.RT_CKPT_CFG_MODE, 0, 0, 1)]
     s.ckptDone 7 = true ∧ s.ckptMode = 1 ∧ s.ckptHost = false ∧ (s.root 7).ckpt.hdrs = false ∧
       s.partAddr 7 (s.root 7).ckpt.slot 1 % 256 = 0 ∧
       (s.ckptHdr 7 1 (s.dramBytes (s.partAddr 7 (s.root 7).ckpt.slot 0 + partData) (s.ckptLen 7))).bytes.length = 256) ∧
    (let p : Permute := ⟨0, 1, [], [0, 1]⟩
     let s := { up with permute := some p }
     s.permute = some p ∧ p.b0 ≤ s.beat ∧ s.beat < p.b0 + p.rounds ∧ p.finished.contains 7 = false ∧ (s.root 7).outs = [] ∧
       (s.root 7).reqs.any DramReq.permutes = false) ∧
    (let x : TileSec := ⟨5, 0x180000, 0, 0⟩
     let s := { up with job := some { job with tiles := [x] }, esc := { Esc.fresh with cleared := true, moved := [5] } }
     s.esc.segOn = false ∧ s.esc.cleared = true ∧ s.esc.moved = [5] ∧ (s.physOf 5).isSome = true ∧ (s.tile 5).banks = [] ∧
       x.plen ≤ 0x180000 ∧ s.rangesHeld [(x.img, x.plen)] = false ∧ (occupied s).rangesHeld [(x.img, x.plen)] = true) := by
  and_intros <;> decide +kernel

/-! ## Reset, boot and power -/

/-- The main rails on or off, the sequencer else `f` of the running device's. -/
def seqr (f : Sequencer → Sequencer) : State := { up with seqr := f up.seqr, edge := 600000 }

theorem test_ResetSourcesAndReleases :
    (let s := { State.reset with seqr := { State.reset.seqr with main := false } }
     s.railsOn = true) ∧
    (let s := { seqr id with crown := { up.crown with resetAt := some 100000 } }
     s.fld F.RS_STRAPS_RST_MODE 0 0 = 0 ∧ s.seqr.main = true ∧ 100000 ≤ s.rc) ∧
    (∀ l ∈ [[], [5, 6]], let s := { seqr id with crown := { up.crown with wdFrom := 0, wdExp := l, settings := { up.crown.settings with watchdog := 100000 } } }
     s.seqr.held.contains 1 = false ∧ s.seqr.arm = none ∧ s.crown.wdFrom + s.crown.settings.watchdog ≤ s.rc ∧
       (s.crown.wdExp.filter (fun x => decide (s.rc < x + 1000000000))).length = l.length) := by
  and_intros <;> decide +kernel

/-- RESET_N has been low for 7 rc, 8, or since before the last report, and high for 15 rc or 16 since it read low. -/
theorem test_ResetSourcesAndReleases_pin :
    (∀ l ∈ [none, some 99999, some 100000], let s := seqr (fun x => { x with pinFrom := l, t0 := none, held := [9] })
     s.seqr.main = true ∧ s.seqr.arm = none ∧ s.seqr.pinFrom = l ∧ s.seqr.held ≠ [] ∧ s.seqr.t0 = none ∧ 2 ≤ s.rc ∧
       (∀ n ∈ [8, 9, 10], (∀ x ∈ l, x < s.rc + 8 - n) ∨ ∃ x ∈ l, s.rc + 8 - n ≤ x)) ∧
    (∀ x ∈ [99984, 99985], let s := seqr (fun q => { q with pinLow := some x })
     s.seqr.pinLow = some x ∧ decide (16 ≤ min 20 (s.rc - x)) = decide (x = 99984) ∧
       decide (16 ≤ s.seqr.pinLow.elim 20 (fun x => min 20 (s.rc - x))) = decide (x = 99984)) := by
  and_intros <;> decide +kernel

/-- Compatibility mode, and the releases of both. -/
theorem test_ResetSourcesAndReleases_release :
    (let c (f : Sequencer → Sequencer) := set (seqr f) [(F.RS_STRAPS_RST_MODE, 0, 0, 1)]
     (c id).fld F.RS_STRAPS_RST_MODE 0 0 = 1 ∧ (c id).seqr.main = true ∧ (c id).seqr.arm = none ∧ 2 ≤ (c id).rc ∧
       (∀ a ∈ [(⟨99998, 100000, 4, 0⟩ : Armed), ⟨99999, 99999, 5, 0xFFFF⟩], let s := c (fun x => { x with arm := some a })
        s.seqr.main = true ∧ s.seqr.arm = some a ∧ a.cause < 16 ∧ a.detail < 2 ^ 16 ∧ if a.cause = 4 then a.c + 2 ≤ s.rc else s.rc < a.c + 2) ∧
       (let s := c (fun x => { x with held := [9] })
        s.seqr.drive = none ∧ s.seqr.arm = none ∧ s.seqr.t0 = none ∧ s.seqr.held ≠ []) ∧
       (∀ row, row < 8 → (c (fun x => { x with held := [1, 2, 4, 5, 6, 7, 8, 9], t0 := some 100000 })).rowDue row 0 = true)) ∧
    (∀ row, row < 8 → (seqr (fun x => { x with held := (upFrom row (8 - row)).flatMap (fun r => (releaseRow r).1), t0 := some 10000 })).rowDue row 0 = true) ∧
    (let s := seqr (fun x => { x with held := [9], t0 := some 10000, pllFrom := some 23312 })
     s.fld F.RS_STRAPS_RST_MODE 0 0 = 0 ∧ s.seqr.pllFrom.isSome = true ∧ s.rowDue 7 65536 = true) := by
  and_intros <;> decide +kernel

/-- Each phase of the boot. What the firmware's bundles and the records hold rests on Config: the statement has both cases. -/
theorem test_BootPhases : (∀ p ∈ [0, 1, 3, 4], (up.setPhase p).inPhase p = true) ∧
    (∀ m, m < 2 → (set (up.setPhase 0) [(F.RS_US_STATUS_MARGIN_LOW, 0, 0, m)]).marginLow = decide (m = 1) ∧
      (set (up.setPhase 0) [(F.RS_US_STATUS_MARGIN_LOW, 0, 0, m)]).inPhase 0 = true) ∧
    { up.setPhase 1 with seqr := { up.seqr with only := true } }.inPhase 1 = true ∧
    (∀ x ∈ [(7, true), (8, false), (0x77, false), (0x78, true)], (set (up.setPhase 4) [(F.RS_STRAPS_SMB_ADDR, 0, 0, x.1)]).smbOff = x.2) := by
  decide +kernel

theorem test_Understory :
    (let x : UsInputs := ⟨48000, 3300, 1000, false, false, 800⟩
     up.seqr.aux = true ∧ 40000 < x.vinMv ∧ x.vinMv ≤ 61000 ∧ 3000 ≤ x.auxMv ∧ 100 ≤ x.leakKohm ∧ x.absent = false ∧ x.dieTemp ≤ 1760) ∧
    (let x : UsInputs := ⟨61001, 3000, 99, false, false, 800⟩
     61000 < x.vinMv ∧ 3000 ≤ x.auxMv ∧ x.leakKohm < 100 ∧ x.absent = false ∧ up.seqr.main = true ∧ up.fld F.RS_US_STATUS_TRIP 0 0 = 0) ∧
    (let s := seqr (fun x => { x with standby := some 100000 })
     s.seqr.standby = some 100000 ∧ 100000 ≤ s.rc ∧ s.seqr.main = true ∧ (1 : W64).getLsbD 0 = true ∧ s.run = .idle) ∧
    (let s := set (seqr (fun x => { x with main := false })) [(F.RS_RTC_ALARM_EN, 0, 0, 1)]
     s.seqr.main = false ∧ s.railsFree = true ∧ s.fld F.RS_RTC_ALARM_EN 0 0 = 1 ∧
       s.fld F.RS_RTC_ALARM_ALARM 0 0 ≤ s.fld F.RS_RTC_SECONDS 0 0) ∧
    (let s := set (seqr (fun x => { x with trip := false })) [(F.RS_US_STATUS_TRIP, 0, 0, 1)]
     s.seqr.trip = false ∧ s.fld F.RS_US_STATUS_TRIP 0 0 = 1) ∧
    (crystalEdges (seqr id).edge = crystalEdges ((seqr id).edge - 1) ∧ crystalEdges 18311 ≠ crystalEdges (18311 - 1) ∧
      (∀ n ∈ [none, some 0], (seqr (fun x => { x with rtc := n })).seqr.rtc = n ∧ up.seqr.aux = true)) := by
  and_intros <;> decide +kernel

/-- Samples at and over the limits, dies at each bound, and droops that a hold of 64 edges has just outlived and has not. -/
theorem test_Regulation :
    up.seqr.held.contains 3 = false ∧
    (let b := up.fld F.PW_BUDGET_BUDGET 0 0
     meanOver (((b + 1) :: List.replicate 9 b).take 1000) 10 b = true ∧ meanOver ((b :: List.replicate 9 b).take 1000) 10 b = false) ∧
    (∀ t ∈ [(1551 : Int), 1552, 1600, 1601], let core := List.replicate 12 (0 : Int)
     let ring := [0, 0, 0, t]
     core.length = 12 ∧ ring.length = 4 ∧ t ∈ core ++ ring ∧ (∀ x ∈ core ++ ring, x ≤ t) ∧ (core ++ ring)[15]? = some t) ∧
    ({ up with reg := { up.reg with hot := [15] } } : State).reg.hot ≠ [] ∧ up.reg.hot = [] ∧ (seqr id).reg.overAt + 10000 ≤ (seqr id).rc + 1 ∧
    (∀ src ∈ [3, 11], ∀ e ∈ [63, 62], let s := { seqr id with reg := { up.reg with droop := [(src, 600000 - e)] } }
     (∃ x ∈ s.reg.droop, if src < 4 then x.1 < 4 else x.1 = src) ∧ (∀ x ∈ s.reg.droop, decide (x.2 + 64 ≤ s.edge + 1) = decide (e = 63))) := by
  and_intros <;> decide +kernel

theorem test_ActivationAndTestPort :
    (∀ m, m < 2 → let s := set up [(F.SC_FW_SCHED_VALID, 0, 0, 1), (F.RS_US_STATUS_MARGIN_LOW, 0, 0, m)]
     s.fld F.SC_FW_SCHED_VALID 0 0 = 1 ∧ s.activationDue = true ∧ s.seqr.held.contains 9 = false ∧
       s.fld F.RS_US_STATUS_MARGIN_LOW 0 0 = m) ∧
    (seqr (fun x => { x with restart := true })).seqr.restart = true ∧ (seqr (fun x => { x with main := false })).seqr.main = false ∧
    up.seqr.main = true ∧ up.jtagLocked = false ∧
    { up with crown := { up.crown with owner := { up.crown.owner with lock := true } } }.jtagLocked = true := by
  and_intros <;> decide +kernel

/-! ## Host protocol, security and update -/

/-- A good ICP datagram for every host, in a frame of the shortest length. -/
def frame : EthFrame :=
  { len := 64, fcsOk := true, etherType := 0x0800, dstMac := 0xFFFFFFFFFFFF, vlanTags := 0, vlan := 0, pause := false
    fragment := false, options := false, dstIp := 1, udp := true, icmp := false, icmpType := 0, udpDst := 49810, roceOp := 0
    csumBad := false, src := 1, payload := [], fecCorr := 0, fecUncorr := 0 }

theorem test_FramesAndChimes :
    let s := ready .idle
    s.portTakes 0 = true ∧ s.portTakes 1 = false ∧ s.frameBreaks 0 frame = false ∧ notCommand frame.payload = true ∧
      s.frameBreaks 0 { frame with etherType := 0x0806 } = false ∧ frame.fecUncorr = 0 ∧
      s.frameMine 0 { frame with dstIp := 2 } = false ∧ { frame with len := 4225 }.len = 4225 ∧
      s.seqr.held.contains 3 = false ∧ s.seqr.main = true ∧ s.crownUp = true ∧ s.CrownFree ∧
      (let i := Instr.getInfo (cmd 0)
       cmdFrom i = some (cmd 0) ∧ i.wf = true ∧ icpFits i = true ∧ icpParts i = some (0x0001, [])) ∧
      (set s [(F.RS_BOOT_PHASE, 0, 0, 0xF)]).recovering = true ∧ (set s [(F.RS_BOOT_PHASE, 0, 0, 0xF)]).crownUp = false ∧
      s.crown.logWait = [] ∧ s.crown.dirty = false ∧
      (∀ m, m < 2 → (set s [(F.RS_BOOT_PHASE, 0, 0, 0xF), (F.RS_US_STATUS_MARGIN_LOW, 0, 0, m)]).marginLow = decide (m = 1)) := by
  unfold State.CrownFree; and_intros <;> decide +kernel

/-- In a run, the Crown has compared and found nothing to do. -/
theorem test_FramesAndChimes_poll :
    let h : Half := { gen := 0, tag := 0, settings := .default, repair := .fresh, owner := .none }
    let s := { ready .running with flash := { up.flash with slot0 := [], half0 := h, half1 := h, mirror := h } }
    let s := { s with crown := { s.crown with clearSeen := [0, 0, 0], repair := { s.crown.repair with cap := s.capNow } } }
    s.crownUp = true ∧ s.CrownFree ∧ s.healthRound = s := by
  unfold State.CrownFree; and_intros <;> decide +kernel

/-- Queue pair 63 at port 0, connected, with sequence number 2^24 − 1 next. -/
def qp63 (x : Qp) : Qp := { x with conn := true, expPsn := 2 ^ 24 - 1 }

/-- A SEND that fits, one that finds every buffer full and one too long. -/
theorem test_FramesAndChimes_send :
    let s := { ready .idle with qps := [(63, qp63 Qp.fresh)] }
    s.qpOn 0 63 = true ∧ (0xFFFFFF : BitVec 24).toNat = (s.qp 63).expPsn ∧ (s.port 0).intake = [] ∧
      (s.qp 63).rx.length < 8 ∧ (qp63 { Qp.fresh with rx := List.replicate 8 [] }).rx.length = 8 ∧
      (let c := { cmd 0 with src := 2 ^ 192 + 63 }
       cmdFrom (Instr.getInfo c) = some c ∧ (Instr.getInfo c).wf = true ∧ icpFits (Instr.getInfo c) = true ∧ c.spdm = none ∧
         notCommand (icpMessage c 0x0001 []) = false) ∧
      notCommand [] = true ∧
      (let s := { s with seqr := { up.seqr with held := [1], only := true } }
       s.restarting = true ∧ s.qpOn 0 63 = true ∧ s.crown.queue.length < 64) := by
  and_intros <;> decide +kernel

/-- A write that ends at its window's end, one outside it, one that finds the buffer full, a duplicate and a gap. -/
theorem test_IntakeWrites :
    let w (s : State) := set s [(F.EN_WIN_EN, 0, 15, 1), (F.EN_WIN_WR, 0, 15, 1), (F.EN_WIN_LEN, 0, 15, 1), (F.EN_WIN_RKEY, 0, 15, 9)]
    let s := w { ready .idle with qps := [(63, qp63 Qp.fresh)] }
    s.qpOn 0 63 = true ∧ s.grant 0 9 768 256 true = some 15 ∧ s.PathOpen ∧ (s.port 0).intake = [] ∧ (s.port 0).reads = [] ∧
      (s.port 0).held + 256 ≤ 0x800000 ∧ 768 % 256 + 256 ≤ 256 ∧ s.grant 0 9 769 256 true = none ∧ s.grant 0 8 768 256 true = none ∧
      psnSub (s.qp 63).expPsn (2 ^ 24 - 2) < 2 ^ 23 ∧ 2 ^ 23 ≤ psnSub (s.qp 63).expPsn 0 ∧
      (let s := w { ready .running with qps := [(63, qp63 Qp.fresh)], esc := { Esc.fresh with ended := true } }
       s.intakePaused = true ∧ s.grant 0 9 768 256 true = some 15) ∧
      (let m : Intake := ⟨63, 15, 0, 256, 256, [], true, [], false⟩
       let s := { s with ports := [(0, { Port.fresh with up := true, intake := [m] })] }
       (s.port 0).intake = [m] ∧ (s.port 0).reads = [] ∧ s.inputSlot m.addr m.len = none ∧
         (s.ctr (devCtr (s.fld F.EN_WIN_CIDX 0 m.win))).s + m.len < 2 ^ 48) := by
  unfold State.PathOpen; and_intros <;> decide +kernel

theorem held_full (z : List Byte) (h : z.length = 0x800000) :
    let p : Port := { Port.fresh with up := true, intake := [⟨62, 15, 0, 0x800000, 0, z, true, [], false⟩] }
    0x800000 < p.held + 1 ∧ ∀ m ∈ p.intake, m.qp = 63 → m.whole = true := by
  simp [Port.held, h]

/-- The intake buffer is full to its last byte. -/
theorem test_IntakeWrites_full : ∃ p : Port, 0x800000 < p.held + 1 ∧ ∀ m ∈ p.intake, m.qp = 63 → m.whole = true :=
  ⟨_, held_full (List.replicate 0x800000 0) List.length_replicate⟩

theorem test_ReadsAndRates :
    let s := set { ready .loaded with qps := [(63, qp63 Qp.fresh)] } [(F.EN_WIN_EN, 0, 0, 1), (F.EN_WIN_RD, 0, 0, 1), (F.EN_WIN_LEN, 0, 0, 1)]
    s.qpOn 0 63 = true ∧ (s.grant 0 0 1023 1 false).isSome = true ∧ s.grant 0 0 1023 2 false = none ∧ s.PathOpen ∧
      (s.port 0).intake = [] ∧ (s.port 0).reads = [] ∧ (s.qp 63).conn = true ∧ (s.qp 63).err = false ∧ (s.qp 63).ops = [] ∧
      (s.qp 63).halfAt = 0 ∧ (s.qp 63).cnpAt = 0 ∧
      (let s := { s with qps := [(63, { qp63 Qp.fresh with cnpAt := 1 })], edge := 6 * 4999 }
       (s.qp 63).cnpAt ≠ 0 ∧ s.rc + 1 < (s.qp 63).cnpAt + 5000) ∧
      (let s := { s with edge := 6 * 5499 }
       (s.qp 63).quietAt + 5500 ≤ s.rc + 1) ∧
      (let o : RdmaOp := ⟨5, 8, some 3⟩
       let r : Restore := ⟨2, 0, 0, 1, false, 1, [], []⟩
       let s := { s with qps := [(63, { qp63 Qp.fresh with ops := [o] })], crown := { s.crown with restore := some r } }
       (s.qp 63).ops = [o] ∧ o.read = some 3 ∧ o.psn = (5 : BitVec 24).toNat ∧ s.crown.restore = some r) := by
  unfold State.PathOpen; and_intros <;> decide +kernel

/-- Every ICP command and SPDM request, its operands at a boundary. -/
def commands (c : IcpCmd) : List Instr :=
  [.getInfo c, .getCapability c, .getState c, .getTime c, .load c (2 ^ 38 - 1) 1 1, .arm c 1, .stop c 2, .abort c, .unload c,
   .deviceReset c, .chimeSet c 1 0 0 1 64 0, .memRead c 3072 1024, .memWrite c 4095 [1], .qpConnect c 63 1 0 0 0 0, .qpReset c 63,
   .logRead c 1 0 32, .health c, .counterView c 0x40000000, .physRead c 3 23 16 4 0, .fwStageBegin c 2176, .fwStageData c 0 [1],
   .fwVerify c, .fwSchedule c 0, .fwAbandon c, .fwStatus c, .ownerEnrol c (zeros 97) (zeros 97) (zeros 96) (zeros 96), .ownerLock c,
   .ownerRelease c 1 (zeros 96), .netSet c 1 0 0 0, .powerGet c, .budgetSet c 90000, .ceilingSet c 256 1520, .floorSet c 1,
   .permute c 0 1 1 0, .restore c 0 0 0 0, .returnToService c 0 0, .blockReset c 3 1, .spdmGetVersion c, .spdmGetCapabilities c,
   .spdmNegotiateAlgorithms c 0x80 2, .spdmGetDigests c, .spdmGetCertificate c 0 0 1, .spdmChallenge c 0 0,
   .spdmGetMeasurements c 7 true 0]

/-- Each is served over a port. -/
theorem test_Serves : ∀ r ∈ [RunState.idle, .loaded, .running], ∀ i ∈ commands (cmd 0), (ready r).Serves i (cmd 0) := by
  unfold State.Serves State.Reached State.CrownFree; decide +kernel

/-- What the tests of R356 find before a command's own checks. -/
theorem test_IcpTests :
    let i : Instr := .stop (cmd 0) 2
    let m := icpMessage (cmd 0) 0x0103 (toBytes 2 8)
    icpParts i = some (0x0103, toBytes 2 8) ∧ (ready .idle).Reached i (cmd 0) ∧
      (∀ x ∈ [(⟨1, m, []⟩ : CacheEntry), ⟨1, m ++ [0], []⟩], x.src = (cmd 0).src ∧ le x.msg 8 8 = (cmd 0).seq.toNat) ∧
      (ready .idle).Reached (.stop { cmd 0 with dev := 1 } 2) { cmd 0 with dev := 1 } ∧
      ¬({ cmd 0 with dev := 1 }.dev.toNat = 0xFFFF ∨ { cmd 0 with dev := 1 }.dev.toNat = (ready .idle).self) ∧
      (List.replicate 64 (⟨1, 0, m⟩ : QCmd)).length = 64 ∧
      (let s := { ready .idle with crown := { (ready .idle).crown with owner := { up.crown.owner with key := [1] } } }
       s.Reached i (cmd 0) ∧ s.CrownFree ∧ s.crown.owner.key ≠ [] ∧ (cmd 0).tag = none ∧
         s.Reached (.stop { cmd 0 with tag := some (zeros 16) } 2) { cmd 0 with tag := some (zeros 16) } ∧
         s.crown.floor < (cmd 0).seq.toNat ∧ (cmd 0).seq.toNat ≤ 0xFFFFFFFF * 2 ^ 20 ∧
         (let c := { cmd 0 with seq := BitVec.ofNat 64 (0xFFFFFFFF * 2 ^ 20 + 1), tag := some (zeros 16) }
          s.Reached (.stop c 2) c ∧ 0xFFFFFFFF * 2 ^ 20 < c.seq.toNat)) ∧
      (let s := { ready .idle with crown := { (ready .idle).crown with blockBusy := some (3, 100) } }
       s.Reached i (cmd 0) ∧ s.crown.blockBusy.isSome = true ∧ s.crown.queue.length < 64) ∧
      (let s := { ready .idle with crown := { (ready .idle).crown with long := 0x0102, queue := [⟨1, 0, m⟩] } }
       s.Reached i (cmd 0) ∧ s.crown.long ≠ 0 ∧ s.crown.queue.length < 64) ∧
      (let s := { ready .idle with seqr := { up.seqr with held := [1], only := true } }
       s.restarting = true ∧ s.portTakes 0 = true ∧ s.crown.queue.length < 64) := by
  unfold State.Reached State.CrownFree; and_intros <;> decide +kernel

/-- The sideband: a command it does not carry, one under another enterprise number, and one that waited. -/
theorem test_IcpTests_side :
    let c : IcpCmd := { cmd 2 with vendor := Config.enterprise }
    (ready .idle).Reached (.restore c 0 0 0 0) c ∧ sideSubset (icpOpcode (.restore c 0 0 0 0)) = false ∧
      (∃ u, exec (.abort c) (ready .idle) = .next u ∧ u.crown.queue = []) ∧
      cmdFrom (.abort { c with vendor := ~~~Config.enterprise }) = some { c with vendor := ~~~Config.enterprise } := by
  refine ⟨⟨rfl, by decide +kernel, by decide +kernel, by decide +kernel, by decide +kernel, by decide +kernel,
    fun h => absurd h (by decide +kernel), fun _ => ⟨rfl, by decide +kernel⟩⟩, by decide +kernel, ⟨_, rfl, ?_⟩, rfl⟩
  have h1 : ((ready .idle).reaches 2) = true := by decide +kernel
  have h2 : (((ready .idle).arrive ⟨1, 2, icpMessage { cmd 2 with vendor := Config.enterprise } 0x0104 []⟩).crown.queue.isEmpty) = true := by decide +kernel
  simpa [State.icp, State.takesMctp, h1, icpArrival, cmdFrom, icpParts, cmd] using h2

/-- Straps that disable the endpoint. -/
theorem test_IcpTests_off : ∀ x ∈ [0, 7, 0x78], (set (ready .idle) [(F.RS_STRAPS_SMB_ADDR, 0, 0, x)]).smbOff = true ∧
    cmdFrom (.abort (cmd 2)) = some (cmd 2) ∧ (cmd 2).via = 2 := by decide +kernel

/-- A counter of the last tile, a register at a position that a tile has and at one that is fenced, and full ranges of a log. -/
theorem test_IcpInformation :
    let h := (ready .idle).heard 0
    h.crown.loaded = true ∧ h.recordsLost = false ∧
    crefKey none 0x05FF003F = some (tileCtr 1535 63) ∧ (h.physOf (tileCtr 1535 63 / 64)).isSome = true ∧
      h.physOf (1 * 384 + 2 * 16 + 15) = some 15 ∧
      (∀ y, y < 15 → h.physOf (1 * 384 + 2 * 16 + y) ≠ some 15) ∧
      (∀ y, y < 16 → h.physOf (1 * 384 + 2 * 16 + y) ≠ some 16) ∧
      (Machine.regAt ((physBlock 0).base + (1 * 384 + 2 * 16) * (physBlock 0).stride + 0)).isSome = true := by
  and_intros <;> decide +kernel

theorem test_IcpRuns :
    (let j := { job with opens := [] }
     let h := { ready .loaded with job := some j }.heard 0
     h.run = .loaded ∧ h.job = some j ∧ h.staged = [] ∧ h.commit = none ∧ (1 : W64).toNat < h.beat + 2 ∧ h.beat + 2 ≤ (2 : W64).toNat) ∧
    (∀ r ∈ [RunState.armed, .running, .held, .draining, .stopped, .faulted], ((ready r).heard 0).run = r) ∧
    (let c := cmd 0
     let i : Instr := .load c (2 ^ 38 - 1) 1 1
     let s := { ready .idle with crown := { (ready .idle).crown with long := icpOpcode i, longCmd := icpArrival i } }
     s.InHand i c ∧ s.run = .idle ∧ s.dramBad = [] ∧ s.roots = [] ∧ s.InHand (.load c (2 ^ 38 - 1) 1 1) c ∧
       s.rangesHeld (s.longRanges i) = false) ∧
    (let c := cmd 0
     let i : Instr := .load c 0 256 1
     let s := occupied { ready .idle with crown := { (ready .idle).crown with long := icpOpcode i, longCmd := icpArrival i } }
     s.InHand i c ∧ s.rangesHeld (s.longRanges i) = true) ∧
    (let h := (ready .running).heard 0
     h.rangesHeld [(0, 32)] = false ∧ ((occupied (ready .running)).heard 0).rangesHeld [(0, 32)] = true ∧
       (occupied (ready .running)).Serves (.permute (cmd 0) 0 1 1 0) (cmd 0)) ∧
    (let h := { ready .held with permute := some ⟨2, 1, [], []⟩ }.heard 0
     h.permute ≠ none) := by
  unfold State.InHand State.Serves State.Reached State.CrownFree; and_intros <;> decide +kernel

/-- A device that keeps its own header of step 0 in every slot: of no data, VALID or not. -/
theorem test_IcpRestore :
    let h := (ready .loaded).heard 0
    h.run = .loaded ∧ h.roots = [] ∧ h.dramBad = [] ∧ h.ckptLen 0 = 0 ∧ h.fld F.RT_CKPT_SET_GLEN 0 0 = 0 ∧
      (∀ r, r < 8 → (readHdr (h.dramBytes (h.partAddr r 0 0) 256)).step = 0 ∧
        (readHdr (h.dramBytes (h.partAddr r 0 0) 256)).valid = false) := by
  and_intros <;> decide +kernel

/-- The other sources: a buddy, the group with each member another device, and host storage with a queue pair and without. -/
theorem test_IcpRestore_sources :
    let g (n : Nat) : List (RegField × Nat × Nat × Nat) := [(F.RT_CKPT_GROUP_DEVICE0, 0, n, 1), (F.RT_CKPT_GROUP_DEVICE1, 0, n, 1),
      (F.RT_CKPT_GROUP_DEVICE2, 0, n, 1), (F.RT_CKPT_GROUP_DEVICE3, 0, n, 1)]
    (∀ x ∈ [(0, 0), (1, 0), (2, 7), (2, 8), (3, 0), (4, 0)], let s := set (ready .loaded) (g 0 ++ g 1)
     let h := s.heard 0
     s.Serves (.restore (cmd 0) (BitVec.ofNat 8 x.1) (BitVec.ofNat 8 x.2) 1 0) (cmd 0) ∧ h.run = .loaded ∧ (1 : W16).toNat ≠ h.self ∧
       ∀ m ∈ others x.2, m < 8 → (ckptGroup h.fld).getD m 0 ≠ h.self) ∧
    (∀ c, let h := { ready .loaded with qps := [(0, { Qp.fresh with conn := c })] }.heard 0
     let q := h.fld F.RT_CKPT_HOST_QP 0 0
     (h.qp q).conn = c ∧ (h.qp q).err = false) := by
  unfold State.Serves State.Reached State.CrownFree; and_intros <;> decide +kernel

theorem test_IcpRestore_free : ∀ a m, ((ready .loaded).heard 0).lineHeld a m = false := lineFree_of _ (by decide)

/-- A header of the own part as each root die writes it, at address 0. -/
theorem test_IcpRestore_valid :
    let h := { ready .loaded with job := some { job with hash := zeros 48 } }.heard 0
    let x : CkptHdr := { (readHdr (zeros 256)) with valid := true, dev := h.self, hash := h.jobHash8 }
    let h := { h with dram := SMap.writeList 0 0 x.bytes [] }
    (∀ r, r < 8 → (readHdr (h.dramBytes (h.partAddr r 0 0) 256)).valid = true ∧
      (readHdr (h.dramBytes (h.partAddr r 0 0) 256)).dev = h.self ∧ (readHdr (h.dramBytes (h.partAddr r 0 0) 256)).kind = 0 ∧
      (readHdr (h.dramBytes (h.partAddr r 0 0) 256)).hash = h.jobHash8) ∧
      (readHdr (h.dramBytes (h.partAddr 0 0 0) 256)).crc = crc32 (h.dramBytes (h.partAddr 0 0 0 + 0x10000) (h.ckptLen 0)) ∧
      (readHdr (h.dramBytes (h.partAddr 0 0 0) 256)).raise ≤ h.fld F.RT_WPOLICY_MAXRAISE 0 0 ∧ h.staged = [] ∧ h.commit = none ∧
      (∀ r, r < 8 → h.ctl r 8 % 2 ^ 38 + h.fld F.RT_CKPT_SET_MLEN r 0 * 1024 ≤ 2 ^ 38 ∧
        h.ctl r 10 % 2 ^ 38 + (h.ckptLen r - h.fld F.RT_CKPT_SET_MLEN r 0 * 1024) ≤ 2 ^ 38) := by
  and_intros <;> decide +kernel

/-- Every kind of range, each up to its end. -/
theorem test_IcpMemory :
    let h := (ready .idle).heard 0
    let tile (t : Nat) : Nat := spBase + t * 0x200000
    h.inRun = false ∧ (ready .running).inRun = true ∧
      (∀ n ∈ [1, 1024], 0 < n ∧ n ≤ 1024 ∧ 3072 % 4096 + n ≤ 4096) ∧ 4096 < 3073 % 4096 + 1024 ∧
      (h.place (2 ^ 38 - 1) = .dram (2 ^ 38 - 1)) ∧ h.lineHeld (2 ^ 38 - 1) 1 = false ∧
      { h with roots := [(h.stackOf (2 ^ 38 - 1), { Root.fresh with reqs := [⟨2 ^ 38 - 256, 1, .packet (pkt 3 0 4096 1 [])⟩] })] }.lineHeld
        (2 ^ 38 - 1) 1 = true ∧ h.place (2 ^ 38) = .hole ∧
      (h.place (storeBase + 7 * 0x4000000) = .store 7 0) ∧ h.storeActive 7 0 1024 = none ∧
      (h.place (tile 1535 + 0x17FFFF) = .tile 1535 0x17FFFF) ∧ h.tiles = [] ∧
      (h.place (liveAddr (addr F.SP_BANKMASK_MASK 1535)) = .live (addr F.SP_BANKMASK_MASK 1535)) := by
  and_intros <;> decide +kernel

theorem test_IcpSettings :
    (let h := (ready .idle).heard 0
     (h.qp 63).conn = false ∧ (h.port 1).up = false ∧ h.fld F.EN_PORT_STATUS_LINK_UP 0 0 = 0 ∧
       (set h [(F.EN_PORT_STATUS_PCS_LOCK, 0, 0, 1), (F.EN_PORT_STATUS_LINK_UP, 0, 0, 1)]).fld F.EN_PORT_STATUS_LINK_UP 0 0 ≠ 0 ∧
       h.inRun = false ∧ h.fld F.RT_CKPT_HOST_QP 0 0 ≠ 63 ∧ h.idleRun = true ∧ h.run ≠ .faulted ∧ h.staged = [] ∧ h.commit = none ∧
       h.fld F.PW_FLOOR_FLOOR 0 0 ≤ 256 ∧ 1 ≤ h.fld F.PW_CEIL_TILE_CEIL 0 0) ∧
    (let h := { ready .running with qps := [(0, { Qp.fresh with conn := true })] }.heard 0
     (h.qp 0).conn = true ∧ h.inRun = true ∧ h.fld F.RT_CKPT_HOST_QP 0 0 = 0 ∧ h.job = some job ∧ 99999 < job.alloc ∧ 90000 ≤ 99999) ∧
    (let h := (set (ready .idle) [(F.PW_CEIL_TILE_CEIL, 0, 0, 255)]).heard 0
     h.fld F.PW_CEIL_TILE_CEIL 0 0 < 256 ∧ h.inRun = false) ∧
    (let h := (ready .running).heard 0
     h.idleRun = false ∧ h.run ≠ .faulted ∧ h.staged = [] ∧ h.commit = none) ∧
    ((ready .faulted).heard 0).run = .faulted ∧
    (let h := { ready .stopped with commit := some ⟨0, 7, false, []⟩ }.heard 0
     h.run ≠ .faulted ∧ h.commit.isSome = true ∧ h.inRun = false) := by
  and_intros <;> decide +kernel

/-- The last block of each kind, quiet and not. -/
theorem test_IcpRepairs :
    let h := (ready .stopped).heard 0
    h.inRun = false ∧ h.run = .stopped ∧ (∀ b, b < 4 → 0 < blockCount b ∧ h.blockQuiet b (blockCount b - 1) = true) ∧
      { h with tiles := [(1535, core 0 0)] }.blockQuiet 0 (blockCount 0 - 1) = false ∧
      (h.link 23).queued = [] ∧ (h.link 23).inDoubt = [] ∧
      (∀ k, k < 7 → unitOk k 0 = true) ∧ unitOk 9 0 = false := by
  and_intros <;> decide +kernel

/-- The reset of each kind of block that answers later, an edge before it is complete and at it. -/
theorem test_IcpRepairs_completes : ∀ b, b < 4 → ∀ due ∈ [0, 1], b ≠ 2 →
    let i := Instr.blockReset (cmd 0) (BitVec.ofNat 8 b) 0
    let s := { ready .stopped with crown := { (ready .stopped).crown with longCmd := icpArrival i, blockBusy := some (b, due) } }
    s.Reached i (cmd 0) ∧ s.crown.long = 0 ∧ s.crown.restore = none ∧ s.crown.longCmd = icpArrival i ∧
      s.blockDone b due = decide (due = 0) := by
  unfold State.Reached; decide +kernel

/-- Every state of the B slot, and the four refusals of R415. -/
theorem test_FirmwareUpdate :
    let s (st : Nat) := set { ready .idle with crown := { (ready .idle).crown with staged := 100, stageLen := 2176 } } [(F.SC_FW_STATUS_STATE, 0, 0, st)]
    (∀ st, st < 4 → let h := (s st).heard 0
      h.fld F.SC_FW_STATUS_STATE 0 0 = st ∧ h.inRun = false ∧ h.crown.owner.lock = false ∧
        h.fld F.RS_US_STATUS_MARGIN_LOW 0 0 ≠ 1 ∧ h.permute = none ∧ h.role = 0 ∧ h.fld F.SC_FW_SCHED_VALID 0 0 = 0) ∧
    (100 + 2076 ≤ ((s 1).heard 0).crown.stageLen ∧ ((s 1).heard 0).crown.stageLen < 100 + 2077) ∧
    (set (s 2) [(F.ES_BEAT_CFG_ROLE, 0, 0, 1)]).role ≠ 0 ∧
    (set (s 3) [(F.SC_FW_SCHED_VALID, 0, 0, 1)]).fld F.SC_FW_SCHED_VALID 0 0 ≠ 0 ∧
    (∀ st, st < 4 → let h := (set (s st) [(F.RS_US_STATUS_MARGIN_LOW, 0, 0, 1), (F.SC_FW_SCHED_VALID, 0, 0, 1)]).heard 0
      h.fld F.RS_US_STATUS_MARGIN_LOW 0 0 = 1 ∧ h.marginLow = true ∧ h.fld F.SC_FW_STATUS_STATE 0 0 = st ∧
        h.fld F.SC_FW_SCHED_VALID 0 0 ≠ 0) ∧ ((s 1).heard 0).marginLow = false := by
  and_intros <;> decide +kernel

/-- FW_VERIFY in hand, of a bundle that is there and of one that is not whole. -/
theorem test_FirmwareUpdate_verify : ∀ n ∈ [2175, 2176],
    let i : Instr := .fwVerify (cmd 0)
    let s := set { ready .idle with crown := { (ready .idle).crown with staged := n, stageLen := 2176, long := icpOpcode i, longCmd := icpArrival i } } [(F.SC_FW_STATUS_STATE, 0, 0, 1)]
    s.InHand i (cmd 0) ∧ s.inRun = false ∧ s.crown.owner.lock = false ∧ s.fld F.RS_US_STATUS_MARGIN_LOW 0 0 ≠ 1 ∧
      s.permute = none ∧ s.fld F.SC_FW_STATUS_STATE 0 0 = 1 ∧ s.crown.staged = n := by
  unfold State.InHand State.Reached; decide +kernel

/-- An enrolled owner's commands with a tag, and none enrolled. What a signature or tag proves rests on Config. -/
theorem test_OwnerCommands :
    (let s := { ready .idle with crown := { (ready .idle).crown with owner := { up.crown.owner with key := [1] } } }
     let c : IcpCmd := { cmd 0 with tag := some (zeros 16) }
     s.crown.owner.key ≠ [] ∧ s.crown.floor < c.seq.toNat ∧ c.seq.toNat ≤ 0xFFFFFFFF * 2 ^ 20 ∧ s.crownUp = true ∧ s.recordsLost = false ∧ s.portTakes c.via = true ∧
       c.dev.toNat = 0xFFFF ∧ s.crown.cache = [] ∧ s.CrownFree ∧ (zeros 16).length = 16 ∧ s.fld F.SC_FW_STATUS_STATE 0 0 = 0 ∧
       (zeros 96).length = 96) ∧
    (let h := { ready .idle with crown := { (ready .idle).crown with owner := { up.crown.owner with lock := true } } }.heard 0
     h.crown.owner.lock = true ∧ h.run = .idle) := by
  unfold State.CrownFree; and_intros <;> decide +kernel

/-- The Crown's negotiation is in state `n`. -/
def spdmAt (n : Nat) : State := { ready .idle with crown := { (ready .idle).crown with spdm := n } }

/-- Each state of a negotiation, over a port and over MCTP. -/
theorem test_SpdmAndMctp :
    (∀ d ∈ [[0x12, 0xE4, 0, 0], [0x11, 0x81, 0, 0], [0x12, 0x84, 0, 0], [0x12, 0x83, 0, 1] ++ zeros 32], let c := { cmd 0 with spdm := some d }
     (4 ≤ d.length) ∧ icpOpcode (.spdmGetDigests c) = 0x0601 ∧ (ready .idle).Serves (.spdmGetDigests c) c ∧
       (le d 1 1 ∉ [0x84, 0xE1, 0xE3, 0x81, 0x82, 0x83, 0xE0] ∨ le d 0 1 ≠ (if le d 1 1 = 0x84 then 0x10 else 0x12) ∨
         (le d 1 1 = 0x83 ∧ d.length = 36 ∧ le d 3 1 ≠ 0))) ∧
    (ready .idle).smbOff = false ∧
    (∀ n ∈ upFrom 0 4, (spdmAt n).Serves (.spdmGetDigests (cmd 0)) (cmd 0)) ∧
    (let s := ready .idle
     (cmd 3).via = 3 ∧ cmdFrom (.spdmChallenge (cmd 3) 0 0) = some (cmd 3) ∧ (Instr.spdmChallenge (cmd 3) 0 0).wf = true ∧
       icpFits (.spdmChallenge (cmd 3) 0 0) = true ∧ s.crownUp = true ∧ s.recordsLost = false ∧ s.CrownFree ∧ s.mctpUp = true) ∧
    State.reset.mctpUp = false ∧ (0x80 : W32).getLsbD 7 = true ∧ (2 : W32).getLsbD 1 = true := by
  unfold State.Serves State.Reached State.CrownFree; and_intros <;> decide +kernel

/-! ## Rules stated whole -/

theorem test_BlockResetDiscardsJob : ∀ r ∈ [RunState.loaded, .stopped],
    (ready r).Serves (.blockReset (cmd 0) 3 1) (cmd 0) ∧ (1 : W16).toNat < blockCount 3 ∧ (1 : W16).toNat ≠ (cmd 0).via ∧
      ((ready r).heard 0).run = r ∧ ∀ b ∈ upFrom 0 4, ((ready r).heard 0).blockQuiet b (blockCount b - 1) = true := by
  unfold State.Serves State.Reached State.CrownFree; decide +kernel

end Sys2Proof.Tests
end

section
/-! The scalar operations of slot A (R82, R83, R88, R89, Tables 3.3 and 3.5): the value that each of the model's
functions gives, then the issue of a word whose slot A puts that value into RD. -/

namespace Sys2Proof.Machine

/-! ## Values of ALU -/

/-- A shift by register takes RB[5:0] (R89). -/
theorem toNat_mod_64_eq_extractLsb' (b : W64) : b.toNat % 64 = (b.extractLsb' 0 6).toNat := by
  simp [BitVec.extractLsb'_toNat]

theorem aluOp_slt (a b : W64) : aluOp 8 a b = if a.toInt < b.toInt then 1 else 0 := by
  simp [aluOp, BitVec.slt_eq_decide]

theorem aluOp_ult (a b : W64) : aluOp 9 a b = if a.toNat < b.toNat then 1 else 0 := by
  simp [aluOp, BitVec.ult_eq_decide]

theorem toInt_aluOp_min (a b : W64) : (aluOp 10 a b).toInt = min a.toInt b.toInt := by
  simp only [aluOp, BitVec.slt_iff_toInt_lt]
  split <;> omega

theorem toInt_aluOp_max (a b : W64) : (aluOp 11 a b).toInt = max a.toInt b.toInt := by
  simp only [aluOp, BitVec.slt_iff_toInt_lt]
  split <;> omega

theorem toNat_aluOp_minu (a b : W64) : (aluOp 12 a b).toNat = min a.toNat b.toNat := by
  simp only [aluOp, BitVec.ult_iff_toNat_lt]
  split <;> omega

theorem toNat_aluOp_maxu (a b : W64) : (aluOp 13 a b).toNat = max a.toNat b.toNat := by
  simp only [aluOp, BitVec.ult_iff_toNat_lt]
  split <;> omega

/-- What ALU computes, by FN (Table 3.3). -/
theorem aluOp_by_fn (fn : BitVec 11) (a b : W64) :
    let sh := (b.extractLsb' 0 6).toNat
    let v := aluOp fn.toNat a b
    (fn = 0 → v = a + b) ∧ (fn = 1 → v = a - b) ∧ (fn = 2 → v = a &&& b) ∧ (fn = 3 → v = a ||| b) ∧
      (fn = 4 → v = a ^^^ b) ∧ (fn = 5 → v = a <<< sh) ∧ (fn = 6 → v = a >>> sh) ∧ (fn = 7 → v = a.sshiftRight sh) ∧
      (fn = 8 → v = if a.toInt < b.toInt then 1 else 0) ∧ (fn = 9 → v = if a.toNat < b.toNat then 1 else 0) ∧
      (fn = 10 → v.toInt = min a.toInt b.toInt) ∧ (fn = 11 → v.toInt = max a.toInt b.toInt) ∧
      (fn = 12 → v.toNat = min a.toNat b.toNat) ∧ (fn = 13 → v.toNat = max a.toNat b.toNat) := by
  intro sh v
  have hsh : b.toNat % 64 = sh := toNat_mod_64_eq_extractLsb' b
  refine ⟨?_, ?_, ?_, ?_, ?_, ?_, ?_, ?_, ?_, ?_, ?_, ?_, ?_, ?_⟩ <;> intro hfn <;> subst v fn
  · rfl
  · rfl
  · rfl
  · rfl
  · rfl
  · rw [← hsh]; rfl
  · rw [← hsh]; rfl
  · rw [← hsh]; rfl
  · exact aluOp_slt a b
  · exact aluOp_ult a b
  · exact toInt_aluOp_min a b
  · exact toInt_aluOp_max a b
  · exact toNat_aluOp_minu a b
  · exact toNat_aluOp_maxu a b

/-! ## Values of SHI, MOVK, MUL and DIV -/

/-- What SHI computes, by FN[10:9] (Table 3.3). -/
theorem shiOp_by_kind (kind : BitVec 2) (sh : Nat) (a : W64) :
    let v := shiOp kind.toNat sh a
    (kind = 0 → v = a <<< sh) ∧ (kind = 1 → v = a >>> sh) ∧ (kind = 2 → v = a.sshiftRight sh) := by
  refine ⟨?_, ?_, ?_⟩ <;> rintro rfl <;> rfl

/-- Bits [16Q + 15 : 16Q] are the immediate's, the others those of RD as it was. -/
theorem getLsbD_movkOp (q i : Nat) (imm : BitVec 16) (a : W64) (hi : i < 64) :
    (movkOp q imm.toNat a).getLsbD i =
      if 16 * q ≤ i ∧ i < 16 * q + 16 then imm.getLsbD (i - 16 * q) else a.getLsbD i := by
  have hmask : Nat.testBit 0xFFFF (i - 16 * q) = decide (i - 16 * q < 16) := Nat.testBit_two_pow_sub_one 16 _
  simp only [movkOp, BitVec.getLsbD_or, BitVec.getLsbD_and, BitVec.getLsbD_not, BitVec.getLsbD_ofNat,
    Nat.testBit_mul_two_pow, hmask, BitVec.testBit_toNat, hi, decide_true, Bool.true_and]
  by_cases hlo : 16 * q ≤ i
  · by_cases hup : i < 16 * q + 16
    · have : i - 16 * q < 16 := by omega
      simp [hlo, hup, this]
    · have : 16 ≤ i - 16 * q := by omega
      simp [hup, BitVec.getLsbD_of_ge imm _ this, Nat.not_lt.2 this]
  · simp [hlo]

/-- The high half of a signed product is a word. -/
theorem toInt_mulOp_high (a b : W64) : (mulOp 1 a b).toInt = a.toInt * b.toInt / 2 ^ 64 := by
  have hlo := BitVec.le_toInt_mul_toInt (x := a) (y := b)
  have hup := BitVec.toInt_mul_toInt_le (x := a) (y := b)
  exact BitVec.toInt_ofInt_eq_self (by decide) (by omega) (by omega)

/-- The high half of an unsigned product is a word. -/
theorem toNat_mulOp_highu (a b : W64) : (mulOp 2 a b).toNat = a.toNat * b.toNat / 2 ^ 64 := by
  have hlt : a.toNat * b.toNat < 2 ^ 64 * 2 ^ 64 := Nat.mul_lt_mul'' a.isLt b.isLt
  exact Nat.mod_eq_of_lt (Nat.div_lt_of_lt_mul hlt)

/-- What MUL computes, by FN (Table 3.3). -/
theorem mulOp_by_fn (fn : BitVec 11) (a b : W64) :
    let v := mulOp fn.toNat a b
    (fn = 0 → v = a * b) ∧ (fn = 1 → v.toInt = a.toInt * b.toInt / 2 ^ 64) ∧
      (fn = 2 → v.toNat = a.toNat * b.toNat / 2 ^ 64) := by
  refine ⟨?_, ?_, ?_⟩ <;> rintro rfl
  · rfl
  · exact toInt_mulOp_high a b
  · exact toNat_mulOp_highu a b

theorem ofInt_tdiv_eq_sdiv (a b : W64) : BitVec.ofInt 64 (a.toInt.tdiv b.toInt) = a.sdiv b :=
  BitVec.eq_of_toInt_eq (by rw [BitVec.toInt_ofInt, BitVec.toInt_sdiv])

theorem ofInt_tmod_eq_srem (a b : W64) : BitVec.ofInt 64 (a.toInt.tmod b.toInt) = a.srem b := by
  rw [← BitVec.toInt_srem, BitVec.ofInt_toInt]

/-- What DIV computes, by FN (Table 3.3, R89). -/
theorem divOp_by_fn (fn : BitVec 11) (a b : W64) :
    let v := divOp fn.toNat a b
    (fn = 0 → v = if b = 0 then BitVec.allOnes 64 else a.sdiv b) ∧
      (fn = 1 → v = if b = 0 then BitVec.allOnes 64 else a.udiv b) ∧
      (fn = 2 → v = if b = 0 then a else a.srem b) ∧ (fn = 3 → v = if b = 0 then a else a.umod b) := by
  refine ⟨?_, ?_, ?_, ?_⟩ <;> rintro rfl
  · simp [divOp, ofInt_tdiv_eq_sdiv]
  · simp [divOp]
  · simp [divOp, ofInt_tmod_eq_srem]
  · simp [divOp]

/-! ## Completion -/

variable {c : Instr} {s : State} {t x lat : Nat} {w : W64} {f : Tile → W64}

/-- A command that issues a word whose slot A writes RD completes with the value that it computes from the tile. -/
theorem State.completes_scalar (h : s.Issues t w x) (hc : exec c s = guardUnit (tileOk t) (s.scalar t w lat f))
    (hf : ∀ q : Tile, f q.offered = f q) {v : W64} (hv : f (s.tile t) = v) :
    Completes c s (fun s' => Scalar s s' t w x (w.extractLsb' 21 5).toNat lat v) := by
  subst hv
  refine ⟨s.scalar t w lat f, by simp [hc, guardUnit, h.1], ?_⟩
  exact fRd_slotA w ▸ State.issues_scalar h lat f hf

/-- The same of a value known by what holds of it. -/
theorem State.completes_scalar_of (h : s.Issues t w x) (hc : exec c s = guardUnit (tileOk t) (s.scalar t w lat f))
    (hf : ∀ q : Tile, f q.offered = f q) {P : W64 → Prop} (hP : P (f (s.tile t))) :
    Completes c s (fun s' => ∃ v, Scalar s s' t w x (w.extractLsb' 21 5).toNat lat v ∧ P v) := by
  obtain ⟨s', hs', hsc⟩ := State.completes_scalar h hc hf rfl
  exact ⟨s', hs', _, hsc, hP⟩

end Sys2Proof.Machine

namespace Sys2Proof
open Machine

/-- Settles O7: each operation issues as one that writes RD, and the value is that of its function. -/
theorem scalarArithmetic : Obligations.ScalarArithmetic := by
  refine ⟨fun s t w x h => ⟨?addi, ?andi, ?ori, ?xori, ?seti⟩, fun s t w x h => ?alu,
    fun s t w x h => ⟨?shi, ?movk, ?mul, ?div, ?fqstat⟩⟩
  case addi => exact State.completes_scalar h rfl (fun _ => rfl) (by rw [fRa_slotA, immW_slotA])
  case andi => exact State.completes_scalar h rfl (fun _ => rfl) (by rw [fRa_slotA, immZ_slotA])
  case ori => exact State.completes_scalar h rfl (fun _ => rfl) (by rw [fRa_slotA, immZ_slotA])
  case xori => exact State.completes_scalar h rfl (fun _ => rfl) (by rw [fRa_slotA, immZ_slotA])
  case seti => exact State.completes_scalar h rfl (fun _ => rfl) (immW_slotA w)
  case alu =>
    refine State.completes_scalar_of h rfl (fun _ => rfl) ?_
    rw [fRa_slotA, fRb_slotA, fFn_slotA]
    exact aluOp_by_fn _ _ _
  case shi =>
    refine State.completes_scalar_of h rfl (fun _ => rfl) ?_
    rw [fRa_slotA, bits_slotA w 10 9 (by decide) (by decide), bits_slotA w 5 0 (by decide) (by decide)]
    exact shiOp_by_kind _ _ _
  case movk =>
    refine State.completes_scalar_of h rfl (fun _ => rfl) fun i hi => ?_
    rw [fQ_slotA, fImm_slotA, fRd_slotA, getLsbD_movkOp _ _ _ _ hi]
    refine ite_congr rfl (fun hin => ?_) (fun _ => rfl)
    rw [BitVec.getLsbD_extractLsb', decide_eq_true (by omega), Bool.true_and, Nat.zero_add]
  case mul =>
    refine State.completes_scalar_of h rfl (fun _ => rfl) ?_
    rw [fRa_slotA, fRb_slotA, fFn_slotA]
    exact mulOp_by_fn _ _ _
  case div =>
    refine State.completes_scalar_of h rfl (fun _ => rfl) ?_
    rw [fRa_slotA, fRb_slotA, fFn_slotA]
    exact divOp_by_fn _ _ _
  case fqstat =>
    refine State.completes_scalar_of h rfl (fun _ => rfl) ?_
    exact Nat.mod_eq_of_lt (by omega)

end Sys2Proof
end

section
/-! Levelling of sync counters (R296): what it does to the levelled counter, to another one, and to the rest of the
state. -/

namespace Sys2Proof.Machine

/-- R296: no signal is performed (S stays) and no last signaller recorded. -/
@[simp] theorem State.ctr_level_self (s : State) (k : Nat) : (s.level k).ctr k = { s.ctr k with c := (s.ctr k).s } :=
  State.ctr_setCtr_self ..

theorem State.ctr_level_of_ne (s : State) {j k : Nat} (h : j ≠ k) : (s.level k).ctr j = s.ctr j :=
  (State.ctr_setCtr ..).trans (if_neg h.symm)

/-- The frame of levelling: waiters, error notes and every field but the counters are as before. -/
theorem State.level_frame (s : State) (k : Nat) : s.level k = { s with counters := (s.level k).counters } := rfl

end Sys2Proof.Machine

namespace Sys2Proof
open Machine

/-- Settles O59: the levelled counter, every other counter, and the frame. -/
theorem levellingSetsConsumed : Obligations.LevellingSetsConsumed := fun s k =>
  ⟨s.ctr_level_self k, fun _ h => s.ctr_level_of_ne h, s.level_frame k⟩

end Sys2Proof
end

section
/-! Reading an ICP message back (R354, Table 12.2): the fields of a byte string, of a header and of a whole message, and
what the Crown takes a command's message for. -/

namespace Sys2Proof.Machine

/-! ## Fields of a byte string -/

@[simp] theorem length_zeros (n : Nat) : (zeros n).length = n := List.length_replicate

theorem ofBytes_zeros (n : Nat) : ofBytes (zeros n) = 0 := by
  induction n with
  | zero => rfl
  | succ n ih => simpa [zeros, List.replicate_succ, ofBytes] using ih

theorem ofBytes_append (a b : List Byte) : ofBytes (a ++ b) = ofBytes a + 256 ^ a.length * ofBytes b := by
  induction a with
  | nil => simp [ofBytes]
  | cons x a ih => simp only [List.cons_append, ofBytes, ih, List.length_cons, Nat.pow_succ]; ring

/-- Two adjacent fields read as one. -/
theorem le_add {d : List Byte} {o m n : Nat} (h : o + m ≤ d.length) :
    le d o (m + n) = le d o m + 256 ^ m * le d (o + m) n := by
  rw [le, List.take_add, ofBytes_append, List.drop_drop, List.length_take_of_le (by simp; omega)]
  rfl

theorem le_append_left {a b : List Byte} {o n : Nat} (h : o + n ≤ a.length) : le (a ++ b) o n = le a o n := by
  rw [le, le, List.drop_append_of_le_length (by omega), List.take_append_of_le_length (by simp; omega)]

theorem le_append_right {a b : List Byte} {o n : Nat} (h : a.length ≤ o) : le (a ++ b) o n = le b (o - a.length) n := by
  rw [le, le, List.drop_append, List.drop_of_length_le h, List.nil_append]

theorem le_toBytes (v n : Nat) : le (toBytes v n) 0 n = v % 256 ^ n := by
  rw [le, List.drop_zero, List.take_of_length_le (by simp), ofBytes_toBytes]

theorem le_zeros (n : Nat) : le (zeros n) 0 n = 0 := by
  rw [le, List.drop_zero, List.take_of_length_le (by simp), ofBytes_zeros]

/-- A bit vector whose bytes fill a field is read back whole. -/
theorem pf_of_le {w o n : Nat} {d : List Byte} {x : BitVec w} (h : le d o n = x.toNat) : pf d o n = x := by
  rw [pf, h, BitVec.ofNat_toNat, BitVec.setWidth_eq]

/-! ## Fields of a header -/

@[simp] theorem length_icpHeader (flags op plen seq status detail dev beat : Nat) :
    (icpHeader flags op plen seq status detail dev beat).length = 32 := by
  simp [icpHeader]

theorem le_icpHeader (flags op plen seq status detail dev beat : Nat) :
    let m := icpHeader flags op plen seq status detail dev beat
    le m 3 1 = flags % 2 ^ 8 ∧ le m 4 2 = op % 2 ^ 16 ∧ le m 6 2 = plen % 2 ^ 16 ∧ le m 8 8 = seq % 2 ^ 64 ∧
      le m 16 2 = status % 2 ^ 16 ∧ le m 18 2 = detail % 2 ^ 16 ∧ le m 20 2 = dev % 2 ^ 16 ∧ le m 22 2 = 0 ∧
      le m 24 8 = beat % 2 ^ 64 := by
  simp (disch := simp) only [icpHeader, le_append_left, le_append_right, le_toBytes, le_zeros, List.length_append,
    List.length_singleton, length_toBytes, length_zeros, Nat.reduceAdd, Nat.reduceSub]
  simp

/-! ## The message of a command -/

section
variable (c : IcpCmd) (op : Nat) (d : List Byte)

/-- The header of a command as the Crown reads it: over a port or as an ICP message on the sideband. -/
def received : IcpCmd := { c with vendor := Config.enterprise, spdm := none }

theorem length_icpMessage : (icpMessage c op d).length = 32 + d.length + (c.tag.getD []).length := by
  simp [icpMessage, icpBody, Nat.add_assoc]

theorem le_icpMessage {o n : Nat} (h : o + n ≤ 32) :
    le (icpMessage c op d) o n =
      le (icpHeader (if c.tag.isSome then 2 else 0) op d.length c.seq.toNat 0 0 c.dev.toNat 0) o n := by
  rw [icpMessage, icpBody, List.append_assoc, le_append_left (by simpa using h)]

/-- Bytes 3 to 31 of a command's message. -/
theorem le_icpMessage_fields (hop : op < 2 ^ 16) (hd : d.length < 2 ^ 16) :
    let m := icpMessage c op d
    le m 3 1 = (if c.tag.isSome then 2 else 0) ∧ le m 4 2 = op ∧ le m 6 2 = d.length ∧ le m 8 8 = c.seq.toNat ∧
      le m 16 4 = 0 ∧ le m 20 2 = c.dev.toNat ∧ le m 22 2 = 0 ∧ le m 24 8 = 0 := by
  obtain ⟨hflags, hopc, hplen, hseq, hstatus, hdetail, hdev, hres, hbeat⟩ :=
    le_icpHeader (if c.tag.isSome then 2 else 0) op d.length c.seq.toNat 0 0 c.dev.toNat 0
  have hlen : 32 ≤ (icpMessage c op d).length := by rw [length_icpMessage]; omega
  have hpair : le (icpMessage c op d) 16 4 = le (icpMessage c op d) 16 2 + 256 ^ 2 * le (icpMessage c op d) 18 2 :=
    le_add (m := 2) (n := 2) (by omega)
  simp only [hpair, le_icpMessage, Nat.reduceAdd, Nat.reduceLeDiff, hflags, hopc, hplen, hseq, hstatus, hdetail, hdev, hres, hbeat,
    Nat.mod_eq_of_lt hop, Nat.mod_eq_of_lt hd, Nat.mod_eq_of_lt c.seq.isLt, Nat.mod_eq_of_lt c.dev.isLt]
  cases c.tag <;> simp

theorem paramsOf_icpMessage (hop : op < 2 ^ 16) (hd : d.length < 2 ^ 16) : paramsOf (icpMessage c op d) = d := by
  obtain ⟨-, -, hplen, -⟩ := le_icpMessage_fields c op d hop hd
  rw [paramsOf, hplen, icpMessage, icpBody, List.append_assoc, List.drop_append_of_le_length (by simp),
    List.drop_of_length_le (by simp), List.nil_append, List.take_left]

theorem headerOf_icpMessage (hop : op < 2 ^ 16) (hd : d.length < 2 ^ 16) :
    headerOf c.src c.via (icpMessage c op d) = received c := by
  obtain ⟨hflags, -, hplen, hseq, -, hdev, -, -⟩ := le_icpMessage_fields c op d hop hd
  have htag : (icpMessage c op d).drop (32 + d.length) = c.tag.getD [] :=
    List.drop_left' (by simp [icpBody])
  rw [headerOf, pf_of_le hseq, pf_of_le hdev, hplen, htag, hflags, received]
  cases c.tag <;> simp [bit]

theorem headerWrong_icpMessage (hc : c.ok = true) (hop : op < 2 ^ 16) (hd : d.length ≤ 1152) :
    headerWrong (icpMessage c op d) = false := by
  obtain ⟨hflags, -, hplen, -, hstatus, -, hres, hbeat⟩ := le_icpMessage_fields c op d hop (by omega)
  rw [headerWrong, hflags, hplen, hstatus, hres, hbeat, length_icpMessage]
  simp only [IcpCmd.ok, Bool.and_eq_true] at hc
  obtain ⟨⟨-, htag⟩, -⟩ := hc
  cases ht : c.tag with
  | none => simp [bit, hd]
  | some t => simp_all [bit]

/-- What the Crown takes the message for. -/
theorem incoming_icpMessage (hv : c.via ≠ 3) (hop : op < 2 ^ 16) (hd : d.length < 2 ^ 16) :
    (QCmd.mk c.src c.via (icpMessage c op d)).incoming =
      ⟨received c, op, icpMessage c op d, parseParams (received c) op d⟩ := by
  obtain ⟨-, hopc, -⟩ := le_icpMessage_fields c op d hop hd
  simp only [QCmd.incoming, if_neg hv, headerOf_icpMessage c op d hop hd, paramsOf_icpMessage c op d hop hd, hopc]

end
end Sys2Proof.Machine
end

section
/-! The way of a command from its arrival to its effect (R356, R358): one that passes every test is carried out at once. -/

namespace Sys2Proof.Machine

section
variable {s : State} {i j : Instr} {c : IcpCmd} {op : Nat} {d : List Byte}

/-! ## The state at the arrival -/

/-- Counting an arrival changes counters of the port alone. -/
theorem State.heard_frame (s : State) (via : Nat) : s.heard via = { s with regs := (s.heard via).regs } := by
  unfold State.heard
  split <;> rfl

theorem State.heard_crown (s : State) (via : Nat) : (s.heard via).crown = s.crown := by rw [s.heard_frame]
theorem State.heard_seqr (s : State) (via : Nat) : (s.heard via).seqr = s.seqr := by rw [s.heard_frame]

/-- A field that is not one of the two counters of a port reads as before. -/
theorem State.heard_fld (s : State) {via : Nat} {f : RegField}
    (h : ∀ p < 2, F.EN_CNT_RXFRAME_COUNT.key p 0 ≠ f.key 0 0 ∧ F.EN_CNT_ICP_COUNT.key p 0 ≠ f.key 0 0) :
    (s.heard via).fld f 0 0 = s.fld f 0 0 := by
  unfold State.heard
  split
  next hvia =>
    obtain ⟨hframe, hcmd⟩ := h via hvia
    rw [State.fld_addFld _ _ _ _ _ _ _ _ hcmd, State.fld_addFld _ _ _ _ _ _ _ _ hframe]
  next => rfl

theorem State.heard_self (s : State) (via : Nat) : (s.heard via).self = s.self := s.heard_fld (by decide)
theorem State.heard_phase (s : State) (via : Nat) : (s.heard via).phase = s.phase := s.heard_fld (by decide)
theorem State.heard_recordsLost (s : State) (via : Nat) : (s.heard via).recordsLost = s.recordsLost := by
  rw [State.recordsLost, s.heard_fld (by decide), State.recordsLost]
theorem State.heard_crownUp (s : State) (via : Nat) : (s.heard via).crownUp = s.crownUp := by
  simp only [State.crownUp, s.heard_seqr, s.heard_phase]

/-- The Crown that serves is not in RECOVERY. -/
theorem State.inRecovery_of_crownUp (h : s.crownUp = true) : s.inRecovery = false := by
  simp only [State.crownUp, Bool.and_eq_true, beq_iff_eq] at h
  simp [State.inRecovery, h.2]

theorem State.restarting_of_crownUp (h : s.crownUp = true) : s.restarting = false := by
  simp [State.restarting, h]

/-! ## The tests -/

/-- A command other than an SPDM request arrives as its message. -/
theorem icpArrival_of_parts (hc : cmdFrom i = some c) (hp : icpParts i = some (op, d)) (hv : c.via < 3) (ho : op ≠ opSpdm) :
    icpArrival i = some ⟨c.src, c.via, icpMessage c op d⟩ := by
  simp [icpArrival, hc, hp, ho, Nat.ne_of_lt hv]

/-- What reaches the Crown is tested at the state that counts it. -/
theorem State.icp_of_reached (h : s.Reached i c) (hp : icpParts i = some (op, d)) (ho : op ≠ opSpdm) :
    s.icp i = (s.heard c.via).arrive ⟨c.src, c.via, icpMessage c op d⟩ := by
  obtain ⟨hc, -, -, hup, -, hv, hport, hside⟩ := h
  have htakes : s.takesMctp i = true := by
    by_cases h2 : c.via = 2
    · simp [State.takesMctp, hc, hp, h2, (hside h2).1]
    · simp [State.takesMctp, hc, hp, h2, Nat.ne_of_lt hv]
  have hreach : s.reaches c.via = true := by
    by_cases h2 : c.via < 2
    · simp [State.reaches, h2, hport h2, hup]
    · simp [State.reaches, h2, (hside (by omega)).2, hup]
  simp only [State.icp, icpArrival_of_parts hc hp hv ho, htakes, hreach]
  simp [State.heard]

/-- Tests 1 to 3 let a new command for this device pass. -/
theorem State.early_none {x : Incoming} (hnew : ∀ e ∈ s.crown.cache, ¬(e.src = x.cmd.src ∧ le e.msg 8 8 = x.cmd.seq.toNat))
    (hdev : x.cmd.dev.toNat = 0xFFFF ∨ x.cmd.dev.toNat = s.self) : s.early x false = none := by
  have hcached : s.cached x = none := by
    rw [State.cached, List.find?_eq_none]
    simpa using hnew
  have : ¬(x.cmd.dev.toNat ≠ 0xFFFF ∧ x.cmd.dev.toNat ≠ s.self) := by omega
  simp [State.early, hcached, this]

/-- Where no owner key asks for a tag, the sideband carries the opcode and the Crown has no long command in hand, a command
that is not long is carried out. -/
theorem State.serve_eq_carryOut {q : QCmd} (hkey : s.crown.owner.key = []) (hrec : s.recordsLost = false)
    (hup : s.crownUp = true) (hside : q.incoming.cmd.via = 2 → sideSubset q.incoming.op = true)
    (hparsed : q.incoming.parsed = .cmd i) (hshort : longOp q.incoming.op = false) (hlong : s.crown.long = 0) :
    s.serve q = s.carryOut q i := by
  have hauth : s.authFail q.incoming = (none, s) := by simp [State.authFail, hkey]
  have hop : s.opcodeFail q.incoming = none := by
    simp only [State.opcodeFail, hparsed, hrec, State.inRecovery_of_crownUp hup]
    simpa using hside
  simp [State.serve, hauth, hop, hparsed, hshort, hlong]

/-- A command that passes the tests before its own checks, is neither long nor an SPDM request and waits for no path to DRAM is
carried out at its arrival, as what its parameters spell. -/
theorem State.icp_of_serves (h : s.Serves i c) (hp : icpParts i = some (op, d)) (ho : op ≠ opSpdm) (hop : op < 2 ^ 16)
    (hd : d.length ≤ 1152) (hok : c.ok = true) (hparse : parseParams (received c) op d = .cmd j) (hshort : longOp op = false)
    (hmem : (s.heard c.via).memHeld ⟨received c, op, icpMessage c op d, .cmd j⟩ = false) :
    s.icp i = (s.heard c.via).carryOut ⟨c.src, c.via, icpMessage c op d⟩ j := by
  obtain ⟨hreached, hside, hnew, hdev, ⟨hqueue, hlong, -, -, hbusy⟩, hkey⟩ := h
  rw [State.icp_of_reached hreached hp ho]
  obtain ⟨-, -, -, hup, hrec, hv, -, -⟩ := hreached
  have hin := incoming_icpMessage c op d (Nat.ne_of_lt hv) hop (by omega)
  rw [hparse] at hin
  have hopc : icpOpcode i = op := by simp [icpOpcode, hp]
  rw [hopc] at hside
  have hearly : (s.heard c.via).early ⟨received c, op, icpMessage c op d, .cmd j⟩ (headerWrong (icpMessage c op d)) = none := by
    rw [headerWrong_icpMessage c op d hok hop hd]
    exact State.early_none (by rw [s.heard_crown]; exact hnew) (by rw [s.heard_self]; exact hdev)
  have hwaits : (s.heard c.via).waits ⟨received c, op, icpMessage c op d, .cmd j⟩ = false := by
    simp [State.waits, s.heard_crown, hbusy, hlong, hqueue, hmem]
  have harrive : (s.heard c.via).arrive ⟨c.src, c.via, icpMessage c op d⟩ =
      (s.heard c.via).serve ⟨c.src, c.via, icpMessage c op d⟩ := by
    simp [State.arrive, hin, State.restarting_of_crownUp ((s.heard_crownUp c.via).trans hup), Nat.ne_of_lt hv, hearly, hwaits,
      s.heard_crown, hqueue]
  rw [harrive]
  apply State.serve_eq_carryOut
  · rw [s.heard_crown, hkey]
  · rw [s.heard_recordsLost, hrec]
  · rw [s.heard_crownUp, hup]
  · rw [hin]; exact hside
  · rw [hin]
  · rw [hin]; exact hshort
  · rw [s.heard_crown, hlong]

end
end Sys2Proof.Machine
end

section
/-! The run state and the job held, through BLOCK_RESET (R382, R383): what keeps both, what each block's reset leaves of them,
and the command that carries it out. -/

namespace Sys2Proof.Machine

/-- The run state and the job held, as one value. -/
def State.runAndJob (s : State) : RunState × Option Job := (s.run, s.job)

theorem State.runAndJob_eq_iff {s t : State} : s.runAndJob = t.runAndJob ↔ s.run = t.run ∧ s.job = t.job := Prod.mk_inj

theorem State.foldl_runAndJob {α : Type} {f : State → α → State} (h : ∀ s a, (f s a).runAndJob = s.runAndJob) (l : List α)
    (s : State) : (l.foldl f s).runAndJob = s.runAndJob := by
  induction l generalizing s with
  | nil => rfl
  | cons a l ih => rw [List.foldl_cons, ih, h]

variable (s : State)

/-! ## Updates of the state -/

theorem State.runAndJob_withRegs (r : SMap Nat) : { s with regs := r }.runAndJob = s.runAndJob := rfl
@[simp] theorem State.setFld_runAndJob (f : RegField) (i j v : Nat) : (s.setFld f i j v).runAndJob = s.runAndJob := rfl
@[simp] theorem State.satFld_runAndJob (f : RegField) (i j v : Nat) : (s.satFld f i j v).runAndJob = s.runAndJob := rfl
@[simp] theorem State.updRoot_runAndJob (r : Nat) (g : Root → Root) : (s.updRoot r g).runAndJob = s.runAndJob := rfl
@[simp] theorem State.updRve_runAndJob (r : Nat) (g : Rve → Rve) : (s.updRve r g).runAndJob = s.runAndJob := rfl
@[simp] theorem State.setLink_runAndJob (n : Nat) (x : Link) : (s.setLink n x).runAndJob = s.runAndJob := rfl
@[simp] theorem State.updLink_runAndJob (n : Nat) (g : Link → Link) : (s.updLink n g).runAndJob = s.runAndJob := rfl
@[simp] theorem State.setQp_runAndJob (q : Nat) (x : Qp) : (s.setQp q x).runAndJob = s.runAndJob := rfl
@[simp] theorem State.updQp_runAndJob (q : Nat) (g : Qp → Qp) : (s.updQp q g).runAndJob = s.runAndJob := rfl
@[simp] theorem State.updPort_runAndJob (p : Nat) (g : Port → Port) : (s.updPort p g).runAndJob = s.runAndJob := rfl
@[simp] theorem State.updCrown_runAndJob (g : Crown → Crown) : (s.updCrown g).runAndJob = s.runAndJob := rfl
@[simp] theorem State.emit_runAndJob (x : Sent) : (s.emit x).runAndJob = s.runAndJob := rfl
@[simp] theorem State.note_runAndJob (e : ErrNote) : (s.note e).runAndJob = s.runAndJob := rfl
@[simp] theorem State.send_runAndJob (buf n : Nat) (p : Packet) : (s.send buf n p).runAndJob = s.runAndJob := rfl

@[simp] theorem State.setFlds_runAndJob (i j : Nat) (l : List (RegField × Nat)) : (s.setFlds i j l).runAndJob = s.runAndJob :=
  State.foldl_runAndJob (fun _ _ => by rfl) l s

@[simp] theorem State.markUnclean_runAndJob : s.markUnclean.runAndJob = s.runAndJob := by
  unfold State.markUnclean
  split <;> rfl

@[simp] theorem State.capture_runAndJob (v m : RegField) (i : Nat) (l : List (RegField × Nat)) (e : ErrNote) :
    (s.capture v m i l e).runAndJob = s.runAndJob := by
  unfold State.capture
  split <;> simp

/-! ## The store and the control line -/

@[simp] theorem State.fixHalf_runAndJob (r x h : Nat) : (s.fixHalf r x h).runAndJob = s.runAndJob := by
  unfold State.fixHalf
  split <;> rfl

@[simp] theorem State.storePut_runAndJob (r o : Nat) (d : List Byte) : (s.storePut r o d).runAndJob = s.runAndJob := by
  rw [State.storePut, State.foldl_runAndJob (fun _ _ => by rfl), State.foldl_runAndJob]
  intro t p
  split
  · rfl
  · exact t.fixHalf_runAndJob ..

@[simp] theorem State.setCtl_runAndJob (r w v : Nat) : (s.setCtl r w v).runAndJob = s.runAndJob := s.storePut_runAndJob ..

@[simp] theorem State.setRve_runAndJob (r : Nat) (f : Rve → Rve) : (s.setRve r f).runAndJob = s.runAndJob := by
  rw [State.setRve, State.syncCtl, State.setCtl_runAndJob, State.updRve_runAndJob]

/-! ## Routing -/

@[simp] theorem State.lkErr_runAndJob (n code cls : Nat) (p : Option Packet) : (s.lkErr n code cls p).runAndJob = s.runAndJob := by
  simp only [State.lkErr, State.capture_runAndJob]
  split <;> simp

@[simp] theorem State.freeRx_runAndJob (src : Option Arrival) (p : Packet) : (s.freeRx src p).runAndJob = s.runAndJob := by
  unfold State.freeRx
  split
  · rfl
  · split <;> simp

@[simp] theorem State.answerDrop_runAndJob (here : Nat) (p : Packet) : (s.answerDrop here p).runAndJob = s.runAndJob := by
  unfold State.answerDrop
  split <;> simp

@[simp] theorem State.routeFrom_runAndJob (here : Nat) (src : Option Arrival) (last : Option (Nat × Nat)) (at' : Option Nat)
    (p : Packet) : (s.routeFrom here src last at' p).runAndJob = s.runAndJob := by
  unfold State.routeFrom
  cases s.route p.dest with
  | deliver => simp
  | noRoute => simp
  | misroute => simp
  | out n k wrap =>
    dsimp only
    split <;> rfl

@[simp] theorem State.doubt_runAndJob (n k : Nat) (d : Doubt) : (s.doubt n k d).runAndJob = s.runAndJob := by
  simp only [State.doubt]
  split <;> simp

/-! ## Block resets -/

@[simp] theorem State.dropLink_runAndJob (n : Nat) (rec : Bool) : (s.dropLink n rec).runAndJob = s.runAndJob := by
  rw [State.dropLink, State.foldl_runAndJob, State.foldl_runAndJob (fun _ _ => by simp),
    State.foldl_runAndJob (fun _ _ => by simp), State.setLink_runAndJob]
  intro t d
  split <;> simp

theorem State.resetLink_runAndJob (n : Nat) : (s.resetLink n).runAndJob = s.runAndJob := by
  have hoff : (s.linkOff n).runAndJob = s.runAndJob := State.dropLink_runAndJob ..
  simp only [State.resetLink]
  split <;> exact hoff

theorem State.qpReset_runAndJob (q : Nat) : (s.qpReset q).runAndJob = s.runAndJob := rfl

theorem State.resetPort_runAndJob (p : Nat) : (s.resetPort p).runAndJob = s.runAndJob := by
  rw [State.resetPort, State.runAndJob_withRegs, State.updPort_runAndJob, State.foldl_runAndJob]
  intro t q
  split
  · exact t.qpReset_runAndJob q
  · rfl

theorem State.resetRow_runAndJob (die row : Nat) : (s.resetRow die row).runAndJob = s.runAndJob := rfl

theorem State.resetRve_runAndJob (r : Nat) : (s.resetRve r).runAndJob = s.runAndJob := by
  rw [State.resetRve, State.foldl_runAndJob (fun _ _ => by simp), State.setRve_runAndJob]
  rfl

theorem State.setMeas_runAndJob (i : Nat) (d : List Byte) : (s.setMeas i d).runAndJob = s.runAndJob :=
  State.foldl_runAndJob (fun _ _ => by rfl) _ s

theorem State.noJob_runAndJob : s.noJob.runAndJob = (.idle, none) := by
  rw [State.noJob, State.setJobHash, State.setMeas_runAndJob, State.foldl_runAndJob (fun _ _ => by rfl),
    State.setFlds_runAndJob]
  rfl

/-- A job held outside a run is discarded after a reset that kept the run state (R383). -/
theorem State.dropJob_runAndJob {t : State} (ht : t.runAndJob = s.runAndJob) (h : s.run = .loaded ∨ s.run = .stopped) :
    t.dropJob.runAndJob = (.idle, none) := by
  obtain ⟨hrun, -⟩ := State.runAndJob_eq_iff.mp ht
  rw [State.dropJob, hrun, if_pos h, State.noJob_runAndJob]

/-- R383, for the blocks of Table 13.6: tile row 0, RVE 1, link 2, port 3. -/
theorem State.resetBlock_runAndJob (b i : Nat) (h : s.run = .loaded ∨ s.run = .stopped) :
    (s.resetBlock b i).runAndJob = if b < 2 then (.idle, none) else s.runAndJob := by
  match b with
  | 0 => exact s.dropJob_runAndJob (s.resetRow_runAndJob (i / 24) (i % 24)) h
  | 1 => exact s.dropJob_runAndJob (s.resetRve_runAndJob i) h
  | 2 => rw [show s.resetBlock 2 i = s.resetLink i from rfl, s.resetLink_runAndJob, if_neg (by omega)]
  | b + 3 => rw [show s.resetBlock (b + 3) i = s.resetPort i from rfl, s.resetPort_runAndJob, if_neg (by omega)]

/-! ## The command -/

/-- Every test of BLOCK_RESET passed, the block is reset; where its reset takes time, the Crown waits for it. -/
theorem State.blockResetOp_accepted {via b i : Nat} (hrun : s.inRun = false) (hi : i < blockCount b) (hown : ¬(b = 3 ∧ via = i))
    (hquiet : s.blockQuiet b i = true) : (s.blockResetOp via b i).2.runAndJob = (s.resetBlock b i).runAndJob := by
  simp only [State.blockResetOp, hrun, Nat.not_le.mpr hi, hown, hquiet]
  cases s.blockDue b <;> simp

theorem State.reply_runAndJob (x : Incoming) (a : Answer) : (s.reply x a).runAndJob = s.runAndJob := by
  have hfree (t : State) : (t.freeBuffer x).runAndJob = t.runAndJob := by
    unfold State.freeBuffer
    split <;> simp
  have hback (t : State) (m : List Byte) : (t.sendBack x.cmd m).runAndJob = t.runAndJob := by
    simp only [State.sendBack]
    split
    · split <;> simp
    · simp
  unfold State.reply
  split
  · simp [State.mctpReply]
  · simp [hback, hfree]

/-- A command's reply, and what takes effect after it, keep the run state and the job that the effect leaves. -/
theorem State.carryOut_runAndJob (q : QCmd) (i : Instr) : (s.carryOut q i).runAndJob = (s.perform q.params i).2.runAndJob := by
  have hafter (t : State) (a : Answer) : (t.afterReply i a).runAndJob = t.runAndJob := by
    unfold State.afterReply
    split
    · split <;> simp
    · rfl
  unfold State.carryOut
  split
  next a t ht => simp [ht, hafter, State.reply_runAndJob]
  next t ht => simp [ht]

/-- The parameters of BLOCK_RESET spell it. -/
theorem parseParams_blockReset (c : IcpCmd) (b : Byte) (n : W16) :
    parseParams c 0x0804 ([b] ++ vecBytes n 2) = .cmd (.blockReset c b n) := by
  have hb : (pf ([b] ++ vecBytes n 2) 0 1 : Byte) = b := pf_of_le (by rw [le_append_left (by simp)]; simp [le, ofBytes])
  have hn : (pf ([b] ++ vecBytes n 2) 1 2 : W16) = n := by
    apply pf_of_le
    rw [le_append_right (by simp), vecBytes, List.length_singleton, Nat.sub_self, le_toBytes]
    exact Nat.mod_eq_of_lt n.isLt
  simp only [parseParams, hb, hn]
  simp [sized, vecBytes]

theorem State.icp_blockReset_of_serves {s : State} {c : IcpCmd} {b : Byte} {n : W16} (h : s.Serves (.blockReset c b n) c) :
    s.icp (.blockReset c b n) = (s.heard c.via).carryOut
      ⟨c.src, c.via, icpMessage c 0x0804 ([b] ++ vecBytes n 2)⟩ (.blockReset (received c) b n) := by
  obtain ⟨-, hok, -⟩ := h.1
  refine State.icp_of_serves h rfl (by decide) (by decide) (by simp [vecBytes]) hok (parseParams_blockReset _ b n) (by decide) ?_
  simp [State.memHeld, State.memRange, State.rangesHeld]

end Sys2Proof.Machine

namespace Sys2Proof
open Machine

/-- Settles O60: the Crown carries the command out at its arrival, and its effect is that of the block's reset. -/
theorem blockResetDiscardsJob : Obligations.BlockResetDiscardsJob := by
  intro s c b n hserves hn hown h hquiet hrun
  have hidle : h.inRun = false := by
    rcases hrun with hrun | hrun <;> simp [State.inRun, hrun]
  have hport : ¬(b.toNat = 3 ∧ c.via = n.toNat) := by
    rintro ⟨hb, hvia⟩
    exact hown.elim (fun hne => hne (BitVec.eq_of_toNat_eq hb)) (fun hne => hne hvia.symm)
  have hall : (s.icp (.blockReset c b n)).runAndJob = if b.toNat < 2 then (.idle, none) else h.runAndJob := by
    rw [State.icp_blockReset_of_serves hserves, State.carryOut_runAndJob]
    exact (h.blockResetOp_accepted hidle hn hport hquiet).trans (h.resetBlock_runAndJob _ _ hrun)
  refine ⟨_, rfl, fun hb => ?_, fun hb => ?_⟩
  · rw [if_pos (by rcases hb with rfl | rfl <;> decide)] at hall
    exact (Prod.mk.inj hall).symm
  · rw [if_neg (by rcases hb with rfl | rfl <;> decide)] at hall
    exact (State.runAndJob_eq_iff.mp hall).symm

end Sys2Proof
end
